-- ==== Sys2Proof/Word.lean ====
section
/-! DEFINITION. The words of the BTZ-7128 and the form in which the model holds addressed storage. -/

namespace Sys2Proof

/-- A word of the device: 48 bits, numbered 47 to 0 (R11). -/
abbrev Word := BitVec 48

/-- An octet of line data, host memory or flash. -/
abbrev Byte := BitVec 8

/-- Sparse storage keyed by a number: keys strictly rising, and no entry equal to what an unlisted key reads as. -/
abbrev SMap (α : Type) := List (Nat × α)

/-- A word from a number, modulo 2^48. -/
abbrev toWord (n : Nat) : Word := BitVec.ofNat 48 n

end Sys2Proof
end

