-- ==== Sys2Proof/Syntax.lean ====
section
/-! DEFINITION. The commands and events that the block takes: one constructor for each row of spec/opcode_table.json. -/

namespace Sys2Proof

/-- Where a command comes from: one of the 64 command queues, or the service processor's command port (R37). -/
inductive Port where
  | queue (q : BitVec 6)
  | sp
deriving DecidableEq, Repr

/-- A command as it stands in a ring (Table 3.1), less its opcode, which the row gives. -/
structure Cmd where
  port : Port
  silent : Bool
  irq : Bool
  opflags : BitVec 2
  args : BitVec 32
  /-- The operand words; their number is NOPS. -/
  ops : List Word
deriving DecidableEq, Repr

/-- What the outside gives to a command that moves host data or runs over many ticks: the word slots or octets read from
host memory, and how many ticks the command takes where no rule fixes them (0: it ends in its admission tick). -/
structure HostIo where
  slots : List (BitVec 64)
  octets : List Byte
  took : Nat
deriving DecidableEq, Repr

/-- A RULE_STAGE command with what the outside gives to it. -/
structure StageIn where
  cmd : Cmd
  io : HostIo
deriving DecidableEq, Repr

/-- What a pass through a lookup pipe meets: the cell that its first grant takes, and how many of the words it reads had a
single-bit error, which is corrected (R543). -/
structure LookupIn where
  pick : Nat
  fixed : Nat
deriving DecidableEq, Repr

/-- The queue whose pages are read back, and how many of their words had a single-bit error (R543). -/
structure PagesIn where
  queue : BitVec 19
  fixed : Nat
deriving DecidableEq, Repr

/-- The slot that the patrol scrubber visits, and how many of its words had a single-bit error (R543). -/
structure SlotIn where
  slot : Nat
  fixed : Nat
deriving DecidableEq, Repr

/-- A WRITE of one word, or a MASK_WRITE, whose effect is a row of its own. -/
structure RegWrite where
  port : Port
  silent : Bool
  irq : Bool
  /-- MASK_WRITE in place of WRITE. -/
  masked : Bool
  addr : BitVec 25
  /-- The mask of a MASK_WRITE; a WRITE carries none. -/
  mask : Word
  value : Word
deriving DecidableEq, Repr

/-- A delimiter candidate on a lane, as the receiver sees it: where it begins, its symbols as levels in order of arrival (0 or
1 on a two-level line), and the structures that follow it in the place of the burst header. -/
structure Candidate where
  /-- Its first symbol at the OLT, in 1/31,104 ns. -/
  pos : Nat
  symbols : List (BitVec 2)
  h1 : BitVec 64
  h2 : BitVec 64
deriving DecidableEq, Repr

/-- Octets that an uplink MAC receives: a whole frame, or a part of one. -/
structure UplFrame where
  octets : List Byte
  /-- L of the whole frame, FCS included. -/
  len : Nat
  /-- The frame ends with these octets. -/
  tail : Bool
  /-- The instant of the first bit after the SFD, in 1/256 tick. -/
  sfd : Nat
deriving DecidableEq, Repr


/-- A clock island whose handshake can be lost (R25). -/
inductive Island where
  | tree (t : BitVec 7)
  | laneRx (t : BitVec 7) (l : Bool)
  | port (p : BitVec 5)
  | hbm (stack : BitVec 3)
  | host
  | sp
deriving DecidableEq, Repr

/-- A structure word with an uncorrectable error (Table 17.5). -/
inductive MemWord where
  /-- Packet data on-die. -/
  | packet (pkt : Nat)
  /-- The header word of cell `n` of a packet inside Confluence. -/
  | cellHeader (pkt n : Nat)
  /-- An HBM page. -/
  | page (p : BitVec 26)
  /-- A slot of keyed table `t + 1`; `readable`: its word that holds VALID still reads correctly. -/
  | keyed (t : BitVec 2) (slot : Nat) (readable : Bool)
  /-- An entry of table 0x20 + `t` in a copy. -/
  | gen (copy : Bool) (t : BitVec 2) (idx : Nat)
  /-- An entry of an indexed table: 0x10, 0x12 or 0x13. -/
  | entry (table idx : Nat)
  | bank (t : BitVec 7) (b : Bool) (word : BitVec 12)
  | onu (h : BitVec 16)
  | key (slot : Nat)
  | queue (h : BitVec 19)
  /-- A scheduler node, by its number. -/
  | node (n : Nat)
  | credit (t : BitVec 7) (c : Nat)
  /-- A link of a bank's free list, or of a pseudo-channel's. -/
  | cellLink (bank : BitVec 6)
  | pageLink (pc : BitVec 8)
  /-- A buffer pointer of a packet. -/
  | pointer (pkt : Nat)
  /-- A word of the structures of row 10. -/
  | vital
deriving DecidableEq, Repr

/-- An uncorrectable memory error: the unit that read the word, the SRAM row that holds it, and the word. -/
structure MemErr where
  unit : BitVec 5
  row : BitVec 24
  word : MemWord
deriving DecidableEq, Repr

/-- An operation of the test access port (R589): TRST_N or Test-Logic-Reset, a scan of the instruction register, or a scan
of the selected data register with the levels that the boundary cells capture. Bits go in first to last. -/
inductive TapOp where
  | trst
  | scanIr (bits : List Bool)
  | scanDr (bits pins : List Bool)
deriving DecidableEq, Repr
/-- The commands and events, in the order of the table. -/
inductive Instr where
  /-- NOP (R89). Command that does nothing and returns its TAG in RESULT. -/
  | nop (c : Cmd)
  /-- MODE_FLOW (R138). MODE with TARGET 2 takes the device from STILL or WEIR to FLOW at the end of its admission tick. -/
  | modeFlow (c : Cmd)
  /-- MODE_WEIR (R140). MODE with TARGET 3 takes the device from FLOW to WEIR, which freezes live configuration. -/
  | modeWeir (c : Cmd)
  /-- MODE_DRAIN (R142). MODE with TARGET 4 starts a drain, which refuses uplink ingress and empties the queues. -/
  | modeDrain (c : Cmd)
  /-- MODE_DRY (R149). MODE with TARGET 5 from queue 0 or the service processor takes the device to DRY. -/
  | modeDry (c : Cmd)
  /-- MODE_STILL (R127). MODE with TARGET 1 completes with DONE and no effect in STILL, and with REJECT_STATE in any other mode. -/
  | modeStill (c : Cmd)
  /-- WRITE (R93). Command that writes 1 to 63 consecutive register words in one tick after checking every address; it is the general row for registers without behaviour of their own. -/
  | write (c : Cmd)
  /-- READ (R94). Command that returns COUNT words as they stood at the start of one tick, in RESULT or to a host buffer. -/
  | read (c : Cmd) (io : HostIo)
  /-- MASK_WRITE (R95). Command that replaces the masked bits of one word in one tick and returns the old word. -/
  | maskWrite (c : Cmd)
  /-- FENCE (R96). Command that retires once the queue's host writes are visible, and optionally once the pipes or all earlier commands have drained. -/
  | fence (c : Cmd)
  /-- TBL_INSERT (R370). Command that inserts or replaces an entry in a keyed table by cuckoo relocation, or writes an indexed entry. -/
  | tblInsert (c : Cmd) (fixed : Nat)
  /-- TBL_DELETE (R377). Command that invalidates every copy of a keyed entry, or clears an indexed entry's valid bit. -/
  | tblDelete (c : Cmd)
  /-- TBL_SEARCH (R376). Command that finds an entry by exact key or by index and writes it to host memory. -/
  | tblSearch (c : Cmd) (io : HostIo)
  /-- TBL_NEXT (R374). Command that continues a table walk from a cursor, using a walk context and its late and duplicate records. -/
  | tblNext (c : Cmd) (fixed : Nat)
  /-- TBL_FLUSH_PORT (R103). Command that removes the MAC entries of a bridge port, 4 slots per tick, from a resume slot. -/
  | tblFlushPort (c : Cmd) (fixed : Nat)
  /-- RULE_STAGE (R105). Command that writes or invalidates an entry of the staging rule generation, with the valid word last. -/
  | ruleStage (x : StageIn)
  /-- GEN_SWAP (R106). Command that makes the staging generation active and the active generation retiring. -/
  | genSwap (c : Cmd)
  /-- GEN_SWAP_RETIRE (R363). Once the Oxbow holds no packet of the retiring copy, GEN_SWAP retires and the freed copy becomes staging. -/
  | genSwapRetire
  /-- SLUICE_LOAD (R107). Command that copies words into a tree's shadow bank and, with LAST, parses the bank for validity. -/
  | sluiceLoad (c : Cmd) (io : HostIo)
  /-- SLUICE_SWAP (R108). Command that requests that a valid shadow bank become active at the tree's next frame boundary. -/
  | sluiceSwap (c : Cmd)
  /-- SLUICE_SWAP_TAKES_EFFECT (R108). At the tree's next frame boundary the pending swap makes the shadow bank active and retires. -/
  | sluiceSwapTakesEffect (t : BitVec 7)
  /-- ADMIT (R251). ONU_OP that writes a free ONU table entry from eight entry words. -/
  | onuAdmit (c : Cmd)
  /-- UPDATE (R252). ONU_OP that makes a masked write of one word of an ONU entry. -/
  | onuUpdate (c : Cmd)
  /-- REMOVE (R256). ONU_OP that unbinds every allocation of the ONU and frees its entry, discarding its queued messages. -/
  | onuRemove (c : Cmd)
  /-- SET_OWNER (R61). ONU_OP that changes an ONU's owner tag and carries it to its line-unicast key slots. -/
  | setOwner (c : Cmd)
  /-- BIND_ALLOC (R255). ONU_OP that binds an allocation handle and Alloc-ID to the ONU and sets its bucket to 0. -/
  | bindAlloc (c : Cmd)
  /-- UNBIND_ALLOC (R255). ONU_OP that unbinds an allocation from the ONU and sets its bucket to 0. -/
  | unbindAlloc (c : Cmd)
  /-- SET_EQD (R253). ONU_OP that sets or invalidates the equalisation delay of one lane and recomputes SKEW. -/
  | setEqd (c : Cmd)
  /-- PLOAM_UNICAST (R110). MSG_SEND type 0, which queues one PLOAM message to an ONU on its PLOAM lane. -/
  | ploamUnicast (c : Cmd)
  /-- PLOAM_BROADCAST (R110). MSG_SEND type 1, which queues one copy of a PLOAM message on each selected lane in service. -/
  | ploamBroadcast (c : Cmd)
  /-- OMCI (R111). MSG_SEND type 2, which sends an OMCI message from host memory on the ONU's OMCI port. -/
  | omci (c : Cmd) (io : HostIo)
  /-- MSG_SEND_FRAMED (R112). A MSG_SEND retires once its message's last octet has been framed on every lane that carries a copy. -/
  | msgSendFramed (t : BitVec 7) (l : Bool)
  /-- KEY_LOCK (R113). Command that takes or releases the key-unit lock. -/
  | keyLock (c : Cmd)
  /-- LOAD (R449). KEY_OP that loads a 16-octet key from the host into a slot. -/
  | keyLoad (c : Cmd) (io : HostIo)
  /-- GEN (R449). KEY_OP that writes a random key into a slot. -/
  | keyGen (c : Cmd) (io : HostIo)
  /-- ERASE (R449). KEY_OP that zeroes a slot's key and clears its VALID bit. -/
  | keyErase (c : Cmd)
  /-- ECB_ENC (R449). KEY_OP that encrypts a host buffer in ECB mode under a general slot. -/
  | ecbEnc (c : Cmd) (io : HostIo)
  /-- ECB_DEC (R449). KEY_OP that decrypts a host buffer in ECB mode under a general slot. -/
  | ecbDec (c : Cmd) (io : HostIo)
  /-- ECB_DEC_SLOT (R449). KEY_OP that decrypts 16 host octets under a key-encryption key into a slot. -/
  | ecbDecSlot (c : Cmd) (io : HostIo)
  /-- CMAC_GEN (R449). KEY_OP that computes an AES-CMAC tag over a host buffer. -/
  | cmacGen (c : Cmd) (io : HostIo)
  /-- CMAC_VERIFY (R451). KEY_OP that checks a CMAC tag and completes with TAG_FAIL on a mismatch. -/
  | cmacVerify (c : Cmd) (io : HostIo)
  /-- WRAP (R449). KEY_OP that wraps a slot's key under a key-encryption key to host memory. -/
  | wrap (c : Cmd) (io : HostIo)
  /-- UNWRAP (R451). KEY_OP that unwraps 24 host octets into a slot, or fails with TAG_FAIL. -/
  | unwrap (c : Cmd) (io : HostIo)
  /-- SET_TX (R438). KEY_OP that schedules a switch of the transmit key index at a named superframe counter. -/
  | setTx (c : Cmd)
  /-- SET_TX_SWITCH (R438). At the target frame boundary the named slot gets TX 1 and its partner TX 0, and SET_TX retires. -/
  | setTxSwitch
  /-- SET_ATTR (R449). KEY_OP that sets the KIND and OWNER of a general key slot. -/
  | setAttr (c : Cmd)
  /-- CRC_SCAN (R524). Command that runs a check-value scan over host octets or device words. -/
  | crcScan (c : Cmd) (io : HostIo)
  /-- CTR_SNAP (R503). Command that copies a counter group as it stood at one tick, and clears it with CLEAR. -/
  | ctrSnap (c : Cmd) (io : HostIo)
  /-- COUNTER_DUMP_CFG (R516). DUMP_CFG KIND 0, which sets the counter-dump area and period. -/
  | counterDumpCfg (c : Cmd)
  /-- FATAL_DUMP_CFG (R550). DUMP_CFG KIND 1, which sets or removes the host fatal dump area. -/
  | fatalDumpCfg (c : Cmd)
  /-- EPOCH_BEGIN (R484). Command that opens a configuration epoch for staging. -/
  | epochBegin (c : Cmd)
  /-- EPOCH_COMMIT (R486). Command by which the master sets a commit time and sends a commit token. -/
  | epochCommit (c : Cmd)
  /-- RETIRE (R538). Command that takes a lane, tree, port, pseudo-channel, SRAM row or pipe out of service. -/
  | retire (c : Cmd)
  /-- PSEUDO_CHANNEL_MOVE_DONE (R420). A class-3 RETIRE retires once its pseudo-channel holds no page in use. -/
  | pseudoChannelMoveDone (pc : BitVec 8) (picks : List Nat)
  /-- RESTORE (R541). Command that returns a retired resource to service. -/
  | restore (c : Cmd)
  /-- PSEUDO_CHANNEL_REBUILD_DONE (R421). A class-3 RESTORE returns the pseudo-channel to service once its free list is rebuilt. -/
  | pseudoChannelRebuildDone (pc : BitVec 8)
  /-- THAW (R88). Command that releases a frozen queue, resuming it or discarding its available words. -/
  | thaw (c : Cmd)
  /-- DEFAULTS (R573). Command that returns the registers of one block to their effective defaults, 64 words per tick. -/
  | defaults (c : Cmd)
  /-- TIME_SET (R464). Command with AT_PPS 0, which sets network time at the end of its admission tick. -/
  | timeSet (c : Cmd)
  /-- TIME_SET_AT_PPS (R464). Command with AT_PPS 1, which waits for the next 1PPS input edge and sets network time at its stamp tick. -/
  | timeSetAtPps (c : Cmd)
  /-- TIME_SET_PPS_TIMEOUT (R464). A TIME_SET with AT_PPS that sees no edge within 2 s completes with ABORTED. -/
  | timeSetPpsTimeout
  /-- INJECT (R426). BUF_OP that injects a host frame or a held buffer on the punt path, with or without classification. -/
  | inject (c : Cmd) (io : HostIo) (picks : List Nat)
  /-- RETURN (R413). BUF_OP that releases the host's reference to a held buffer. -/
  | bufReturn (c : Cmd)
  /-- CMD_DOORBELL (R70). Host write of a new command-ring tail, which makes ring words available for fetch. -/
  | cmdDoorbell (fn : BitVec 6) (q : BitVec 6) (value : BitVec 64)
  /-- COMMAND_FETCH (R72). The host island fetches the available words by DMA, and a command becomes eligible once all its words are present. -/
  | commandFetch (q : BitVec 6) (slots : List (BitVec 64))
  /-- RING_CONTROL_WRITE (R68). Host write of a ring base or size, which resets an idle or disabled queue. -/
  | ringControlWrite (fn : BitVec 6) (q : BitVec 6) (off : BitVec 2) (value : BitVec 64)
  /-- HOST_BAR_WRITE_DISCARD (R31). Host BAR write to a word that is not host-writable, or of fewer than 8 octets; it has no effect and is counted. -/
  | hostBarWriteDiscard (fn : BitVec 6) (addr : BitVec 28) (value : BitVec 64) (short : Bool)
  /-- HOST_TRANSFER_RETRY (R80). A failed fetch, completion write or data transfer is retried after 10 µs against the queue's budget. -/
  | hostTransferRetry (q : BitVec 6) (kind : BitVec 2)
  /-- RING_WRITE_RETRY (R599). A failed write to a message, punt, timestamp or trace ring or to the dump area is retried after 10 µs against that ring's budget. -/
  | ringWriteRetry (ring : Nat)
  /-- VF_RESET (R82). A function-level reset of a VF stops and resets its queues and releases their key lock. -/
  | vfReset (v : BitVec 6)
  /-- REQ_GO (R55). Write of REQ_GO, which passes a mailbox request to the service processor. -/
  | reqGo (w : RegWrite)
  /-- HEALTH (R547). Mailbox request that returns the firmware version, uptime, watchdog and retry counts. -/
  | health
  /-- SENSOR (R547). Mailbox request that returns one sensor reading. -/
  | sensor
  /-- EYE (R547). Mailbox request that returns the eye height and width of one lane. -/
  | eye (height : Word) (width : Word)
  /-- DUMP_FETCH (R547). Mailbox request that copies the flash dump to the host dump area. -/
  | dumpFetch (hostFail : Bool)
  /-- DUMP_ERASE (R547). Mailbox request that erases the flash dump slot. -/
  | dumpErase
  /-- RETIRE_LOG (R547). Mailbox request that returns 15 entries of the retirement history. -/
  | retireLog
  /-- SOFT (R582). Write of GLB_RESET.SOFT, which starts a soft reset 10 µs after its completion record. -/
  | softReset (w : RegWrite)
  /-- PCIE_HOT_RESET (R582). A PCIe hot reset starts a soft reset at once. -/
  | pcieHotReset
  /-- PERST_N (R581). Assertion of PERST_N resets the host island, disables the queues and discards pending host records. -/
  | perstN
  /-- RESET_N (R578). A rising edge of RESET_N releases reset, samples the straps and starts SPRING with TIM_TICK 0. -/
  | resetN (straps : BitVec 5)
  /-- RAIL_BELOW_90_PERCENT (R579). A rail below 90 % of nominal acts as a power-on reset. -/
  | railBelow90Percent (rail : BitVec 4) (low : Bool)
  /-- RAIL_SAMPLE (R579). Every 10 µs the rails are sampled; two samples out of range take the device to DRY with cause 0x05. -/
  | railSample (mv : List (BitVec 16))
  /-- TEMPERATURE_SAMPLE (R592). Every 1 ms the sensors are sampled, raising THERM_WARN or a shutdown to DRY. -/
  | temperatureSample (mc : List (BitVec 24))
  /-- THERMTRIP (R593). A sensor at 125 °C drives THERMTRIP_N low until power is removed. -/
  | thermtrip (sensor : BitVec 5) (mc : BitVec 24)
  /-- SPRING_COMPLETE (R569). The SPRING sequence ends, and GLB_MODE becomes STILL. -/
  | springComplete (pcs : List Nat) (lanes : List Nat) (ports : List Nat) (writeFail : Bool)
  /-- CORE_PLL_LOCK_LOST (R26). The service processor detects the loss of core PLL lock and takes the device to DRY. -/
  | corePllLockLost
  /-- CORE_ISLAND_HANG (R548). TIM_TICK unchanged for 1 ms on the service processor's clock is fatal cause 0x07. -/
  | coreIslandHang
  /-- FATAL_ERROR (R548). A fatal cause takes the device to DRY at precedence level 2. -/
  | fatalError (cause : BitVec 8) (src : BitVec 16) (detail : BitVec 24)
  /-- FATAL_DUMP_COMPLETE (R551). The service processor finishes writing the fatal dump to the host area or to flash. -/
  | fatalDumpComplete (hostFail : Bool) (flashFail : Bool)
  /-- WATCHDOG_EXPIRY (R39). The 100 ms watchdog expires, which resets the service-processor island. -/
  | watchdogExpiry
  /-- SP_HELD (R40). A third watchdog expiry within 60 s holds the service processor in reset. -/
  | spHeld
  /-- HANDSHAKE_LOSS (R25). 64 ticks without a handshake from an island in service raise a lane or signal loss. -/
  | handshakeLoss (isl : Island)
  /-- LANE_LOSS (R528). A PON lane's signal loss begins or ends, which changes its service and raises an event. -/
  | laneLoss (t : BitVec 7) (l : Bool) (begins : Bool) (hs : Bool)
  /-- PORT_LOSS (R528). An uplink port's link or signal loss begins or ends. -/
  | portLoss (m : BitVec 8) (begins : Bool) (hs : Bool)
  /-- TREE_LOSS (R528). A tree transmit island's handshake loss begins or ends. -/
  | treeLoss (t : BitVec 7) (begins : Bool)
  /-- HBM_LOSS (R528). An HBM island's handshake loss begins or ends. -/
  | hbmLoss (stack : BitVec 3) (begins : Bool)
  /-- LANE_RETURN_TO_SERVICE (R159). A lane that has become usable again comes back into service at the first boundary 20,000 ticks later. -/
  | laneReturnToService (t : BitVec 7) (l : Bool)
  /-- TRANSIENT_FAULT (R536). A transient fault of a resource starts a retry within its class budget or escalates to retirement. -/
  | transientFault (cls : BitVec 4) (index : BitVec 24)
  /-- RETRY_END (R535). A retry of a resource ends and the resource returns to service. -/
  | retryEnd (cls : BitVec 4) (index : BitVec 24)
  /-- MEM_UNCORR (R544). An uncorrectable memory error is counted and logged and has the outcome of its structure. -/
  | memUncorr (e : MemErr)
  /-- ENABLE_SET (R179). Write of TRE_CTRL.ENABLE from 0 to 1, after which the tree sends from a boundary at least 20,000 ticks later. -/
  | enableSet (w : RegWrite)
  /-- ENABLE_CLEAR (R178). Write of TRE_CTRL.ENABLE from 1 to 0, which requests that the tree stop at its next boundary. -/
  | enableClear (w : RegWrite)
  /-- STOPPING_BOUNDARY (R178). At its stopping boundary the tree stops sending, asserts transmit disable and discards its queues and messages. -/
  | stoppingBoundary (t : BitVec 7)
  /-- TREE_FIRST_FRAME (R138). A tree sends its first frame and runs its first Sluice run at the first boundary 20,000 ticks after it was enabled. -/
  | treeFirstFrame (t : BitVec 7)
  /-- LINE_MODE (R185). Write that changes a tree's LINE_MODE or STD_LANE and invalidates the equalisation delays of its ONUs. -/
  | lineMode (w : RegWrite)
  /-- TXDIS_FORCE (R183). Write of TRE_PINCTL.TXDIS_FORCE, which forces transmit disable and takes the lane out of service. -/
  | txdisForce (w : RegWrite)
  /-- TRE_PONID (R181). Write of the PON-ID, which takes effect in the next frame on both lanes. -/
  | trePonid (w : RegWrite)
  /-- FPHASE (R473). Write of TRE_FTIME.FPHASE, which moves the grid of a tree not in service. -/
  | fphase (w : RegWrite)
  /-- FRAME_BOUNDARY (R198). At each frame boundary of a tree in service its Sluice engine starts a run and takes its snapshot. -/
  | frameBoundary (t : BitVec 7)
  /-- FRAME (R228). Sluice instruction at word 0 that sets both cursors to FIRST. -/
  | sluFrame (t : BitVec 7)
  /-- GRANT (R220). Sluice instruction that places a flowing grant sized from the allocation's bucket and profile. -/
  | grant (t : BitVec 7)
  /-- GRANTT (R221). Sluice instruction that places a fixed grant at a stated block. -/
  | grantt (t : BitVec 7)
  /-- QUIET (R223). Sluice instruction that places a quiet window, optionally with a serial-number grant. -/
  | quiet (t : BitVec 7)
  /-- RANGEW (R224). Sluice instruction that places a ranging window for one ONU entry. -/
  | rangew (t : BitVec 7)
  /-- ALIGN (R233). Sluice instruction that places a fixed grant at the first free phase instant of network time. -/
  | sluAlign (t : BitVec 7)
  /-- SKIPLT (R225). Sluice instruction that skips N words when the allocation's bucket is below BUCKET. -/
  | skiplt (t : BitVec 7)
  /-- SKIPGE (R225). Sluice instruction that skips N words when the allocation's bucket is at least BUCKET. -/
  | skipge (t : BitVec 7)
  /-- LOOP (R226). Sluice instruction that repeats its body COUNT times. -/
  | loopN (t : BitVec 7)
  /-- ENDLOOP (R226). Sluice instruction that returns to the start of the loop body while iterations remain. -/
  | endloop (t : BitVec 7)
  /-- JUMP (R227). Sluice instruction that continues at a target word. -/
  | sluJump (t : BitVec 7)
  /-- CREDIT (R230). Sluice instruction that sets a credit counter or adds to it, with saturation. -/
  | sluCredit (t : BitVec 7)
  /-- SKIPCR (R225). Sluice instruction that skips on a comparison of a credit counter with THRESH. -/
  | skipcr (t : BitVec 7)
  /-- MARK (R232). Sluice instruction that writes a trace point and may tag the next grant's burst. -/
  | sluMark (t : BitVec 7)
  /-- LANE (R229). Sluice instruction that selects the current lane and may move or synchronise cursors. -/
  | laneSel (t : BitVec 7)
  /-- PAD (R229). Sluice instruction that advances the current lane's cursor by N blocks. -/
  | sluPad (t : BitVec 7)
  /-- END (R228). Sluice instruction that ends the run. -/
  | endRun (t : BitVec 7)
  /-- OVERRUN (R240). A run reaches its step budget without END, which stops it and counts an overrun. -/
  | overrun (t : BitVec 7)
  /-- REVERTED (R241). Three consecutive overruns or a bank word error invalidate the active bank, which reverts to the other bank or halts. -/
  | reverted (t : BitVec 7)
  /-- REPORT_RECEIVED (R204). A correctly decoded report is stamped and converted to the allocation's bucket. -/
  | reportReceived (t : BitVec 7) (l : Bool) (alloc occ : Nat)
  /-- BURST_ACCEPTED (R288). A delimiter candidate with a checking header is accepted, and the burst's Δ is measured. -/
  | burstAccepted (t : BitVec 7) (l : Bool) (pos : Nat) (symbols : List (BitVec 2)) (h : BitVec 64 × BitVec 64)
  /-- BURST_LOST (R298). A written burst is lost for lack of a delimiter, a header, matching fields or FIFO room. -/
  | burstLost (t : BitVec 7) (l : Bool) (fifo : Bool) (first : Nat)
  /-- BURSTS_LOST (R299). LOSS_N consecutive lost bursts of one entry on one lane raise a NOTICE. -/
  | burstsLost (h : BitVec 16) (l : Bool)
  /-- CODEWORD_DECODED (R293). A report block, PLOAM codeword or data codeword leaves the decoder, corrected or uncorrectable. -/
  | codewordDecoded (t : BitVec 7) (l : Bool) (kind : BitVec 2) (pos : Nat) (rx : List Byte) (bad : Bool) (fixed : List Nat)
  /-- XGEM_RELEASE (R296). Delineation releases an XGEM frame once its successor header checks, and the frame is decrypted and forwarded. -/
  | xgemRelease (t : BitVec 7) (l : Bool) (port : Nat) (sduLen : BitVec 14)
  /-- PLOAM_RECEIVED (R267). A PLOAM message from a used entry is written to the tree's message ring. -/
  | ploamReceived (t : BitVec 7) (l : Bool) (onu : Nat) (msg : List Byte)
  /-- SERIAL_NUMBER_RESPONSE (R261). An accepted serial-number response writes a KIND 1 record with its measured delay. -/
  | serialNumberResponse (t : BitVec 7) (l : Bool) (pos : Nat) (msg : List Byte)
  /-- RANGING_RESULT (R268). A ranging window ends with a KIND 2 record, with a measurement or MISS, or is counted stale. -/
  | rangingResult (t : BitVec 7) (l : Bool) (msg : Option (List Byte))
  /-- SDU_TIMEOUT (R300). An upstream SDU gets no next fragment within 250 µs and ends bad. -/
  | sduTimeout (t : BitVec 7)
  /-- DESKEW_ENTRY (R306). A braided upstream frame enters the deskew buffer, or is discarded as late or taken as a new base. -/
  | deskewEntry (t : BitVec 7) (l : Bool)
  /-- DESKEW_HOLD_EXPIRY (R305). A held frame's hold expires, which releases the frames of its sequence in BSEQ order and skips gaps. -/
  | deskewHoldExpiry (t : BitVec 7)
  /-- UPLINK_FRAME_RECEIVED (R191). An uplink MAC receives a frame and filters it or passes it to classification. -/
  | uplinkFrameReceived (m : BitVec 8) (f : UplFrame)
  /-- PIPE_DECISION (R342). A packet head enters a lookup pipe and receives its 15-cycle classification and forwarding decision. -/
  | pipeDecision (pipe : BitVec 5) (x : LookupIn)
  /-- OXBOW_REENTRY (R358). A packet re-enters a pipe 20 ns after its first decision, after its OXOP, for a second decision. -/
  | oxbowReentry (pipe : BitVec 5) (x : LookupIn)
  /-- CELL_ALLOCATION (R408). A later cell of a packet is requested from its partition once its octets are present. -/
  | cellAllocation (pkt : Nat) (pick : Nat)
  /-- FREE_LIST_REBUILD (R411). A bank's free list, rebuilt after a bad link, becomes usable again. -/
  | freeListRebuild (bank : BitVec 6)
  /-- CONFLUENCE_SLOT (R394). In each slot every input sends a cell to the middle it meets, and every middle to the output it meets. -/
  | confluenceSlot
  /-- RESEQUENCER_TIMEOUT (R399). A spread cell held 128 slots makes the resequencer skip the missing sequence numbers. -/
  | resequencerTimeout (o : BitVec 6)
  /-- REPLICATION (R401). The input replicator walks a flood list and makes one core-port copy per output. -/
  | replication (picks : List Nat)
  /-- ENQUEUE (R316). A packet's first cell leaves Confluence and the packet is checked into its downstream queue or dropped. -/
  | enqueue (pkt : Nat) (picks : List Nat)
  /-- EGRESS_ENQUEUE (R332). A packet enters an uplink egress queue when its cell count allows. -/
  | egressEnqueue (pkt : Nat)
  /-- PACKET_BAD (R403). A packet becomes bad after its first cell was allocated and is discarded or poisoned on egress. -/
  | packetBad (pkt : Nat) (cut : Bool)
  /-- PAGE_WRITE (R417). A full open page is written to HBM and its cells are freed. -/
  | pageWrite (p : BitVec 26)
  /-- PAGE_FLUSH (R417). An open page idle for FLUSH_NS is written partly filled. -/
  | pageFlush (h : BitVec 19)
  /-- PAGE_READ_BACK (R319). Pages of a spilled queue's oldest packets are read back on-die. -/
  | pageReadBack (x : PagesIn)
  /-- LANE_REQUEST (R326). A lane asks for an SDU, and the hierarchy chooses and debits a queue. -/
  | laneRequest (t : BitVec 7) (l : Bool)
  /-- CALENDAR_ELIGIBLE (R328). A node's calendar-wheel slot arrives and its bucket becomes available again. -/
  | calendarEligible (node : Nat) (excess : Bool)
  /-- MAC_FRAME_START (R333). An uplink MAC selects its next frame from the egress queues whose gates are open. -/
  | macFrameStart (m : BitVec 8)
  /-- GATE_ENTRY (R335). A gate-list entry starts at its network time and changes the gate states. -/
  | gateEntry (m : BitVec 8)
  /-- CHANGE (R335). Write of CHANGE = 1, which computes the change time CCT and sets PENDING. -/
  | gateChange (w : RegWrite)
  /-- GATE_LIST_CHANGE_TIME (R335). At CCT the admin list comes into force from the other bank and PENDING clears. -/
  | gateListChangeTime (m : BitVec 8)
  /-- LAG_MEMBER_DOWN (R195). A LAG member leaves the up state, and its held egress packets are discarded. -/
  | lagMemberDown (m : BitVec 8)
  /-- PUNT_RECORD_WRITE (R424). A punted packet that the punt shaper has released is written to the punt ring. -/
  | puntRecordWrite
  /-- LEARN_ENGINE_STEP (R384). The learn engine takes a queued request and moves, inserts or refreshes the MAC entry. -/
  | learnEngineStep
  /-- AGING_VISIT (R387). The aging scanner visits a MAC slot and clears HIT, advances AGE or removes the entry. -/
  | agingVisit
  /-- SCRUB_STEP (R379). A queued slot is rewritten as zeros and LEARNED is corrected. -/
  | scrubStep (t : BitVec 2)
  /-- PATROL_SCRUB_VISIT (R379). The patrol scrubber visits a keyed-table slot and scrubs or rewrites it. -/
  | patrolScrubVisit (t : BitVec 2) (x : SlotIn)
  /-- WALK_CONTEXT_RELEASE (R101). An unused walk context is released after CMD_WALK.IDLE_S seconds. -/
  | walkContextRelease (x : BitVec 3)
  /-- LEASE_EXP (R448). The key-unit lease runs out and the lock is released. -/
  | leaseExp
  /-- XTS_KEY_DRAW (R444). Once a tenant's other epoch holds no page, the device draws its new XTS key and sets READY. -/
  | xtsKeyDraw (t : BitVec 6)
  /-- REKEY (R445). Write of KEY_XTS.REKEY, which switches the tenant's XTS epoch when READY. -/
  | rekey (w : RegWrite)
  /-- PPS_IN_EDGE (R467). A 1PPS input edge is stamped and recorded. -/
  | ppsInEdge
  /-- PPS_OUT_EDGE (R466). PPS_OUT rises at each whole second plus offset for PPSOUT_W ns. -/
  | ppsOutEdge
  /-- BANDWIDTH_WINDOW_END (R513). At the end of each window every bandwidth point updates LAST, MIN, MAX and WINDOWS. -/
  | bandwidthWindowEnd
  /-- BANDWIDTH_RESET (R514). Write of MON_BW_CTL.RESET, which resets every bandwidth point. -/
  | bandwidthReset (w : RegWrite)
  /-- RUN (R508). Write of MON_CTL.RUN, which starts or stops the programmable counters in each island. -/
  | monRun (w : RegWrite)
  /-- SEED (R520). Write of MON_TAG.SEED, which loads every pipe's tagging LFSR. -/
  | tagSeed (w : RegWrite)
  /-- COUNTER_DUMP_START (R516). The dump period elapses and a counter dump starts, or is skipped when the last one is still running. -/
  | counterDumpStart
  /-- COUNTER_DUMP_END (R517). A counter dump writes its trailer and is signalled on vector 10. -/
  | counterDumpEnd
  /-- TRACE_END (R522). A traced item ends and its trace record is written to the trace ring. -/
  | traceEnd (slot : BitVec 6)
  /-- TRACE_TIMEOUT (R522). A traced item not ended 1 s after its base tick ends with TIMEOUT. -/
  | traceTimeout (slot : BitVec 6)
  /-- EVENT_RECORD_WRITE (R531). The event writer writes the next record to the event ring when it has room. -/
  | eventRecordWrite
  /-- GAP (R531). Once staging falls below RESUME, a GAP record reports the dropped records. -/
  | evtGap
  /-- EVENT_WRITE_RETRY (R531). A failed event record write is retried every 10 µs without a budget. -/
  | eventWriteRetry
  /-- ALARM_LEVEL_CLEAR (R529). Command write of 1 to a latched alarm level bit, which clears it and queues a record. -/
  | alarmLevelClear (w : RegWrite)
  /-- RING_RESET (R270). Write of a ring base or size of a device ring, which resets its indices and discards waiting records. -/
  | ringReset (w : RegWrite)
  /-- DRAIN_COMPLETE (R146). The drain completes when every pending bit is 0, and the trees then stop sending. -/
  | drainComplete
  /-- DRAIN_LIMIT (R147). The drain limit expires, which discards every packet still held and ends the drain. -/
  | drainLimit
  /-- ENTER_STILL (R146). The last tree in service reaches its boundary after the drain, and the device enters STILL. -/
  | enterStill
  /-- MASTER_TOKEN_SEND (R482). The master sends a token every PERIOD_US. -/
  | masterTokenSend
  /-- TOKEN_RECEIVED (R482). A member receives a token, acts on its first copy and forwards or turns it back. -/
  | tokenReceived (m : BitVec 8) (ws : List Word)
  /-- COMMIT_TOKEN_RECEIVED (R487). A member receives the first copy of a commit token and accepts or refuses the commit. -/
  | commitTokenReceived (m : BitVec 8) (ws : List Word)
  /-- TOKEN_COMPLETE (R483). Every copy of a token has returned, which records the round trip and topology. -/
  | tokenComplete
  /-- TOKEN_LATE (R483). A token copy not back within RTT_LIMIT_US is counted and raises a NOTICE. -/
  | tokenLate
  /-- TOKEN_LOST (R483). A member with no token for PERIOD_US plus RTT_LIMIT_US sets TOKEN_LOST. -/
  | tokenLost
  /-- COMMIT (R489). In the commit tick the staged entries apply, generations swap and marked banks swap. -/
  | ringCommit
  /-- RECOMPUTE (R490). Write of RECOMPUTE, which starts a digest computation. -/
  | recompute (w : RegWrite)
  /-- DIGEST_COMPLETE (R490). The configuration digest is written with its epoch and DIGEST_BUSY clears. -/
  | digestComplete
  /-- COMMITTED (R493). Write of OHM COMMITTED while DIVERGENT, which resynchronises the epoch number. -/
  | committed (w : RegWrite)
  /-- SFC_RECORD_SEND (R495). The active member sends an SFC mirror record every PERIOD_US. -/
  | sfcRecordSend (t : BitVec 7)
  /-- MIRROR_CHANGE_SEND (R495). The active member sends an ENTRY, KEYS or BIND record within 10 µs of a change. -/
  | mirrorChangeSend (t : BitVec 7)
  /-- MIRROR_REFRESH (R495). Every REFRESH_MS the active member sends every entry, key pair and binding again. -/
  | mirrorRefresh (t : BitVec 7)
  /-- MIRROR_FRAME_RECEIVED (R496). A member applies or forwards a mirror frame's records. -/
  | mirrorFrameReceived (m : BitVec 8) (ws : List Word)
  /-- SWITCH (R498). Write of SWITCH, which sends HANDOVER to the active member. -/
  | ringSwitch (w : RegWrite)
  /-- HANDOVER (R498). The active member receives HANDOVER, stops the tree and sends RELEASED. -/
  | handover (m : BitVec 8) (ws : List Word)
  /-- TAKEOVER (R499). On RELEASED, LOSS or silence the standby tree becomes active with continued frame timing. -/
  | takeover (m : BitVec 8) (ws : List Word)
  /-- SILENCE_TIMEOUT (R498). No SFC record for SILENCE_MS triggers a takeover with AUTO. -/
  | silenceTimeout (t : BitVec 7)
  /-- HANDOVER_TIMEOUT (R498). No RELEASED within twice RTT_LIMIT_US raises a NOTICE, and the standby keeps its role. -/
  | handoverTimeout (t : BitVec 7)
  /-- IMG_ERASE (R571). IMG_OP ERASE, which erases flash sectors of the slot that did not boot. -/
  | imgErase (w : RegWrite)
  /-- PROGRAM (R571). IMG_OP that copies host octets into erased flash. -/
  | imgProgram (w : RegWrite)
  /-- CHECK (R571). IMG_OP that checks a slot without applying it. -/
  | imgCheck (w : RegWrite)
  /-- SET_BOOT (R571). IMG_OP that writes a boot record naming a slot, optionally on trial. -/
  | setBoot (w : RegWrite)
  /-- CONFIRM (R571). IMG_OP that confirms the booted slot with TRIAL 0. -/
  | confirm (w : RegWrite)
  /-- ROLLBACK (R571). IMG_OP that raises the rollback floors in OTP. -/
  | rollback (w : RegWrite)
  /-- KEY_PROGRAM (R571). IMG_OP that programs IMG_KEY once into OTP. -/
  | keyProgram (w : RegWrite)
  /-- IMG_OP_DONE (R571). A flash operation ends, which sets DONE and RESULT and raises a NOTICE. -/
  | imgOpDone (octets : List Byte) (hostFail : Bool) (flashFail : Bool) (done : Nat)
  /-- CMD_CPL_HEAD (R78). Host BAR write of CMD_CPL_HEAD, which frees completion-ring space so that a command waiting on a full ring can retire and its queue can admit again. -/
  | cmdCplHead (fn : BitVec 6) (q : BitVec 6) (value : BitVec 64)
  /-- DEVICE_RESET_PIN (R578). Falling edge of RESET_N in operation, which puts the device into reset, abandons flash operations and dumps, and clears GLB_DUMP. -/
  | deviceResetPin
  /-- PERST_N_RELEASE (R581). Release of PERST_N, which lets the host island leave reset and retrain the link. -/
  | perstNRelease (msix : Bool)
  /-- SPARE_ROW_COPY_DONE (R538). The copy of a retired SRAM row to its spare, or back on RESTORE, completes; the spare or the row then serves reads and the class-4 command retires. -/
  | spareRowCopyDone (row : BitVec 24)
  /-- HOLDOFF_US (R532). HOLDOFF_US passes since the oldest unsignalled visible class 1 to 3 event record, and PF vector 9 is sent. -/
  | holdoffUs
  /-- BURST_RESET_PULSE (R283). At the expected arrival of a written burst or window, PBRST (and where requested PRSSI) is pulsed at the map-derived time, advanced by PIN_ADV. -/
  | burstResetPulse (t : BitVec 7) (l : Bool)
  /-- TEST_ACCESS_PORT (R589). An IEEE 1149.1 TAP operation clocked on TCK shifts an instruction or data, taking control of pins while RESET_N is low. -/
  | testAccessPort (op : TapOp)
deriving DecidableEq, Repr

end Sys2Proof
end

