-- ==== Sys2Proof/Decode.lean ====
section
/-! DEFINITION. The rows of the table have no bits, so no word spells a row. -/

namespace Sys2Proof

/-- The row that the table's bits of a word spell: none, since no row of the table gives bits. -/
def decodeTableWord (_nbits _w : Nat) : Option Instr := none

end Sys2Proof
end

