-- ==== Sys2Proof/Config.lean ====
section
/-! DEFINITION. What the device leaves open: the free values. None has a body that a proof could look into. -/

namespace Sys2Proof.Config

/-- The key that the key unit's random source gives at its n-th draw (R449 GEN); nothing is stated of it. -/
opaque freeKey : Nat → BitVec 128

/-- The pair of AES-256 keys that the random source gives at its n-th draw for the HBM engines (R442). -/
opaque xtsKey : Nat → BitVec 512

/-- The n-th 48-bit value that the spec leaves open. -/
opaque freeWord : Nat → BitVec 48

/-- The message integrity check of a PLOAM message under a key: G.9804.3 defines it, and the spec does not repeat it. -/
opaque ploamMic : BitVec 128 → List (BitVec 8) → BitVec 64

/-- The initial counter block of an XGEM frame on a G.9804.2 lane, by direction (0 down, 1 up), tree, superframe counter
and position: G.9804.2 defines it. -/
opaque gponCounter : Nat → Nat → Nat → Nat → BitVec 128

/-- Where the first XGEM frame of a G.9804.2 FS frame stands, in 4-octet units, by map entries and PLOAM messages:
G.9804.2 defines the header in front of it. -/
opaque gponHeader : Nat → Nat → BitVec 14

/-- The 13-bit header error control of bits 63:13 of a structure: G.9804.2 defines it. -/
opaque hec : BitVec 51 → BitVec 13

/-- The parity octets of a codeword of the LDPC mother code, by its information octets, shortened or not: G.9804.2 defines
it. -/
opaque ldpcParity : List (BitVec 8) → BitVec 2688

/-- START and SIZE of a map in the time unit of G.9804.2, from blocks of 2.572 ns, and the allocation structure that
carries Alloc-ID, DBRU, PLOAMU, START, SIZE and FWI. -/
opaque gponStart : Nat → Nat
opaque gponSize : Nat → Nat
opaque gponAlloc : Nat → Bool → Bool → Nat → Nat → Bool → BitVec 64

/-- What stands in front of the first XGEM frame of a G.9804.2 FS frame, by allocation structures and PLOAM messages. -/
opaque gponHead : List (BitVec 64) → List (List (BitVec 8)) → List (BitVec 8)

/-- The octets of a G.9804.2 lane frame on the line, by superframe counter, PON-ID and FS octets: PSBd, LDPC code and
scrambler. -/
opaque gponLine : Nat → Nat → List (BitVec 8) → List (BitVec 8)

/-- The ONU-ID of a received G.9804.2 FS burst header, or none where its HEC does not check. -/
opaque gponOnuId : BitVec 64 → Option (BitVec 10)

/-- The next codeword of a G.9804.2 data area at code rate index `f` of which `n` octets are left: its octets on the line,
and those among them that are information. -/
opaque gponCodeword : Nat → Nat → Nat × Nat

/-- The octets of a G.9804.2 burst descrambled, by superframe counter, ONU-ID, their offset in the burst and themselves. -/
opaque gponDescramble : Nat → Nat → Nat → List (BitVec 8) → List (BitVec 8)

/-- The buffer occupancy in octets that a decoded G.9804.2 report gives, or none where it does not check. -/
opaque gponReport : List (BitVec 8) → Option Nat

/-- An upstream PLOAM message has the message type of Serial_Number_ONU: G.9804.3 gives the code. -/
opaque isSerial : List (BitVec 8) → Bool

/-- By how much a crossing between two islands lies above its lower bound, in tenths of a nanosecond, by its kind and the
tick; it is taken modulo the width of its range. -/
opaque crossing : Nat → Nat → Nat

/-- The phase of the clock of instance `i` of unit `u` against the ticks, for islands whose clock is not the core's. -/
opaque islandPhase : Nat → Nat → Nat

/-- The lag of the tick shadow of instance `i` of unit `u`, taken modulo 3 (R18). -/
opaque shadowLag : Nat → Nat → Nat

/-- How long a reset of the service processor's island lasts, in ticks, by the number of the free value (R39). -/
opaque spReset : Nat → Nat

/-- The octets by which a field whose width is no whole number of octets enters the hash of R356, by width and value. -/
opaque hashOctets : Nat → Nat → List Nat

/-- What the host has filled into 8-octet slot `w` of the MSI-X table of a function: no command or event reads it. -/
opaque msixTable : Nat → Nat → BitVec 64

/-- FW_KEY, the fuses that Caercor programs at manufacture (R558). -/
opaque fwKey : BitVec 128

/-- The structure of Table 17.5 whose words lie in an SRAM bank. -/
opaque bankStructure : Nat → Nat

/-- The RS(544,514) codewords received with errors at a MAC since the one before, by the number of the free value: for each,
the symbol errors on each lane of the MAC. -/
opaque fecErrors : Nat → List (List Nat)

/-- The blocks with errors that the decoder of the line code found in the same time. -/
opaque pcsErrors : Nat → Nat

/-- The page that a freed page names as the next on its free list, by the number of the free value: the order of a free list is
open (R415). -/
opaque nextFree : Nat → BitVec 26

/-- How many words read in a keyed table had a single-bit error, by the number of the free value (R378). -/
opaque fixedWords : Nat → Nat

/-- The version of the ROM firmware (R36). -/
opaque romVersion : BitVec 32

end Sys2Proof.Config
end

