-- ==== Sys2Proof/Machine/Bits.lean ====
section
/-! DEFINITION. Fields of words, two's complement, octets and word slots. -/

namespace Sys2Proof.Machine

/-- Bits `hi` down to `lo` of a number. -/
def bitsOf (n hi lo : Nat) : Nat := n / 2 ^ lo % 2 ^ (hi + 1 - lo)

/-- Field [hi:lo] of a word (R11). -/
def fld (w : Word) (hi lo : Nat) : Nat := bitsOf w.toNat hi lo

/-- Bit `i` of a word. -/
def bitOf (w : Word) (i : Nat) : Bool := w.getLsbD i

/-- 1 for true. -/
def b2n (b : Bool) : Nat := if b then 1 else 0

/-- The word whose fields are given as (lowest bit, value); the fields do not overlap. -/
def mkWord : List (Nat × Nat) → Word
  | [] => 0
  | (lo, v) :: fs => BitVec.ofNat 48 (v * 2 ^ lo) ||| mkWord fs

/-- `2^(hi+1) - 2^lo` as a mask. -/
def maskOf (hi lo : Nat) : Word := BitVec.ofNat 48 (2 ^ (hi + 1) - 2 ^ lo)

/-- The bits of `v` where `m` is 1, else those of `w` (R95). -/
def merge (w m v : Word) : Word := (w &&& ~~~m) ||| (v &&& m)

/-- `w` with field [hi:lo] replaced. -/
def setFld (w : Word) (hi lo v : Nat) : Word :=
  merge w (maskOf hi lo) (BitVec.ofNat 48 (v % 2 ^ (hi + 1 - lo) * 2 ^ lo))

/-- A `bits`-bit number read as two's complement. -/
def signed (bits n : Nat) : Int := if n < 2 ^ (bits - 1) then (n : Int) else (n : Int) - (2 ^ bits : Nat)

/-- An integer as a `bits`-bit two's complement number. -/
def unsigned (bits : Nat) (z : Int) : Nat := (z % ((2 ^ bits : Nat) : Int)).toNat

/-- `z` held within `bits` bits of two's complement. -/
def saturate (bits : Nat) (z : Int) : Int :=
  let lim : Int := ((2 ^ (bits - 1) : Nat) : Int)
  if z < -lim then -lim else if z ≥ lim then lim - 1 else z

/-- The quotient rounded up. -/
def ceilDiv (a b : Nat) : Nat := (a + b - 1) / b

/-- The integer quotient rounded to nearest, halves towards plus infinity. -/
def roundDiv (a : Int) (b : Nat) : Int := (2 * a + b).fdiv (2 * b)

/-- The `n` octets of a number, most significant first. -/
def octetsBE : Nat → Nat → List Byte
  | 0, _ => []
  | n + 1, v => BitVec.ofNat 8 (v / 2 ^ (8 * n)) :: octetsBE n v

/-- The number that octets spell, most significant first. -/
def beNat (bs : List Byte) : Nat := bs.foldl (fun a b => a * 256 + b.toNat) 0

/-- The number that octets spell, least significant first (R12). -/
def leNat (bs : List Byte) : Nat := bs.foldr (fun b a => b.toNat + 256 * a) 0

/-- The 8-octet slot of a word: bits 63:48 are zero (R12). -/
def slotOf (w : Word) : BitVec 64 := w.setWidth 64

/-- The word in a slot; the device ignores bits 63:48 (R44, R67). -/
def wordOf (v : BitVec 64) : Word := v.setWidth 48

/-- The octets of a slot in ascending addresses, bits 7:0 first (R12). -/
def slotOctets (v : BitVec 64) : List Byte := (List.range 8).map (fun i => v.extractLsb' (8 * i) 8)

/-- The 6 octets of a word from bits 47:40 downward (R115). -/
def wordOctets (w : Word) : List Byte := octetsBE 6 w.toNat

/-- The octets of words, 6 each. -/
def wordsOctets (ws : List Word) : List Byte := ws.flatMap wordOctets

/-- The 6-octet words of an octet string, the first octet in bits 47:40; a short last word is filled with zeros. -/
def octetsWords : Nat → List Byte → List Word
  | 0, _ => []
  | n + 1, bs => toWord (beNat ((bs ++ List.replicate 6 0).take 6)) :: octetsWords n (bs.drop 6)

/-- The first `n` of a list, filled up with `d`. -/
def takePad {α : Type} (n : Nat) (d : α) (l : List α) : List α := (l ++ List.replicate n d).take n

/-- Element `i`, or `d`. -/
def nth {α : Type} (l : List α) (i : Nat) (d : α) : α := l.getD i d

/-- `l` with element `i` changed by `f`; no change where `l` is too short. -/
def updAt {α : Type} : List α → Nat → (α → α) → List α
  | [], _, _ => []
  | a :: l, 0, f => f a :: l
  | a :: l, n + 1, f => a :: updAt l n f

/-- The first index of `l` (from `i`) at which `p` holds. -/
def findIdxFrom {α : Type} (p : α → Bool) : List α → Nat → Option Nat
  | [], _ => none
  | a :: l, i => if p a then some i else findIdxFrom p l (i + 1)

/-- Put a number into a rising list; one that is there already is not repeated. -/
def insertNat (n : Nat) : List Nat → List Nat
  | [] => [n]
  | a :: l => if n < a then n :: a :: l else if n = a then a :: l else a :: insertNat n l

/-- The numbers of a list, rising and without repeats. -/
def sortNat : List Nat → List Nat
  | [] => []
  | a :: l => insertNat a (sortNat l)

/-- The lowest bit set below `n`. -/
def lowBit (v : Nat) : Nat → Nat → Option Nat
  | 0, _ => none
  | k + 1, i => if v.testBit i then some i else lowBit v k (i + 1)

/-- How many of the low `n` bits are 1. -/
def popCount : Nat → Nat → Nat
  | 0, _ => 0
  | n + 1, v => v % 2 + popCount n (v / 2)

end Sys2Proof.Machine
end

