-- ==== Sys2Proof/Machine/Sparse.lean ====
section
/-! DEFINITION. Reading and writing sparse storage: `d k` is what an unlisted key `k` reads as. -/

namespace Sys2Proof.Machine

variable {α : Type}

/-- The entry listed under `k`, if any. -/
def smFind : SMap α → Nat → Option α
  | [], _ => none
  | (a, v) :: m, k => if a = k then some v else smFind m k

/-- What `k` reads as. -/
def smGet (d : Nat → α) (m : SMap α) (k : Nat) : α := (smFind m k).getD (d k)

/-- `m` without any entry for `k`. -/
def smErase : SMap α → Nat → SMap α
  | [], _ => []
  | (a, v) :: m, k => if a = k then smErase m k else (a, v) :: smErase m k

/-- Put an entry for `k` before the first larger key. -/
def smPut : SMap α → Nat → α → SMap α
  | [], k, v => [(k, v)]
  | (a, w) :: m, k, v => if k < a then (k, v) :: (a, w) :: m else (a, w) :: smPut m k v

/-- Write `v` at `k`; a value equal to what an unlisted `k` reads as leaves no entry. -/
def smSet [DecidableEq α] (d : Nat → α) (m : SMap α) (k : Nat) (v : α) : SMap α :=
  if v = d k then smErase m k else smPut (smErase m k) k v

/-- Write the values of `vs` at `k`, `k + 1` and so on. -/
def smSetList [DecidableEq α] (d : Nat → α) : SMap α → Nat → List α → SMap α
  | m, _, [] => m
  | m, k, v :: vs => smSetList d (smSet d m k v) (k + 1) vs

/-- Keys strictly rising above `lo`, and no entry equal to what its key reads as unlisted. -/
def smWfFrom [DecidableEq α] (d : Nat → α) : Nat → SMap α → Bool
  | _, [] => true
  | lo, (a, v) :: m => decide (lo ≤ a) && decide (v ≠ d a) && smWfFrom d (a + 1) m

/-- The canonical form of sparse storage. -/
def smWf [DecidableEq α] (d : Nat → α) (m : SMap α) : Bool := smWfFrom d 0 m

end Sys2Proof.Machine
end

