-- ==== Sys2Proof/Machine/RegMap.lean ====
section
/-! DEFINITION. The register map: every assigned word with its fields, access codes and factory defaults, as the
register tables of the spec give them (R48 to R51, R556). -/

namespace Sys2Proof.Machine

/-- Access codes (Table 2.5). -/
inductive Access where
  | rw | ro | wo | w1c | rws
deriving DecidableEq, Repr

/-- A field of a register word. -/
structure Field where
  hi : Nat
  lo : Nat
  acc : Access
  dflt : Nat
deriving DecidableEq, Repr

/-- A family of register words: base + i * s1 + j * s2 for i < n1 and j < n2. -/
structure RegRow where
  base : Nat
  n1 : Nat
  s1 : Nat
  n2 : Nat
  s2 : Nat
  fields : List Field
deriving DecidableEq, Repr

/-- The row assigns word `a`. -/
def RegRow.covers (r : RegRow) (a : Nat) : Bool :=
  Nat.ble r.base a &&
    let d := a - r.base
    Nat.blt (d / r.s1) r.n1 && Nat.beq (d % r.s1 % r.s2) 0 && Nat.blt (d % r.s1 / r.s2) r.n2

/-- Rows 0 of the GLB words. -/
def regRowsGlb0 : List RegRow := [
  -- GLB_ID (02 R54)
  ⟨0x0, 1, 0x4000000, 1, 1, [⟨47, 32, .ro, 0xCAEC⟩, ⟨31, 16, .ro, 0x7128⟩, ⟨15, 8, .ro, 0xB1⟩, ⟨7, 0, .ro, 0x1⟩]⟩,
  -- GLB_RESET (19 R582)
  ⟨0x10, 1, 0x4000000, 1, 1, [⟨0, 0, .wo, 0x0⟩]⟩,
  -- GLB_STRAP (19 R580)
  ⟨0x11, 1, 0x4000000, 1, 1, [⟨4, 4, .ro, 0x0⟩, ⟨3, 3, .ro, 0x0⟩, ⟨2, 2, .ro, 0x0⟩, ⟨1, 1, .ro, 0x0⟩, ⟨0, 0, .ro, 0x0⟩]⟩,
  -- GLB_GPIO (19 R582 (Table 19.3))
  ⟨0x12, 1, 0x4000000, 1, 1, [⟨31, 24, .rw, 0x0⟩, ⟨23, 16, .rw, 0x0⟩, ⟨15, 0, .ro, 0x0⟩]⟩,
  -- GLB_MODE (04 R134)
  ⟨0x20, 1, 0x4000000, 1, 1, [⟨7, 7, .ro, 0x0⟩, ⟨5, 3, .ro, 0x0⟩, ⟨2, 0, .ro, 0x0⟩]⟩,
  -- GLB_MODE_TICK (04 R134)
  ⟨0x21, 1, 0x4000000, 1, 1, [⟨47, 0, .ro, 0x0⟩]⟩,
  -- GLB_DRAIN (04 R134)
  ⟨0x22, 1, 0x4000000, 1, 1, [⟨31, 16, .rw, 0x3E8⟩, ⟨7, 0, .rw, 0x10⟩]⟩,
  -- GLB_DRAIN_STATUS (04 R134)
  ⟨0x23, 1, 0x4000000, 1, 1, [⟨5, 5, .ro, 0x0⟩, ⟨4, 4, .ro, 0x0⟩, ⟨3, 3, .ro, 0x0⟩, ⟨2, 2, .ro, 0x0⟩, ⟨1, 1, .ro, 0x0⟩, ⟨0, 0, .ro, 0x0⟩]⟩,
  -- GLB_DRAIN_DISCARD (04 R134)
  ⟨0x24, 1, 0x4000000, 1, 1, [⟨47, 0, .rw, 0x0⟩]⟩,
  -- GLB_MBOX_REQ (02 R55)
  ⟨0x100, 1, 0x4000000, 1, 1, [⟨47, 40, .rw, 0x0⟩, ⟨39, 32, .rw, 0x0⟩, ⟨0, 0, .wo, 0x0⟩]⟩,
  -- GLB_MBOX_ARG (02 R55)
  ⟨0x101, 7, 0x1, 1, 1, [⟨47, 0, .rw, 0x0⟩]⟩,
  -- GLB_MBOX_RSP (02 R55)
  ⟨0x110, 1, 0x4000000, 1, 1, [⟨47, 40, .ro, 0x0⟩, ⟨39, 32, .ro, 0x0⟩, ⟨1, 1, .ro, 0x0⟩, ⟨0, 0, .w1c, 0x0⟩]⟩,
  -- GLB_MBOX_DATA (02 R55)
  ⟨0x111, 15, 0x1, 1, 1, [⟨47, 0, .ro, 0x0⟩]⟩,
  -- GLB_FLT_POL (17 R555)
  ⟨0x200, 6, 0x1, 1, 1, [⟨47, 47, .rw, 0x1⟩, ⟨23, 8, .rw, 0xA⟩, ⟨3, 0, .rw, 0x3⟩]⟩,
  -- GLB_RET_MAP (17 R555)
  ⟨0x210, 1, 0x4000000, 1, 1, [⟨31, 0, .ro, 0x0⟩]⟩,
  -- GLB_RET_CNT (17 R555)
  ⟨0x211, 1, 0x4000000, 1, 1, [⟨47, 39, .ro, 0x0⟩, ⟨38, 31, .ro, 0x0⟩, ⟨30, 25, .ro, 0x0⟩, ⟨24, 19, .ro, 0x0⟩, ⟨18, 8, .ro, 0x0⟩, ⟨7, 4, .ro, 0x0⟩]⟩]

/-- Rows 1 of the GLB words. -/
def regRowsGlb1 : List RegRow := [
  -- GLB_DUMP (17 R555)
  ⟨0x220, 1, 0x4000000, 1, 1, [⟨47, 45, .ro, 0x0⟩, ⟨44, 44, .ro, 0x0⟩, ⟨31, 0, .ro, 0x0⟩]⟩,
  -- GLB_DUMP_CAUSE (17 R555)
  ⟨0x221, 1, 0x4000000, 1, 1, [⟨47, 40, .ro, 0x0⟩, ⟨39, 24, .ro, 0x0⟩, ⟨23, 0, .ro, 0x0⟩]⟩,
  -- GLB_DUMP_TICK (17 R555)
  ⟨0x222, 1, 0x4000000, 1, 1, [⟨47, 0, .ro, 0x0⟩]⟩,
  -- GLB_FLT_CNT_CORR (17 R555)
  ⟨0x300, 22, 0x2, 1, 1, [⟨47, 0, .rw, 0x0⟩]⟩,
  -- GLB_FLT_CNT_UNCORR (17 R555)
  ⟨0x301, 22, 0x2, 1, 1, [⟨47, 0, .rw, 0x0⟩]⟩,
  -- GLB_FREEZE0 (17 R545)
  ⟨0x400, 65, 0x8, 1, 1, [⟨47, 47, .ro, 0x0⟩, ⟨46, 45, .ro, 0x0⟩, ⟨39, 32, .ro, 0x0⟩]⟩,
  -- GLB_FREEZE1_5 (17 R545)
  ⟨0x401, 65, 0x8, 5, 1, [⟨47, 0, .ro, 0x0⟩]⟩,
  -- GLB_FREEZE6_7 (17 R545)
  ⟨0x406, 65, 0x8, 2, 1, []⟩,
  -- PWR_VOLT (19 R592 (Table 19.9))
  ⟨0x4010, 16, 0x1, 1, 1, [⟨15, 0, .ro, 0x0⟩]⟩,
  -- THM_LIMIT (19 R593 (Table 19.8))
  ⟨0x8000, 1, 0x4000000, 1, 1, [⟨31, 24, .rw, 0x73⟩, ⟨23, 16, .rw, 0x64⟩, ⟨15, 8, .rw, 0x69⟩, ⟨7, 0, .rw, 0x5F⟩]⟩,
  -- THM_TEMP (19 R592 (Table 19.9))
  ⟨0x8010, 20, 0x1, 1, 1, [⟨23, 0, .ro, 0x0⟩]⟩,
  -- IMG_BOOT (18 R574 (Table 18.10))
  ⟨0xC000, 1, 0x4000000, 1, 1, [⟨47, 16, .ro, 0x0⟩, ⟨11, 11, .ro, 0x0⟩, ⟨10, 10, .ro, 0x0⟩, ⟨9, 8, .ro, 0x0⟩, ⟨1, 1, .ro, 0x0⟩, ⟨0, 0, .ro, 0x0⟩]⟩,
  -- IMG_SECT (18 R574 (Table 18.10))
  ⟨0xC001, 1, 0x4000000, 1, 1, [⟨15, 12, .ro, 0x0⟩, ⟨11, 8, .ro, 0x0⟩, ⟨7, 4, .ro, 0x0⟩, ⟨3, 0, .ro, 0x0⟩]⟩,
  -- IMG_FAIL (18 R567 (Table 18.11))
  ⟨0xC002, 1, 0x4000000, 1, 1, [⟨47, 40, .ro, 0x0⟩, ⟨39, 32, .ro, 0x0⟩, ⟨22, 0, .ro, 0x0⟩]⟩,
  -- IMG_VER (18 R561 (Table 18.11))
  ⟨0xC003, 1, 0x4000000, 1, 1, [⟨47, 16, .ro, 0x0⟩]⟩,
  -- IMG_OTP (18 R558 (Table 18.11))
  ⟨0xC004, 1, 0x4000000, 1, 1, [⟨15, 15, .ro, 0x0⟩, ⟨14, 8, .ro, 0x0⟩, ⟨6, 0, .ro, 0x0⟩]⟩]

/-- Rows 2 of the GLB words. -/
def regRowsGlb2 : List RegRow := [
  -- IMG_OP (18 R571 (Table 18.8))
  ⟨0xC010, 1, 0x4000000, 1, 1, [⟨47, 47, .wo, 0x0⟩, ⟨46, 46, .ro, 0x0⟩, ⟨45, 45, .w1c, 0x0⟩, ⟨39, 32, .ro, 0x0⟩, ⟨3, 0, .rw, 0x0⟩]⟩,
  -- IMG_HOST (18 R571 (Table 18.8))
  ⟨0xC011, 1, 0x4000000, 1, 1, [⟨47, 0, .rw, 0x0⟩]⟩,
  -- IMG_FLASH (18 R571 (Table 18.8))
  ⟨0xC012, 1, 0x4000000, 1, 1, [⟨25, 0, .rw, 0x0⟩]⟩,
  -- IMG_LENGTH (18 R571 (Table 18.8))
  ⟨0xC013, 1, 0x4000000, 1, 1, [⟨25, 0, .rw, 0x0⟩]⟩,
  -- IMG_BOOTSEL (18 R571 (Table 18.8))
  ⟨0xC014, 1, 0x4000000, 1, 1, [⟨1, 1, .rw, 0x0⟩, ⟨0, 0, .rw, 0x0⟩]⟩,
  -- IMG_CHECK_SECT (18 R571 (Table 18.8))
  ⟨0xC015, 1, 0x4000000, 1, 1, [⟨15, 0, .ro, 0x0⟩]⟩,
  -- IMG_DONE_OCT (18 R571 (Table 18.8))
  ⟨0xC016, 1, 0x4000000, 1, 1, [⟨25, 0, .ro, 0x0⟩]⟩]

/-- The GLB rows. -/
def regRowsGlb : List RegRow := regRowsGlb0 ++ regRowsGlb1 ++ regRowsGlb2

/-- Rows 0 of the CMD words. -/
def regRowsCmd0 : List RegRow := [
  -- CMD_RING_BASE (02 R57 (Table 2.8))
  ⟨0x10000, 64, 0x40, 1, 1, [⟨47, 0, .rw, 0x0⟩]⟩,
  -- CMD_RING_SIZE (02 R57 (Table 2.8))
  ⟨0x10001, 64, 0x40, 1, 1, [⟨4, 0, .rw, 0x0⟩]⟩,
  -- CMD_CPL_BASE (02 R57 (Table 2.8))
  ⟨0x10002, 64, 0x40, 1, 1, [⟨47, 0, .rw, 0x0⟩]⟩,
  -- CMD_CPL_SIZE (02 R57 (Table 2.8))
  ⟨0x10003, 64, 0x40, 1, 1, [⟨4, 0, .rw, 0x0⟩]⟩,
  -- CMD_DOORBELL (02 R57 (Table 2.8))
  ⟨0x10004, 64, 0x40, 1, 1, [⟨19, 0, .wo, 0x0⟩]⟩,
  -- CMD_CPL_HEAD (02 R57 (Table 2.8))
  ⟨0x10005, 64, 0x40, 1, 1, [⟨15, 0, .rw, 0x0⟩]⟩,
  -- CMD_LAST_SEQ (02 R57 (Table 2.8))
  ⟨0x10008, 64, 0x40, 1, 1, [⟨47, 0, .ro, 0x0⟩]⟩,
  -- CMD_QSTATE (02 R57 (Table 2.8))
  ⟨0x10009, 64, 0x40, 1, 1, [⟨2, 0, .ro, 0x0⟩]⟩,
  -- CMD_QBIND (02 R57 (Table 2.8))
  ⟨0x1020A, 56, 0x40, 1, 1, [⟨5, 0, .rw, 0x0⟩]⟩,
  -- CMD_BAR_DISCARD (03 R83)
  ⟨0x11000, 1, 0x4000000, 1, 1, [⟨47, 0, .rw, 0x0⟩]⟩,
  -- CMD_REJSTATE_CNT (03 R83)
  ⟨0x11001, 1, 0x4000000, 1, 1, [⟨47, 0, .rw, 0x0⟩]⟩,
  -- CMD_VIOL_CNT (03 R83)
  ⟨0x11002, 1, 0x4000000, 1, 1, [⟨47, 0, .rw, 0x0⟩]⟩,
  -- CMD_RETRY (03 R83)
  ⟨0x11003, 1, 0x4000000, 1, 1, [⟨23, 8, .rw, 0x2710⟩, ⟨3, 0, .rw, 0x3⟩]⟩,
  -- CMD_FROZEN_LO (03 R83)
  ⟨0x11004, 1, 0x4000000, 1, 1, [⟨47, 0, .ro, 0x0⟩]⟩,
  -- CMD_FROZEN_HI (03 R83)
  ⟨0x11005, 1, 0x4000000, 1, 1, [⟨15, 0, .ro, 0x0⟩]⟩,
  -- CMD_WALK_BUSY (03 R83)
  ⟨0x11006, 1, 0x4000000, 1, 1, [⟨7, 0, .ro, 0x0⟩]⟩]

/-- Rows 1 of the CMD words. -/
def regRowsCmd1 : List RegRow := [
  -- CMD_WALK_IDLE (03 R83)
  ⟨0x11007, 1, 0x4000000, 1, 1, [⟨15, 0, .rw, 0xA⟩]⟩]

/-- The CMD rows. -/
def regRowsCmd : List RegRow := regRowsCmd0 ++ regRowsCmd1

/-- Rows 0 of the EVT words. -/
def regRowsEvt0 : List RegRow := [
  -- EVT_RING_BASE (16 R533)
  ⟨0x20000, 1, 0x4000000, 1, 1, [⟨47, 0, .rw, 0x0⟩]⟩,
  -- EVT_RING_SIZE (16 R533)
  ⟨0x20001, 1, 0x4000000, 1, 1, [⟨4, 0, .rw, 0x0⟩]⟩,
  -- EVT_RING_HEAD (16 R533)
  ⟨0x20002, 1, 0x4000000, 1, 1, [⟨15, 0, .rw, 0x0⟩]⟩,
  -- EVT_RING_TAIL (16 R533)
  ⟨0x20003, 1, 0x4000000, 1, 1, [⟨15, 0, .ro, 0x0⟩]⟩,
  -- EVT_EN (16 R533)
  ⟨0x20004, 1, 0x4000000, 1, 1, [⟨1, 1, .rw, 0x0⟩, ⟨0, 0, .rw, 0x1⟩]⟩,
  -- EVT_IRQ (16 R533)
  ⟨0x20005, 1, 0x4000000, 1, 1, [⟨47, 32, .rw, 0x10⟩, ⟨31, 0, .rw, 0x64⟩]⟩,
  -- EVT_SPATE (16 R533)
  ⟨0x20008, 1, 0x4000000, 1, 1, [⟨34, 28, .rw, 0x20⟩, ⟨27, 21, .rw, 0x40⟩, ⟨20, 14, .rw, 0x60⟩, ⟨13, 7, .rw, 0x78⟩, ⟨6, 0, .rw, 0x10⟩]⟩,
  -- EVT_DROPPED (16 R533)
  ⟨0x20010, 3, 0x1, 1, 1, [⟨47, 0, .rw, 0x0⟩]⟩,
  -- EVT_COALESCED (16 R533)
  ⟨0x20013, 1, 0x4000000, 1, 1, [⟨47, 0, .rw, 0x0⟩]⟩,
  -- EVT_STAGED (16 R533)
  ⟨0x20014, 1, 0x4000000, 1, 1, [⟨10, 0, .ro, 0x0⟩]⟩,
  -- EVT_ALMSUM_LO (16 R533)
  ⟨0x200F0, 1, 0x4000000, 1, 1, [⟨47, 0, .ro, 0x0⟩]⟩,
  -- EVT_ALMSUM_HI (16 R533)
  ⟨0x200F1, 1, 0x4000000, 1, 1, [⟨15, 0, .ro, 0x0⟩]⟩,
  -- EVT_ALM (16 R529 R533)
  ⟨0x20100, 256, 0x1, 1, 1, [⟨47, 0, .w1c, 0x0⟩]⟩]

/-- The EVT rows. -/
def regRowsEvt : List RegRow := regRowsEvt0

/-- Rows 0 of the MON words. -/
def regRowsMon0 : List RegRow := [
  -- MON_CTL (16 R508)
  ⟨0x40000, 1, 0x4000000, 1, 1, [⟨47, 47, .rw, 0x1⟩]⟩,
  -- MON_TAG (16 R522 (Table 16.10))
  ⟨0x40010, 1, 0x4000000, 1, 1, [⟨47, 47, .rw, 0x0⟩, ⟨46, 44, .rw, 0x7⟩, ⟨5, 0, .rw, 0x10⟩]⟩,
  -- MON_TAG_SEED (16 R520)
  ⟨0x40011, 1, 0x4000000, 1, 1, [⟨47, 0, .rw, 0x1⟩]⟩,
  -- MON_TAG_INFLIGHT (16 R522 (Table 16.10))
  ⟨0x40012, 1, 0x4000000, 1, 1, [⟨6, 0, .ro, 0x0⟩]⟩,
  -- MON_TAG_SKIP (16 R521)
  ⟨0x40013, 1, 0x4000000, 1, 1, [⟨47, 0, .rw, 0x0⟩]⟩,
  -- MON_TR_BASE (16 R522 (Table 16.10))
  ⟨0x40018, 1, 0x4000000, 1, 1, [⟨47, 0, .rw, 0x0⟩]⟩,
  -- MON_TR_SIZE (16 R522 (Table 16.10))
  ⟨0x40019, 1, 0x4000000, 1, 1, [⟨3, 0, .rw, 0x0⟩]⟩,
  -- MON_TR_HEAD (16 R522 (Table 16.10))
  ⟨0x4001A, 1, 0x4000000, 1, 1, [⟨11, 0, .rw, 0x0⟩]⟩,
  -- MON_TR_TAIL (16 R522 (Table 16.10))
  ⟨0x4001B, 1, 0x4000000, 1, 1, [⟨11, 0, .ro, 0x0⟩]⟩,
  -- MON_TR_DROP (16 R522 (Table 16.10))
  ⟨0x4001C, 1, 0x4000000, 1, 1, [⟨47, 0, .rw, 0x0⟩]⟩,
  -- MON_BW_CTL (16 R514)
  ⟨0x40020, 1, 0x4000000, 1, 1, [⟨47, 47, .rw, 0x0⟩, ⟨46, 46, .wo, 0x0⟩, ⟨29, 0, .rw, 0xF4240⟩]⟩,
  -- MON_DUMP (16 R517 (Table 16.8))
  ⟨0x40030, 1, 0x4000000, 1, 1, [⟨47, 47, .ro, 0x0⟩, ⟨45, 40, .rw, 0x3F⟩]⟩,
  -- MON_DUMP_SEQ (16 R517 (Table 16.8))
  ⟨0x40031, 1, 0x4000000, 1, 1, [⟨47, 0, .ro, 0x0⟩]⟩,
  -- MON_DUMP_SKIPPED (16 R517 (Table 16.8))
  ⟨0x40032, 1, 0x4000000, 1, 1, [⟨47, 0, .rw, 0x0⟩]⟩,
  -- MON_DUMP_FAILED (16 R517 (Table 16.8))
  ⟨0x40033, 1, 0x4000000, 1, 1, [⟨47, 0, .rw, 0x0⟩]⟩,
  -- MON_CYC (16 R507)
  ⟨0x41000, 22, 0x20, 1, 1, [⟨47, 0, .ro, 0x0⟩]⟩]

/-- Rows 1 of the MON words. -/
def regRowsMon1 : List RegRow := [
  -- MON_CYC_INST (16 R507)
  ⟨0x41001, 22, 0x20, 1, 1, [⟨8, 0, .rw, 0x0⟩]⟩,
  -- MON_SEL (16 R507)
  ⟨0x41002, 22, 0x20, 8, 1, [⟨47, 47, .rw, 0x0⟩, ⟨46, 46, .rw, 0x0⟩, ⟨44, 36, .rw, 0x1FF⟩, ⟨7, 0, .rw, 0x0⟩]⟩,
  -- MON_CNT (16 R507)
  ⟨0x4100A, 22, 0x20, 8, 1, [⟨47, 0, .rw, 0x0⟩]⟩,
  -- MON_OVF (16 R507)
  ⟨0x41012, 22, 0x20, 1, 1, [⟨7, 0, .w1c, 0x0⟩]⟩,
  -- MON_UNIT_RSVD (16 R507)
  ⟨0x41013, 22, 0x20, 13, 1, []⟩,
  -- MON_LANE (16 R510)
  ⟨0x42000, 256, 0x20, 15, 1, [⟨47, 0, .rw, 0x0⟩]⟩,
  -- MON_MAC (16 R511)
  ⟨0x44000, 256, 0x40, 48, 1, [⟨47, 0, .rw, 0x0⟩]⟩,
  -- MON_PERMIT_LO (16 R504)
  ⟨0x48000, 7938, 0x2, 1, 1, [⟨47, 0, .rw, 0x0⟩]⟩,
  -- MON_PERMIT_HI (16 R504)
  ⟨0x48001, 7938, 0x2, 1, 1, [⟨15, 0, .rw, 0x0⟩]⟩,
  -- MON_BW_LAST (16 R512)
  ⟨0x4C000, 1024, 0x4, 1, 1, [⟨47, 0, .ro, 0x0⟩]⟩,
  -- MON_BW_MIN (16 R514)
  ⟨0x4C001, 1024, 0x4, 1, 1, [⟨47, 0, .ro, 0xFFFFFFFFFFFF⟩]⟩,
  -- MON_BW_MAX (16 R512)
  ⟨0x4C002, 1024, 0x4, 1, 1, [⟨47, 0, .ro, 0x0⟩]⟩,
  -- MON_BW_WINDOWS (16 R512)
  ⟨0x4C003, 1024, 0x4, 1, 1, [⟨47, 0, .ro, 0x0⟩]⟩]

/-- The MON rows. -/
def regRowsMon : List RegRow := regRowsMon0 ++ regRowsMon1

/-- Rows 0 of the CRC words. -/
def regRowsCrc0 : List RegRow := [
  -- CRC_CTL (16 R523)
  ⟨0x60000, 4, 0x10, 1, 1, [⟨47, 47, .ro, 0x0⟩, ⟨46, 46, .rw, 0x1⟩, ⟨45, 45, .rw, 0x1⟩, ⟨6, 0, .rw, 0x20⟩]⟩,
  -- CRC_POLY_HI (16 R523)
  ⟨0x60001, 4, 0x10, 1, 1, [⟨15, 0, .rw, 0x0⟩]⟩,
  -- CRC_POLY_LO (16 R523)
  ⟨0x60002, 4, 0x10, 1, 1, [⟨47, 0, .rw, 0x1EDC6F41⟩]⟩,
  -- CRC_INIT_HI (16 R523)
  ⟨0x60003, 4, 0x10, 1, 1, [⟨15, 0, .rw, 0x0⟩]⟩,
  -- CRC_INIT_LO (16 R523)
  ⟨0x60004, 4, 0x10, 1, 1, [⟨47, 0, .rw, 0xFFFFFFFF⟩]⟩,
  -- CRC_XOROUT_HI (16 R523)
  ⟨0x60005, 4, 0x10, 1, 1, [⟨15, 0, .rw, 0x0⟩]⟩,
  -- CRC_XOROUT_LO (16 R523)
  ⟨0x60006, 4, 0x10, 1, 1, [⟨47, 0, .rw, 0xFFFFFFFF⟩]⟩,
  -- CRC_RUN_HI (16 R523)
  ⟨0x60007, 4, 0x10, 1, 1, [⟨15, 0, .rw, 0x0⟩]⟩,
  -- CRC_RUN_LO (16 R523)
  ⟨0x60008, 4, 0x10, 1, 1, [⟨47, 0, .rw, 0x0⟩]⟩,
  -- CRC_FINAL_HI (16 R523)
  ⟨0x60009, 4, 0x10, 1, 1, [⟨15, 0, .ro, 0x0⟩]⟩,
  -- CRC_FINAL_LO (16 R523)
  ⟨0x6000A, 4, 0x10, 1, 1, [⟨47, 0, .ro, 0x0⟩]⟩,
  -- CRC_OCTETS (16 R523)
  ⟨0x6000B, 4, 0x10, 1, 1, [⟨47, 0, .rw, 0x0⟩]⟩]

/-- The CRC rows. -/
def regRowsCrc : List RegRow := regRowsCrc0

/-- Rows 0 of the KEY words. -/
def regRowsKey0 : List RegRow := [
  -- KEY_LOCK (13 R456)
  ⟨0x70000, 1, 0x4000000, 1, 1, [⟨6, 6, .ro, 0x0⟩, ⟨5, 0, .ro, 0x0⟩]⟩,
  -- KEY_LEASE (13 R456)
  ⟨0x70001, 1, 0x4000000, 1, 1, [⟨23, 0, .rw, 0x2710⟩]⟩,
  -- KEY_CNT (13 R456)
  ⟨0x70010, 5, 0x1, 1, 1, [⟨47, 0, .rw, 0x0⟩]⟩,
  -- KEY_XTS0 (13 R456 (Table 13.6))
  ⟨0x70100, 64, 0x4, 1, 1, [⟨47, 47, .wo, 0x0⟩, ⟨46, 46, .ro, 0x0⟩, ⟨45, 45, .ro, 0x0⟩, ⟨44, 44, .ro, 0x0⟩, ⟨7, 0, .ro, 0x0⟩]⟩,
  -- KEY_XTS1 (13 R456 (Table 13.6))
  ⟨0x70101, 64, 0x4, 1, 1, [⟨47, 0, .ro, 0x0⟩]⟩,
  -- KEY_XTS2 (13 R456 (Table 13.6))
  ⟨0x70102, 64, 0x4, 1, 1, [⟨26, 0, .ro, 0x0⟩]⟩,
  -- KEY_XTS3 (13 R456 (Table 13.6))
  ⟨0x70103, 64, 0x4, 1, 1, [⟨26, 0, .ro, 0x0⟩]⟩]

/-- The KEY rows. -/
def regRowsKey : List RegRow := regRowsKey0

/-- Rows 0 of the TIM words. -/
def regRowsTim0 : List RegRow := [
  -- TIM_TICK (14 R463)
  ⟨0x80000, 1, 0x4000000, 1, 1, [⟨47, 0, .ro, 0x0⟩]⟩,
  -- TIM_NT_S (14 R463)
  ⟨0x80001, 1, 0x4000000, 1, 1, [⟨47, 0, .ro, 0x0⟩]⟩,
  -- TIM_NT (14 R463)
  ⟨0x80002, 1, 0x4000000, 1, 1, [⟨47, 32, .ro, 0x0⟩, ⟨29, 0, .ro, 0x0⟩]⟩,
  -- TIM_STAT (14 R463)
  ⟨0x80003, 1, 0x4000000, 1, 1, [⟨1, 1, .ro, 0x0⟩, ⟨0, 0, .ro, 0x0⟩]⟩,
  -- TIM_RATE (14 R463)
  ⟨0x80004, 1, 0x4000000, 1, 1, [⟨31, 0, .rws, 0x0⟩]⟩,
  -- TIM_PPSIN_TICK (14 R463)
  ⟨0x80008, 1, 0x4000000, 1, 1, [⟨47, 0, .ro, 0x0⟩]⟩,
  -- TIM_PPSIN_S (14 R463)
  ⟨0x80009, 1, 0x4000000, 1, 1, [⟨47, 0, .ro, 0x0⟩]⟩,
  -- TIM_PPSIN_NS (14 R463)
  ⟨0x8000A, 1, 0x4000000, 1, 1, [⟨29, 0, .ro, 0x0⟩]⟩,
  -- TIM_PPSIN_CNT (14 R463)
  ⟨0x8000B, 1, 0x4000000, 1, 1, [⟨47, 0, .rw, 0x0⟩]⟩,
  -- TIM_PPSOUT (14 R463)
  ⟨0x80010, 1, 0x4000000, 1, 1, [⟨47, 47, .rw, 0x0⟩, ⟨31, 0, .rw, 0x0⟩]⟩,
  -- TIM_PPSOUT_W (14 R463)
  ⟨0x80011, 1, 0x4000000, 1, 1, [⟨29, 0, .rw, 0x186A0⟩]⟩,
  -- TIM_SYNCE (14 R463)
  ⟨0x80012, 1, 0x4000000, 1, 1, [⟨15, 15, .rw, 0x0⟩, ⟨14, 14, .rw, 0x0⟩, ⟨10, 3, .rw, 0x0⟩]⟩,
  -- TIM_TS_BASE (14 R463)
  ⟨0x80020, 1, 0x4000000, 1, 1, [⟨47, 0, .rw, 0x0⟩]⟩,
  -- TIM_TS_SIZE (14 R463)
  ⟨0x80021, 1, 0x4000000, 1, 1, [⟨3, 0, .rw, 0x0⟩]⟩,
  -- TIM_TS_HEAD (14 R463)
  ⟨0x80022, 1, 0x4000000, 1, 1, [⟨11, 0, .rw, 0x0⟩]⟩,
  -- TIM_TS_TAIL (14 R463)
  ⟨0x80023, 1, 0x4000000, 1, 1, [⟨11, 0, .ro, 0x0⟩]⟩]

/-- Rows 1 of the TIM words. -/
def regRowsTim1 : List RegRow := [
  -- TIM_TS_DROP (14 R463)
  ⟨0x80024, 1, 0x4000000, 1, 1, [⟨47, 0, .rw, 0x0⟩]⟩]

/-- The TIM rows. -/
def regRowsTim : List RegRow := regRowsTim0 ++ regRowsTim1

/-- Rows 0 of the OHM words. -/
def regRowsOhm0 : List RegRow := [
  -- OHM_CFG (15 R501)
  ⟨0x90000, 1, 0x4000000, 1, 1, [⟨47, 36, .rw, 0x0⟩, ⟨35, 35, .rw, 0x0⟩, ⟨34, 34, .rw, 0x0⟩]⟩,
  -- OHM_CFG1 (15 R501)
  ⟨0x90001, 1, 0x4000000, 1, 1, [⟨47, 36, .rw, 0x0⟩, ⟨35, 20, .rw, 0x88B6⟩, ⟨19, 0, .rw, 0x0⟩]⟩,
  -- OHM_TIMER (15 R501)
  ⟨0x90002, 1, 0x4000000, 1, 1, [⟨31, 16, .rw, 0x7D0⟩, ⟨15, 0, .rw, 0x3E8⟩]⟩,
  -- OHM_TIMER2 (15 R501)
  ⟨0x90003, 1, 0x4000000, 1, 1, [⟨31, 16, .rw, 0xA⟩, ⟨15, 0, .rw, 0x1F4⟩]⟩,
  -- OHM_REFRESH (15 R501)
  ⟨0x90004, 1, 0x4000000, 1, 1, [⟨15, 0, .rw, 0x64⟩]⟩,
  -- OHM_STATUS (15 R501)
  ⟨0x90008, 1, 0x4000000, 1, 1, [⟨47, 47, .ro, 0x0⟩, ⟨46, 46, .ro, 0x0⟩, ⟨45, 45, .ro, 0x0⟩, ⟨44, 43, .ro, 0x0⟩, ⟨42, 42, .ro, 0x0⟩, ⟨41, 41, .ro, 0x0⟩, ⟨31, 0, .ro, 0x0⟩]⟩,
  -- OHM_EPOCH (15 R501)
  ⟨0x90010, 1, 0x4000000, 1, 1, [⟨47, 16, .rw, 0x0⟩, ⟨15, 15, .ro, 0x0⟩]⟩,
  -- OHM_OPEN (15 R501)
  ⟨0x90011, 1, 0x4000000, 1, 1, [⟨47, 16, .ro, 0x0⟩]⟩,
  -- OHM_COMMIT_S (15 R501)
  ⟨0x90012, 1, 0x4000000, 1, 1, [⟨47, 0, .ro, 0x0⟩]⟩,
  -- OHM_COMMIT_NS (15 R501)
  ⟨0x90013, 1, 0x4000000, 1, 1, [⟨29, 0, .ro, 0x0⟩]⟩,
  -- OHM_STAGECTL (15 R501)
  ⟨0x90014, 1, 0x4000000, 1, 1, [⟨47, 47, .rw, 0x0⟩, ⟨12, 0, .rw, 0x0⟩]⟩,
  -- OHM_SLU_MASK (15 R501)
  ⟨0x90015, 3, 0x1, 1, 1, [⟨47, 0, .rw, 0x0⟩]⟩,
  -- OHM_DIGEST (15 R501)
  ⟨0x90018, 1, 0x4000000, 1, 1, [⟨47, 40, .rw, 0xFF⟩, ⟨0, 0, .wo, 0x0⟩]⟩,
  -- OHM_DIGEST_HI (15 R501)
  ⟨0x90019, 1, 0x4000000, 1, 1, [⟨47, 0, .ro, 0x0⟩]⟩,
  -- OHM_DIGEST_LO (15 R501)
  ⟨0x9001A, 1, 0x4000000, 1, 1, [⟨47, 32, .ro, 0x0⟩]⟩,
  -- OHM_DIGEST_EPOCH (15 R501)
  ⟨0x9001B, 1, 0x4000000, 1, 1, [⟨47, 16, .ro, 0x0⟩]⟩]

/-- Rows 1 of the OHM words. -/
def regRowsOhm1 : List RegRow := [
  -- OHM_CNT (15 R501)
  ⟨0x90040, 8, 0x1, 1, 1, [⟨47, 0, .rw, 0x0⟩]⟩,
  -- OHM_PROT (15 R501)
  ⟨0x90100, 128, 0x2, 1, 1, [⟨47, 47, .rw, 0x0⟩, ⟨46, 46, .rw, 0x0⟩, ⟨45, 34, .rw, 0x0⟩, ⟨33, 27, .rw, 0x0⟩, ⟨26, 26, .rw, 0x0⟩, ⟨25, 25, .wo, 0x0⟩]⟩,
  -- OHM_EQDOFF (15 R501)
  ⟨0x90101, 128, 0x2, 1, 1, [⟨31, 0, .rw, 0x0⟩]⟩,
  -- OHM_STAGE_ADDR (15 R501)
  ⟨0x91000, 4096, 0x3, 1, 1, [⟨24, 0, .rw, 0x0⟩]⟩,
  -- OHM_STAGE_MASK (15 R501)
  ⟨0x91001, 4096, 0x3, 1, 1, [⟨47, 0, .rw, 0x0⟩]⟩,
  -- OHM_STAGE_VALUE (15 R501)
  ⟨0x91002, 4096, 0x3, 1, 1, [⟨47, 0, .rw, 0x0⟩]⟩]

/-- The OHM rows. -/
def regRowsOhm : List RegRow := regRowsOhm0 ++ regRowsOhm1

/-- Rows 0 of the UPL words. -/
def regRowsUpl0 : List RegRow := [
  -- UPL_CFG (05 R187 (Table 5.15))
  ⟨0xA0000, 32, 0x800, 1, 1, [⟨7, 7, .rw, 0x0⟩, ⟨6, 6, .rw, 0x0⟩, ⟨3, 3, .rw, 0x0⟩, ⟨2, 0, .rw, 0x0⟩]⟩,
  -- UPL_STATUS (05 R194 (Table 5.15))
  ⟨0xA0001, 32, 0x800, 1, 1, [⟨16, 16, .ro, 0x0⟩, ⟨15, 8, .ro, 0x0⟩, ⟨7, 0, .ro, 0x0⟩]⟩,
  -- UPL_MAC (05 R193 (Table 5.16))
  ⟨0xA0010, 32, 0x800, 8, 1, [⟨31, 18, .rw, 0x600⟩, ⟨17, 17, .rw, 0x0⟩, ⟨14, 8, .rw, 0x0⟩, ⟨0, 0, .rw, 0x0⟩]⟩,
  -- UPL_TSCOMP (14 R470 (Table 14.3))
  ⟨0xA0020, 32, 0x800, 1, 1, [⟨31, 16, .rw, 0x0⟩, ⟨15, 0, .rw, 0x0⟩]⟩]

/-- The UPL rows. -/
def regRowsUpl : List RegRow := regRowsUpl0

/-- Rows 0 of the TREE words. -/
def regRowsTree0 : List RegRow := [
  -- TRE_CTRL (05 R176)
  ⟨0x100000, 128, 0x10000, 1, 1, [⟨11, 11, .rw, 0x0⟩, ⟨9, 8, .rw, 0x0⟩, ⟨0, 0, .rw, 0x0⟩]⟩,
  -- TRE_OWNER (05 R180 (Table 5.9))
  ⟨0x100001, 128, 0x10000, 1, 1, [⟨5, 0, .rw, 0x0⟩]⟩,
  -- TRE_PONID_LO (05 R181 (Table 5.10))
  ⟨0x100002, 128, 0x10000, 1, 1, [⟨47, 0, .rw, 0x0⟩]⟩,
  -- TRE_PONID_HI (05 R181 (Table 5.10))
  ⟨0x100003, 128, 0x10000, 1, 1, [⟨2, 0, .rw, 0x0⟩]⟩,
  -- TRE_SFC_LO (05 R180 (Table 5.10))
  ⟨0x100004, 128, 0x10000, 1, 1, [⟨47, 0, .ro, 0x0⟩]⟩,
  -- TRE_SFC_HI (05 R180 (Table 5.10))
  ⟨0x100005, 128, 0x10000, 1, 1, [⟨2, 0, .ro, 0x0⟩]⟩,
  -- TRE_STATUS (05 R159 (Table 5.11))
  ⟨0x100008, 128, 0x10000, 1, 1, [⟨7, 7, .ro, 0x0⟩, ⟨6, 6, .ro, 0x0⟩, ⟨5, 4, .ro, 0x0⟩, ⟨3, 2, .ro, 0x0⟩, ⟨1, 0, .ro, 0x0⟩]⟩,
  -- TRE_PINCTL (05 R183 (Table 5.12))
  ⟨0x100010, 128, 0x10000, 2, 1, [⟨7, 7, .rw, 0x0⟩, ⟨6, 6, .rw, 0x1⟩, ⟨5, 5, .rw, 0x0⟩, ⟨0, 0, .ro, 0x1⟩]⟩,
  -- TRE_FTIME (14 R473 (Table 14.4))
  ⟨0x100020, 128, 0x10000, 1, 1, [⟨16, 0, .rw, 0x0⟩]⟩,
  -- TRE_FTIME_OFF (14 R472 (Table 14.4))
  ⟨0x100021, 128, 0x10000, 1, 1, [⟨47, 47, .ro, 0x0⟩, ⟨16, 0, .ro, 0x0⟩]⟩,
  -- TRE_FTIME_SFC_LO (14 R471 (Table 14.4))
  ⟨0x100022, 128, 0x10000, 1, 1, [⟨47, 0, .ro, 0x0⟩]⟩,
  -- TRE_FTIME_SFC_HI (14 R471 (Table 14.4))
  ⟨0x100023, 128, 0x10000, 1, 1, [⟨2, 0, .ro, 0x0⟩]⟩,
  -- TRE_FTIME_TOD_S (14 R471 (Table 14.4))
  ⟨0x100024, 128, 0x10000, 1, 1, [⟨47, 0, .ro, 0x0⟩]⟩,
  -- TRE_FTIME_TOD_NS (14 R471 (Table 14.4))
  ⟨0x100025, 128, 0x10000, 1, 1, [⟨29, 0, .ro, 0x0⟩]⟩,
  -- TRE_GRP (13 R457)
  ⟨0x100100, 128, 0x10000, 16, 1, [⟨47, 47, .rw, 0x0⟩, ⟨46, 31, .rw, 0x0⟩, ⟨17, 0, .rw, 0x0⟩]⟩,
  -- TRE_CIPH (13 R458)
  ⟨0x100110, 128, 0x10000, 2, 1, [⟨47, 0, .rw, 0x0⟩]⟩]

/-- Rows 1 of the TREE words. -/
def regRowsTree1 : List RegRow := [
  -- SLU_CTRL (06 R244)
  ⟨0x101000, 128, 0x10000, 1, 1, [⟨14, 0, .rw, 0x4000⟩]⟩,
  -- SLU_STATUS (06 R244 (Table 6.7))
  ⟨0x101001, 128, 0x10000, 1, 1, [⟨33, 33, .ro, 0x0⟩, ⟨32, 18, .ro, 0x0⟩, ⟨17, 6, .ro, 0x0⟩, ⟨5, 4, .ro, 0x0⟩, ⟨3, 3, .ro, 0x0⟩, ⟨2, 2, .ro, 0x0⟩, ⟨1, 1, .ro, 0x0⟩, ⟨0, 0, .ro, 0x0⟩]⟩,
  -- SLU_UPOFF (06 R245 (Table 6.8))
  ⟨0x101002, 128, 0x10000, 1, 1, [⟨19, 0, .rw, 0x9EB10⟩]⟩,
  -- SLU_BURST0 (06 R245 (Table 6.9))
  ⟨0x101004, 128, 0x10000, 1, 1, [⟨23, 16, .rw, 0x10⟩, ⟨15, 8, .rw, 0x4⟩, ⟨7, 0, .rw, 0x30⟩]⟩,
  -- SLU_BURST1 (06 R245 (Table 6.9))
  ⟨0x101005, 128, 0x10000, 1, 1, [⟨23, 16, .rw, 0x8⟩, ⟨15, 8, .rw, 0x2⟩, ⟨7, 0, .rw, 0x20⟩]⟩,
  -- SLU_BURST2 (06 R245 (Table 6.9))
  ⟨0x101006, 128, 0x10000, 1, 1, [⟨23, 16, .rw, 0x4⟩, ⟨15, 8, .rw, 0x1⟩, ⟨7, 0, .rw, 0x10⟩]⟩,
  -- SLU_BURST3 (06 R245 (Table 6.9))
  ⟨0x101007, 128, 0x10000, 1, 1, [⟨23, 16, .rw, 0x4⟩, ⟨15, 8, .rw, 0x1⟩, ⟨7, 0, .rw, 0xC⟩]⟩,
  -- SLU_CNT (06 R245 (Table 6.10))
  ⟨0x101010, 128, 0x10000, 7, 1, [⟨47, 0, .rw, 0x0⟩]⟩,
  -- SLU_CREDIT (06 R231)
  ⟨0x101100, 128, 0x10000, 256, 1, [⟨23, 0, .rw, 0x0⟩]⟩,
  -- SLU_BANK (02 R50 (Table 2.4))
  ⟨0x102000, 128, 0x10000, 8192, 1, [⟨47, 0, .ro, 0x0⟩]⟩,
  -- GAU_DISC (07 R273 (Table 7.4))
  ⟨0x104000, 128, 0x10000, 1, 1, [⟨35, 34, .rw, 0x2⟩, ⟨33, 20, .rw, 0x3FF⟩, ⟨18, 0, .rw, 0x67C28⟩]⟩,
  -- GAU_PREEQD (07 R273 (Table 7.5))
  ⟨0x104001, 128, 0x10000, 1, 1, [⟨25, 0, .rw, 0x0⟩]⟩,
  -- GAU_DRIFT (07 R271 (Table 7.6))
  ⟨0x104002, 128, 0x10000, 1, 1, [⟨15, 0, .rw, 0xFA⟩]⟩,
  -- GAU_PRING_BASE (07 R273 (Table 7.7))
  ⟨0x104008, 128, 0x10000, 1, 1, [⟨47, 0, .rw, 0x0⟩]⟩,
  -- GAU_PRING_SIZE (07 R273 (Table 7.7))
  ⟨0x104009, 128, 0x10000, 1, 1, [⟨3, 0, .rw, 0x0⟩]⟩,
  -- GAU_PRING_HEAD (07 R273 (Table 7.7))
  ⟨0x10400A, 128, 0x10000, 1, 1, [⟨11, 0, .rw, 0x0⟩]⟩]

/-- Rows 2 of the TREE words. -/
def regRowsTree2 : List RegRow := [
  -- GAU_PRING_TAIL (07 R273 (Table 7.7))
  ⟨0x10400B, 128, 0x10000, 1, 1, [⟨11, 0, .ro, 0x0⟩]⟩,
  -- GAU_CNT (07 R273 (Table 7.8))
  ⟨0x104010, 128, 0x10000, 8, 1, [⟨47, 0, .rw, 0x0⟩]⟩,
  -- ONU_TABLE (07 R250)
  ⟨0x105000, 128, 0x10000, 4096, 1, [⟨47, 0, .ro, 0x0⟩]⟩,
  -- BRX_DSK (08 R310 (Table 8.11))
  ⟨0x106000, 128, 0x10000, 5, 1, [⟨47, 0, .rw, 0x0⟩]⟩,
  -- BRX_DSK_OCC (08 R310 (Table 8.11))
  ⟨0x106005, 128, 0x10000, 1, 1, [⟨16, 0, .rw, 0x0⟩]⟩,
  -- BRX_SRCH_L0 (08 R310 (Table 8.7))
  ⟨0x108000, 128, 0x10000, 1, 1, [⟨35, 32, .rw, 0x4⟩, ⟨28, 24, .rw, 0x6⟩, ⟨15, 0, .rw, 0x1F4⟩]⟩,
  -- BRX_PIN_L0 (08 R310 (Table 8.8))
  ⟨0x108001, 128, 0x10000, 1, 1, [⟨39, 32, .rw, 0x0⟩, ⟨31, 24, .rw, 0x1⟩, ⟨23, 16, .rw, 0x2⟩, ⟨15, 8, .rw, 0x4⟩, ⟨7, 0, .rw, 0x8⟩]⟩,
  -- BRX_PROF_LO_L0 (08 R310 (Table 8.9))
  ⟨0x108010, 128, 0x10000, 3, 2, [⟨47, 0, .rw, 0x0⟩]⟩,
  -- BRX_PROF_L0 (08 R310 (Table 8.9))
  ⟨0x108011, 128, 0x10000, 3, 2, [⟨47, 40, .rw, 0x0⟩, ⟨39, 32, .rw, 0x0⟩, ⟨31, 25, .rw, 0x0⟩, ⟨15, 0, .rw, 0x0⟩]⟩,
  -- BRX_PROF3_LO_L0 (08 R310 (Table 8.9))
  ⟨0x108016, 128, 0x10000, 1, 1, [⟨47, 0, .rw, 0x5F27E0B46D18⟩]⟩,
  -- BRX_PROF3_L0 (08 R310 (Table 8.9))
  ⟨0x108017, 128, 0x10000, 1, 1, [⟨47, 40, .rw, 0x6⟩, ⟨39, 32, .rw, 0x2⟩, ⟨31, 25, .rw, 0x40⟩, ⟨15, 0, .rw, 0x9AC3⟩]⟩,
  -- BRX_CNT_L0 (08 R310 (Table 8.10))
  ⟨0x108040, 128, 0x10000, 14, 1, [⟨47, 0, .rw, 0x0⟩]⟩,
  -- BRX_SRCH_L1 (08 R310 (Table 8.7))
  ⟨0x10A000, 128, 0x10000, 1, 1, [⟨35, 32, .rw, 0x4⟩, ⟨28, 24, .rw, 0x6⟩, ⟨15, 0, .rw, 0x1F4⟩]⟩,
  -- BRX_PIN_L1 (08 R310 (Table 8.8))
  ⟨0x10A001, 128, 0x10000, 1, 1, [⟨39, 32, .rw, 0x0⟩, ⟨31, 24, .rw, 0x1⟩, ⟨23, 16, .rw, 0x2⟩, ⟨15, 8, .rw, 0x4⟩, ⟨7, 0, .rw, 0x8⟩]⟩,
  -- BRX_PROF_LO_L1 (08 R310 (Table 8.9))
  ⟨0x10A010, 128, 0x10000, 3, 2, [⟨47, 0, .rw, 0x0⟩]⟩,
  -- BRX_PROF_L1 (08 R310 (Table 8.9))
  ⟨0x10A011, 128, 0x10000, 3, 2, [⟨47, 40, .rw, 0x0⟩, ⟨39, 32, .rw, 0x0⟩, ⟨31, 25, .rw, 0x0⟩, ⟨15, 0, .rw, 0x0⟩]⟩]

/-- Rows 3 of the TREE words. -/
def regRowsTree3 : List RegRow := [
  -- BRX_PROF3_LO_L1 (08 R310 (Table 8.9))
  ⟨0x10A016, 128, 0x10000, 1, 1, [⟨47, 0, .rw, 0xD4B92A5CF307⟩]⟩,
  -- BRX_PROF3_L1 (08 R310 (Table 8.9))
  ⟨0x10A017, 128, 0x10000, 1, 1, [⟨47, 40, .rw, 0x6⟩, ⟨39, 32, .rw, 0x2⟩, ⟨31, 25, .rw, 0x40⟩, ⟨15, 0, .rw, 0x6E81⟩]⟩,
  -- BRX_CNT_L1 (08 R310 (Table 8.10))
  ⟨0x10A040, 128, 0x10000, 14, 1, [⟨47, 0, .rw, 0x0⟩]⟩]

/-- The TREE rows. -/
def regRowsTree : List RegRow := regRowsTree0 ++ regRowsTree1 ++ regRowsTree2 ++ regRowsTree3

/-- Rows 0 of the DSQ words. -/
def regRowsDsq0 : List RegRow := [
  -- DSQ_LENADJ0 (09 R320)
  ⟨0x1000000, 1, 0x4000000, 1, 1, [⟨9, 8, .rw, 0x0⟩, ⟨6, 0, .rw, 0x0⟩]⟩,
  -- DSQ_LENADJ1 (09 R320)
  ⟨0x1000001, 1, 0x4000000, 1, 1, [⟨9, 8, .rw, 0x2⟩, ⟨6, 0, .rw, 0x8⟩]⟩,
  -- DSQ_LENADJ2 (09 R320)
  ⟨0x1000002, 1, 0x4000000, 1, 1, [⟨9, 8, .rw, 0x0⟩, ⟨6, 0, .rw, 0x14⟩]⟩,
  -- DSQ_LENADJ3_15 (09 R320)
  ⟨0x1000003, 13, 0x1, 1, 1, [⟨9, 8, .rw, 0x0⟩, ⟨6, 0, .rw, 0x0⟩]⟩,
  -- DSQ_QUANTUM (09 R320)
  ⟨0x1000010, 1, 0x4000000, 1, 1, [⟨14, 0, .rw, 0x100⟩]⟩,
  -- DSQ_CNT (09 R336 (Table 9.13))
  ⟨0x1000020, 2, 0x1, 1, 1, [⟨47, 0, .rw, 0x0⟩]⟩,
  -- DSQ_LANE_NODE0 (09 R323)
  ⟨0x1010000, 256, 0x4, 1, 1, [⟨42, 40, .rw, 0x0⟩, ⟨39, 32, .rw, 0x1⟩]⟩,
  -- DSQ_LANE_NODE1 (09 R323)
  ⟨0x1010001, 256, 0x4, 1, 1, [⟨43, 16, .rw, 0xFFFFFFF⟩, ⟨15, 0, .rw, 0x40⟩]⟩,
  -- DSQ_LANE_NODE2 (09 R323)
  ⟨0x1010002, 256, 0x4, 1, 1, [⟨43, 16, .rw, 0x0⟩, ⟨15, 0, .rw, 0x40⟩]⟩,
  -- DSQ_LANE_NODE3 (09 R323)
  ⟨0x1010003, 256, 0x4, 1, 1, []⟩,
  -- DSQ_TOT_NODE0 (09 R323)
  ⟨0x1020000, 8192, 0x4, 1, 1, [⟨42, 40, .rw, 0x0⟩, ⟨39, 32, .rw, 0x1⟩]⟩,
  -- DSQ_TOT_NODE1 (09 R323)
  ⟨0x1020001, 8192, 0x4, 1, 1, [⟨43, 16, .rw, 0xFFFFFFF⟩, ⟨15, 0, .rw, 0x40⟩]⟩,
  -- DSQ_TOT_NODE2 (09 R323)
  ⟨0x1020002, 8192, 0x4, 1, 1, [⟨43, 16, .rw, 0x0⟩, ⟨15, 0, .rw, 0x40⟩]⟩,
  -- DSQ_TOT_NODE3 (09 R323)
  ⟨0x1020003, 8192, 0x4, 1, 1, []⟩,
  -- DSQ_ONU_NODE0 (09 R323)
  ⟨0x1100000, 65536, 0x4, 1, 1, [⟨42, 40, .rw, 0x0⟩, ⟨39, 32, .rw, 0x1⟩]⟩,
  -- DSQ_ONU_NODE1 (09 R323)
  ⟨0x1100001, 65536, 0x4, 1, 1, [⟨43, 16, .rw, 0xFFFFFFF⟩, ⟨15, 0, .rw, 0x40⟩]⟩]

/-- Rows 1 of the DSQ words. -/
def regRowsDsq1 : List RegRow := [
  -- DSQ_ONU_NODE2 (09 R323)
  ⟨0x1100002, 65536, 0x4, 1, 1, [⟨43, 16, .rw, 0x0⟩, ⟨15, 0, .rw, 0x40⟩]⟩,
  -- DSQ_ONU_NODE3 (09 R323)
  ⟨0x1100003, 65536, 0x4, 1, 1, []⟩,
  -- GATE0 (09 R333 (Table 9.11))
  ⟨0x1200000, 32, 0x1000, 8, 16, [⟨43, 16, .rw, 0xFFFFFFF⟩, ⟨15, 0, .rw, 0x40⟩]⟩,
  -- GATE1 (09 R335 (Table 9.11))
  ⟨0x1200001, 32, 0x1000, 8, 16, [⟨47, 47, .wo, 0x0⟩, ⟨46, 46, .rw, 0x0⟩, ⟨45, 45, .rw, 0x1⟩, ⟨39, 32, .rw, 0xFF⟩, ⟨20, 10, .rw, 0x0⟩, ⟨9, 0, .rw, 0x0⟩]⟩,
  -- GATE2 (09 R335 (Table 9.11))
  ⟨0x1200002, 32, 0x1000, 8, 16, [⟨47, 0, .rw, 0x0⟩]⟩,
  -- GATE3 (09 R335 (Table 9.11))
  ⟨0x1200003, 32, 0x1000, 8, 16, [⟨29, 0, .rw, 0x0⟩]⟩,
  -- GATE4 (09 R335 (Table 9.11))
  ⟨0x1200004, 32, 0x1000, 8, 16, [⟨31, 0, .rw, 0x0⟩]⟩,
  -- GATE5 (09 R335 (Table 9.11))
  ⟨0x1200005, 32, 0x1000, 8, 16, [⟨31, 0, .rw, 0x0⟩]⟩,
  -- GATE6 (09 R335 (Table 9.11))
  ⟨0x1200006, 32, 0x1000, 8, 16, [⟨47, 47, .ro, 0x0⟩, ⟨46, 46, .ro, 0x0⟩, ⟨9, 0, .ro, 0x0⟩]⟩,
  -- GATE7 (09 R335 (Table 9.11))
  ⟨0x1200007, 32, 0x1000, 8, 16, [⟨47, 0, .ro, 0x0⟩]⟩,
  -- GATE8 (09 R335 (Table 9.11))
  ⟨0x1200008, 32, 0x1000, 8, 16, [⟨29, 0, .ro, 0x0⟩]⟩,
  -- EGQ0_C0 (09 R331 (Table 9.10))
  ⟨0x1200100, 32, 0x1000, 8, 32, [⟨42, 40, .rw, 0x0⟩, ⟨39, 32, .rw, 0x1⟩, ⟨31, 28, .rw, 0x2⟩, ⟨19, 0, .rw, 0x2000⟩]⟩,
  -- EGQ0_C1 (09 R331 (Table 9.10))
  ⟨0x1200104, 32, 0x1000, 8, 32, [⟨42, 40, .rw, 0x1⟩, ⟨39, 32, .rw, 0x1⟩, ⟨31, 28, .rw, 0x2⟩, ⟨19, 0, .rw, 0x2000⟩]⟩,
  -- EGQ0_C2 (09 R331 (Table 9.10))
  ⟨0x1200108, 32, 0x1000, 8, 32, [⟨42, 40, .rw, 0x2⟩, ⟨39, 32, .rw, 0x1⟩, ⟨31, 28, .rw, 0x2⟩, ⟨19, 0, .rw, 0x2000⟩]⟩,
  -- EGQ0_C3 (09 R331 (Table 9.10))
  ⟨0x120010C, 32, 0x1000, 8, 32, [⟨42, 40, .rw, 0x3⟩, ⟨39, 32, .rw, 0x1⟩, ⟨31, 28, .rw, 0x2⟩, ⟨19, 0, .rw, 0x2000⟩]⟩,
  -- EGQ0_C4 (09 R331 (Table 9.10))
  ⟨0x1200110, 32, 0x1000, 8, 32, [⟨42, 40, .rw, 0x4⟩, ⟨39, 32, .rw, 0x1⟩, ⟨31, 28, .rw, 0x2⟩, ⟨19, 0, .rw, 0x2000⟩]⟩]

/-- Rows 2 of the DSQ words. -/
def regRowsDsq2 : List RegRow := [
  -- EGQ0_C5 (09 R331 (Table 9.10))
  ⟨0x1200114, 32, 0x1000, 8, 32, [⟨42, 40, .rw, 0x5⟩, ⟨39, 32, .rw, 0x1⟩, ⟨31, 28, .rw, 0x2⟩, ⟨19, 0, .rw, 0x2000⟩]⟩,
  -- EGQ0_C6 (09 R331 (Table 9.10))
  ⟨0x1200118, 32, 0x1000, 8, 32, [⟨42, 40, .rw, 0x6⟩, ⟨39, 32, .rw, 0x1⟩, ⟨31, 28, .rw, 0x2⟩, ⟨19, 0, .rw, 0x2000⟩]⟩,
  -- EGQ0_C7 (09 R331 (Table 9.10))
  ⟨0x120011C, 32, 0x1000, 8, 32, [⟨42, 40, .rw, 0x7⟩, ⟨39, 32, .rw, 0x1⟩, ⟨31, 28, .rw, 0x2⟩, ⟨19, 0, .rw, 0x2000⟩]⟩,
  -- EGQ1 (09 R331 (Table 9.10))
  ⟨0x1200101, 32, 0x1000, 64, 4, [⟨43, 16, .rw, 0xFFFFFFF⟩, ⟨15, 0, .rw, 0x40⟩]⟩,
  -- EGQ2 (09 R331 (Table 9.10))
  ⟨0x1200102, 32, 0x1000, 64, 4, [⟨43, 16, .rw, 0x0⟩, ⟨15, 0, .rw, 0x40⟩]⟩,
  -- EGQ3 (09 R331 (Table 9.10))
  ⟨0x1200103, 32, 0x1000, 64, 4, []⟩,
  -- GATE_ENTRY (09 R334 (Table 9.12))
  ⟨0x1200400, 32, 0x1000, 2048, 1, [⟨47, 40, .rw, 0x0⟩, ⟨32, 32, .rw, 0x0⟩, ⟨31, 0, .rw, 0x0⟩]⟩]

/-- The DSQ rows. -/
def regRowsDsq : List RegRow := regRowsDsq0 ++ regRowsDsq1 ++ regRowsDsq2

/-- Rows 0 of the PAR words. -/
def regRowsPar0 : List RegRow := [
  -- PAR_SRC (10 R364 (Table 10.13))
  ⟨0x1400000, 513, 0x1, 1, 1, [⟨43, 40, .rw, 0xF⟩, ⟨39, 38, .rw, 0x0⟩, ⟨37, 37, .rw, 0x0⟩, ⟨36, 36, .rw, 0x0⟩]⟩,
  -- PAR_GLOBAL (10 R364 (Table 10.14))
  ⟨0x1400400, 1, 0x4000000, 1, 1, [⟨47, 32, .rw, 0x9100⟩, ⟨31, 16, .rw, 0x12B5⟩]⟩,
  -- CLS_HASH_SEED (10 R356 (Table 10.14))
  ⟨0x1400401, 1, 0x4000000, 1, 1, [⟨31, 0, .rw, 0x0⟩]⟩,
  -- CLS_GEN (10 R363 (Table 10.15))
  ⟨0x1400408, 1, 0x4000000, 1, 1, [⟨17, 17, .ro, 0x0⟩, ⟨16, 16, .ro, 0x0⟩, ⟨15, 0, .ro, 0x0⟩]⟩,
  -- CLS_SWAP_TICK (10 R363 (Table 10.15))
  ⟨0x1400409, 1, 0x4000000, 1, 1, [⟨47, 0, .ro, 0x0⟩]⟩,
  -- CLS_CNT (10 R364 (Table 10.16))
  ⟨0x1400410, 10, 0x1, 1, 1, [⟨47, 0, .rw, 0x0⟩]⟩]

/-- The PAR rows. -/
def regRowsPar : List RegRow := regRowsPar0

/-- Rows 0 of the TBL words. -/
def regRowsTbl0 : List RegRow := [
  -- TBL_AGE (11 R392 (Table 11.9))
  ⟨0x1800000, 1, 0x4000000, 1, 1, [⟨17, 17, .rw, 0x0⟩, ⟨16, 16, .rw, 0x1⟩, ⟨15, 0, .rw, 0x3C⟩]⟩,
  -- TBL_SCRUB (11 R392 (Table 11.9))
  ⟨0x1800001, 1, 0x4000000, 1, 1, [⟨15, 0, .rw, 0x3C⟩]⟩,
  -- TBL_CNT (11 R392 (Table 11.12))
  ⟨0x1800010, 13, 0x1, 1, 1, [⟨47, 0, .rw, 0x0⟩]⟩,
  -- TBL_STAT (11 R392 (Table 11.12))
  ⟨0x1800020, 4, 0x1, 1, 1, [⟨47, 47, .w1c, 0x0⟩, ⟨22, 0, .ro, 0x0⟩]⟩,
  -- TBL_LEARNQ (11 R392 (Table 11.12))
  ⟨0x1800024, 1, 0x4000000, 1, 1, [⟨12, 0, .ro, 0x0⟩]⟩,
  -- TBL_SRCBP (11 R380 (Table 11.10))
  ⟨0x1801000, 256, 0x1, 1, 1, [⟨16, 16, .rw, 0x0⟩, ⟨15, 0, .rw, 0x0⟩]⟩,
  -- TBL_SRCBP512 (11 R380 (Table 11.10))
  ⟨0x1801200, 1, 0x4000000, 1, 1, [⟨16, 16, .rw, 0x0⟩, ⟨15, 0, .rw, 0x0⟩]⟩,
  -- TBL_BD (11 R381 (Table 11.10))
  ⟨0x1810000, 16384, 0x1, 1, 1, [⟨47, 47, .rw, 0x0⟩, ⟨46, 45, .rw, 0x0⟩, ⟨43, 24, .rw, 0x0⟩, ⟨23, 12, .rw, 0x0⟩]⟩,
  -- TBL_BPORT0 (11 R392 (Table 11.11))
  ⟨0x1840000, 65536, 0x4, 1, 1, [⟨47, 47, .rw, 0x0⟩, ⟨46, 46, .rw, 0x1⟩, ⟨45, 45, .rw, 0x0⟩, ⟨44, 43, .rw, 0x0⟩, ⟨42, 24, .rw, 0x0⟩, ⟨23, 8, .rw, 0x0⟩]⟩,
  -- TBL_BPORT1 (11 R392 (Table 11.11))
  ⟨0x1840001, 65536, 0x4, 1, 1, [⟨22, 0, .rw, 0x400000⟩]⟩,
  -- TBL_BPORT2 (11 R392 (Table 11.11))
  ⟨0x1840002, 65536, 0x4, 1, 1, [⟨22, 0, .rw, 0x0⟩]⟩,
  -- TBL_BPORT3 (11 R392 (Table 11.11))
  ⟨0x1840003, 65536, 0x4, 1, 1, []⟩,
  -- TBL_NH0 (11 R391 (Table 11.11))
  ⟨0x1880000, 65536, 0x4, 1, 1, [⟨47, 47, .rw, 0x0⟩, ⟨46, 46, .rw, 0x1⟩, ⟨45, 44, .rw, 0x0⟩, ⟨43, 25, .rw, 0x0⟩, ⟨24, 9, .rw, 0x0⟩]⟩,
  -- TBL_NH1 (11 R391 (Table 11.11))
  ⟨0x1880001, 65536, 0x4, 1, 1, [⟨47, 0, .rw, 0x0⟩]⟩,
  -- TBL_NH2 (11 R391 (Table 11.11))
  ⟨0x1880002, 65536, 0x4, 1, 1, [⟨47, 0, .rw, 0x0⟩]⟩,
  -- TBL_NH3 (11 R391 (Table 11.11))
  ⟨0x1880003, 65536, 0x4, 1, 1, [⟨47, 47, .rw, 0x0⟩, ⟨43, 32, .rw, 0x0⟩]⟩]

/-- Rows 1 of the TBL words. -/
def regRowsTbl1 : List RegRow := [
  -- TBL_ONUBP (11 R380 (Table 11.10))
  ⟨0x18C0000, 65536, 0x1, 1, 1, [⟨16, 16, .rw, 0x0⟩, ⟨15, 0, .rw, 0x0⟩]⟩,
  -- TBL_FLOOD (11 R392 (Table 11.8))
  ⟨0x1900000, 262144, 0x1, 1, 1, [⟨47, 32, .rw, 0x0⟩, ⟨31, 16, .rw, 0x0⟩, ⟨15, 0, .rw, 0x0⟩]⟩]

/-- The TBL rows. -/
def regRowsTbl : List RegRow := regRowsTbl0 ++ regRowsTbl1

/-- Rows 0 of the MEM words. -/
def regRowsMem0 : List RegRow := [
  -- CFL_CNT (12 R428 (Table 12.11))
  ⟨0x1C00000, 256, 0x1, 1, 1, [⟨47, 0, .rw, 0x0⟩]⟩,
  -- CAT_PART (12 R428 (Table 12.5))
  ⟨0x1D00000, 512, 0x1, 1, 1, [⟨31, 17, .ro, 0x0⟩, ⟨14, 0, .rw, 0xBC0⟩]⟩,
  -- CAT_PUNT (12 R428 (Table 12.6))
  ⟨0x1D00200, 1, 0x4000000, 1, 1, [⟨32, 32, .rw, 0x0⟩, ⟨31, 17, .ro, 0x0⟩, ⟨14, 0, .rw, 0x200⟩]⟩,
  -- CAT_PUNT_RATE (12 R428 (Table 12.6))
  ⟨0x1D00201, 1, 0x4000000, 1, 1, [⟨21, 0, .rw, 0xF4240⟩]⟩,
  -- CAT_PRING_BASE (12 R428 (Table 12.7))
  ⟨0x1D00204, 1, 0x4000000, 1, 1, [⟨47, 0, .rw, 0x0⟩]⟩,
  -- CAT_PRING_SIZE (12 R428 (Table 12.7))
  ⟨0x1D00205, 1, 0x4000000, 1, 1, [⟨3, 0, .rw, 0x0⟩]⟩,
  -- CAT_PRING_HEAD (12 R428 (Table 12.7))
  ⟨0x1D00206, 1, 0x4000000, 1, 1, [⟨11, 0, .rw, 0x0⟩]⟩,
  -- CAT_PRING_TAIL (12 R428 (Table 12.7))
  ⟨0x1D00207, 1, 0x4000000, 1, 1, [⟨11, 0, .ro, 0x0⟩]⟩,
  -- CAT_SPILL (12 R428 (Table 12.8))
  ⟨0x1D00210, 1, 0x4000000, 1, 1, [⟨15, 0, .rw, 0x3E8⟩]⟩,
  -- CAT_TPAGE_LIMIT0 (12 R419 (Table 12.9))
  ⟨0x1D00300, 1, 0x4000000, 1, 1, [⟨26, 0, .rw, 0x4000000⟩]⟩,
  -- CAT_TPAGE_LIMIT (12 R419 (Table 12.9))
  ⟨0x1D00302, 63, 0x2, 1, 1, [⟨26, 0, .rw, 0x0⟩]⟩,
  -- CAT_TPAGE_USED (12 R416 (Table 12.9))
  ⟨0x1D00301, 64, 0x2, 1, 1, [⟨26, 0, .ro, 0x0⟩]⟩,
  -- CAT_CNT (12 R428 (Table 12.10))
  ⟨0x1D00400, 10, 0x1, 1, 1, [⟨47, 0, .rw, 0x0⟩]⟩,
  -- HBM_PC (12 R428 (Table 12.12))
  ⟨0x1E00000, 256, 0x1, 1, 1, [⟨20, 20, .ro, 0x0⟩, ⟨19, 19, .ro, 0x0⟩, ⟨18, 0, .ro, 0x0⟩]⟩]

/-- The MEM rows. -/
def regRowsMem : List RegRow := regRowsMem0

/-- The rows of the block that holds word `a` (Table 2.3). -/
def regRowsAt (a : Nat) : List RegRow :=
  if Nat.blt a 0x10000 then regRowsGlb else
  if Nat.blt a 0x20000 then regRowsCmd else
  if Nat.blt a 0x40000 then regRowsEvt else
  if Nat.blt a 0x60000 then regRowsMon else
  if Nat.blt a 0x70000 then regRowsCrc else
  if Nat.blt a 0x80000 then regRowsKey else
  if Nat.blt a 0x90000 then regRowsTim else
  if Nat.blt a 0xA0000 then regRowsOhm else
  if Nat.blt a 0x100000 then regRowsUpl else
  if Nat.blt a 0x900000 then regRowsTree else
  if Nat.blt a 0x1000000 then [] else
  if Nat.blt a 0x1400000 then regRowsDsq else
  if Nat.blt a 0x1800000 then regRowsPar else
  if Nat.blt a 0x1C00000 then regRowsTbl else
  regRowsMem

/-- The row that assigns word `a`, if any. -/
def regRow (a : Nat) : Option RegRow := (regRowsAt a).find? (fun r => r.covers a)

/-- The factory default of a list of fields. -/
def fieldsDefault : List Field → Word
  | [] => 0
  | f :: fs => BitVec.ofNat 48 (f.dflt * 2 ^ f.lo) ||| fieldsDefault fs

/-- The mask of the fields whose access code satisfies `p`. -/
def fieldsMask (p : Access → Bool) : List Field → Word
  | [] => 0
  | f :: fs => if p f.acc then maskOf f.hi f.lo ||| fieldsMask p fs else fieldsMask p fs

/-- The fields of word `a`; none where the word is unassigned. -/
def regFields (a : Nat) : List Field :=
  match regRow a with
  | some r => r.fields
  | none => []

/-- The factory default of word `a` (R556); 0 where the word is unassigned (R49). -/
def regFactory (a : Nat) : Word := fieldsDefault (regFields a)

/-- The bits of word `a` that a command write sets (RW and RWS). -/
def regSetMask (a : Nat) : Word := fieldsMask (fun c => c == .rw || c == .rws) (regFields a)

/-- The bits of word `a` that survive a soft reset (RWS). -/
def regKeepMask (a : Nat) : Word := fieldsMask (fun c => c == .rws) (regFields a)

/-- The bits of word `a` that a command write of 1 clears. -/
def regClearMask (a : Nat) : Word := fieldsMask (fun c => c == .w1c) (regFields a)

/-- The bits of word `a` that a command write triggers. -/
def regTriggerMask (a : Nat) : Word := fieldsMask (fun c => c == .wo) (regFields a)

/-- Word `a` is assigned (R49). -/
def regAssigned (a : Nat) : Bool := (regRow a).isSome

/-- Word `a` holds a field that a command write can reach (R52). -/
def regWritable (a : Nat) : Bool := fieldsMask (fun c => c != .ro) (regFields a) != 0

end Sys2Proof.Machine
end

