-- ==== Sys2Proof/Machine/State.lean ====
section
/-! DEFINITION. The state of the BTZ-7128 as plain data: the register words, the state beside them, unit by unit, and
the queue of waiting commands; the state right after reset; the reasons a step can stop. -/

namespace Sys2Proof.Machine

/-- Why a step would stop. Every meaning answers a next state, so nobody raises it; safe. -/
inductive Fault where
  /-- Raised by nobody; safe: no step stops with it. -/
  | neverRaised
deriving DecidableEq, Repr

/-- Why a row has no meaning. -/
inductive Refusal where
  /-- Raised by the dispatcher alone, for a row that has no meaning yet; safe: the run stops there. -/
  | notModelled (mnemonic : String)
deriving DecidableEq, Repr

/-! ### Modes and global control (04, 17, 19) -/

/-- The six modes (Table 4.1). -/
inductive Mode where
  | spring | still | flow | weir | drain | dry
deriving DecidableEq, Repr

/-- The drain in progress (R142 to R148). -/
structure Drain where
  /-- The tick in which DRAIN took effect. -/
  since : Nat
  /-- Tick X, once reached: trees send idle frames until their stopping boundaries (R146). -/
  done : Option Nat
deriving DecidableEq, Repr

/-- A mailbox request passed to the service processor and not yet answered (R55). -/
structure MboxReq where
  code : Nat
  tag : Nat
  args : List Word
deriving DecidableEq, Repr

/-- The service processor (R36 to R41). -/
structure Sp where
  req : Option MboxReq
  /-- The tick at which the island leaves the reset that followed a watchdog expiry (R39). -/
  resetTill : Nat
  /-- Held in reset until device reset (R40). -/
  held : Bool
  /-- Ticks of the watchdog expiries of the last 60 s, newest first (R40). -/
  expiries : List Nat
  /-- Watchdog expiries since reset (HEALTH). -/
  expiryCount : Nat
  /-- The tick in which the service processor last started (HEALTH). -/
  started : Nat
  /-- Tick of the last admission on its command port (R32). -/
  lastAdmission : Option Nat
  /-- ROM firmware is running (R36). -/
  romFw : Bool
  /-- Version of the running firmware (R562, HEALTH). -/
  fwVersion : Nat
  /-- RETIRE commands that the retirement policy presents on the command port, CLASS and INDEX, oldest first (R37, R538). -/
  policy : List (Nat × Nat)
deriving DecidableEq, Repr

/-- The fatal dump and the causes that led to it (R548 to R555). -/
structure DumpState where
  /-- A fatal cause has been stamped since the last SPRING. -/
  fatal : Bool
  /-- Causes after the first (R548). -/
  further : Nat
  /-- The target chosen at tick F + 1 is the flash slot (R551). -/
  toFlash : Bool
  /-- Host dump area: octet address and KiB; none when removed (R550). -/
  area : Option (Nat × Nat)
  /-- The words of the flash dump slot, when it holds a complete dump. -/
  flash : List Word
deriving DecidableEq, Repr

/-- One entry of the log of uncorrectable errors (R544, Table 17.11 section 8). -/
structure UncorrEntry where
  unit : Nat
  structure_ : Nat
  src : Nat
  detail : Nat
  tick : Nat
deriving DecidableEq, Repr

/-- One entry of the retirement history (RETIRE_LOG, Table 17.8). -/
structure RetireEntry where
  cls : Nat
  restore : Bool
  tick : Nat
  index : Nat
deriving DecidableEq, Repr

/-- The retry history of one resource (R536). -/
structure RetryHist where
  /-- Start ticks of its retries, newest first. -/
  starts : List Nat
  /-- A retry is in progress. -/
  busy : Bool
  /-- A retirement was refused: it is retried without a budget (R539). -/
  unbounded : Bool
  /-- Tick at which RETIRE_ADVISED was last raised. -/
  advised : Option Nat
deriving DecidableEq, Repr

/-- Faults, retirement and the dump (17). -/
structure FaultUnit where
  /-- Retry histories by class * 2^24 + index. -/
  hist : SMap RetryHist
  /-- Retries started, by class (HEALTH). -/
  retries : SMap Nat
  /-- Retired SRAM rows and their spare (0 to 7) of the bank: row index to spare + 1. -/
  rows : SMap Nat
  /-- Rows whose copy to a spare is not complete, with the direction: true on RESTORE. -/
  copying : List (Nat × Bool)
  /-- Lookup pipes retired. -/
  pipes : SMap Bool
  /-- Lookup pipes out of service during a retry. -/
  pipeRetry : SMap Bool
  /-- Uplink ports out of service during a retry, and those whose island's handshake is lost. -/
  portRetry : SMap Bool
  portHs : SMap Bool
  /-- HBM stacks whose island's handshake is lost (R528). -/
  hbmLost : SMap Bool
  uncorr : List UncorrEntry
  log : List RetireEntry
  dump : DumpState
deriving DecidableEq, Repr

/-- Pins and supplies of the board (19). -/
structure Board where
  /-- The device reset pin is low, or a rail lies below 90 % (R577, R578). -/
  inReset : Bool
  /-- Rails below 90 % of nominal (R577). -/
  railsLow : SMap Bool
  /-- PERST_N is low (R581). -/
  perst : Bool
  /-- The host has enabled MSI-X since PERST_N was last released. -/
  msixOn : Bool
  /-- Rails whose last sample lay outside the operating range (R579). -/
  railOut : SMap Bool
  /-- Sensors whose last sample lay at or above the shutdown threshold (R592). -/
  tempOut : SMap Bool
  /-- Sensors that have reached their warning threshold and not fallen 5 degrees below it (R592). -/
  warned : SMap Bool
  /-- THERMTRIP_N is driven low (R593). -/
  thermtrip : Bool
  /-- Levels of GPIO 0 to 15 seen at the pins. -/
  gpioIn : Nat
  /-- STRAP0 to STRAP3 and the VDDIO_OPT bit as they stand at the pins. -/
  straps : Nat
  /-- A soft reset begins at this tick (R582). -/
  softAt : Option Nat
  /-- The level of RESET_N is low. -/
  resetLow : Bool
deriving DecidableEq, Repr

/-! ### Flash and OTP (18) -/

/-- A flash operation in progress (R571): OP, its operands as they stood at its start, and the RESULT that its checks
give (0 where they pass). -/
structure ImgOp where
  op : Nat
  host : Word
  flash : Nat
  len : Nat
  trial : Bool
  slot : Bool
  bad : Nat
deriving DecidableEq, Repr

/-- The flash, the OTP fuses and what the loader keeps (18). -/
structure ImgUnit where
  /-- Octets of the flash by offset; an unlisted octet is erased, 0xFF. -/
  flash : SMap Byte
  /-- IMG_KEY, once programmed. -/
  key : Option (BitVec 128)
  fwMin : Nat
  imgMin : Nat
  op : Option ImgOp
  /-- RB of the running firmware, and of the applied sections. -/
  fwRb : Nat
  rbs : List Nat
deriving DecidableEq, Repr

/-- The test access port (R589). -/
structure Tap where
  /-- The instruction register, 8 bits. -/
  ir : Nat
  /-- The boundary register as last updated, cell 0 first. -/
  dr : List Bool
  /-- Bits shifted out on TDO, newest first. -/
  tdo : List Bool
  /-- The port controls the pins (only while RESET_N is low). -/
  drives : Bool
deriving DecidableEq, Repr

/-! ### Command queues (03) -/

/-- A relocation: its source and target slots, and the key that moves (R370, R371). -/
structure Move where
  from_ : Nat
  to_ : Nat
  key : List Word
deriving DecidableEq, Repr

/-- How far the insertion of an entry has come (R370, R373). -/
inductive InsPhase where
  /-- The candidate slots are read next. -/
  | read
  /-- A search level: the path so far, its last slot first, and the levels left. -/
  | search (path : List Nat) (left : Nat)
  /-- Relocations left, in order, the first tick of the first of them done or not; then the entry goes to `slot`. -/
  | move (todo : List Move) (copied : Bool) (slot : Nat)
deriving DecidableEq, Repr

/-- An insertion into a keyed table under way. -/
structure Insertion where
  table : Nat
  words : List Word
  phase : InsPhase
  /-- Relocations made, and searches begun. -/
  moves : Nat
  searches : Nat
deriving DecidableEq, Repr

/-- The work of a command that runs over many ticks. -/
inductive Work where
  /-- Words go to the host from an address on, in `took` ticks of which `left` are to come: READ, TBL_SEARCH, CTR_SNAP. -/
  | give (addr : Nat) (words : List Word) (result took left : Nat)
  /-- TBL_INSERT on a keyed table (R370). -/
  | insert (i : Insertion) (replace : Bool)
  /-- TBL_DELETE on a keyed table, waiting for its turn (R97). -/
  | delete (table : Nat) (key : List Word)
  /-- TBL_FLUSH_PORT: its next slot, and the entries removed (R103). -/
  | flush (port : Nat) (all : Bool) (slot removed : Nat)
  /-- TBL_NEXT: its context, the entries still wanted, the address of the next record, and the records written (R374). -/
  | walk (ctx want addr count : Nat)
  /-- RULE_STAGE: the words of an entry from word `first` on, of which PROGRESS have been written (R105). -/
  | stage (table index first : Nat) (words : List Word) (took left : Nat)
  /-- SLUICE_LOAD: words of the shadow bank from word `start` on, of which PROGRESS have been copied (R107). -/
  | load (tree start : Nat) (words : List Word) (last : Bool) (took left : Nat)
  /-- KEY_OP: the command, what it reads from the host, and its ticks (R452). -/
  | key (c : Cmd) (io : HostIo) (took left : Nat)
  /-- CRC_SCAN of octets from the host that are still to be scanned (R115). -/
  | scanHost (unit : Nat) (octets : List Byte)
  /-- CRC_SCAN of `left` device words from an address on (R115). -/
  | scanWords (unit addr left : Nat)
  /-- DEFAULTS: the words still to be visited (R573). -/
  | defaults (words : List Nat)
  /-- MSG_SEND of type 2: its message comes from the host in `left` more ticks (R111). -/
  | omci (c : Cmd) (octets : List Byte) (left : Nat)
  /-- INJECT: its frame comes from the host in `left` more ticks (R426). -/
  | inject (c : Cmd) (octets : List Byte) (picks : List Nat) (left : Nat)
deriving DecidableEq, Repr

/-- What a command in execution waits for before it can retire. -/
inductive Wait where
  /-- Its own work; none is done before tick `hold`, at which a failed transfer is made again (R80). -/
  | work (hold : Nat) (w : Work)
  /-- A failed completion write is made again at a tick (R80). -/
  | rewrite (at_ status progress result : Nat)
  /-- SLUICE_SWAP: the next frame boundary of the tree (R108). -/
  | sluiceSwap (tree : Nat)
  /-- MSG_SEND: its message's last octet on every lane (R112); the message's number, and the superframe counter of the
  first frame that carried it. -/
  | message (id sfc : Nat)
  /-- GEN_SWAP: the Oxbow holds no packet of the retiring copy (R106). -/
  | genSwap
  /-- FENCE: with PIPE, packets that entered a pipe before the given tick have their final decisions; with ALLQ, the
  commands listed (queue and sequence number) have retired (R96). -/
  | fence (pipe : Option Nat) (others : List (Nat × Nat))
  /-- TIME_SET with AT_PPS (R464): admission tick and operand. -/
  | pps (admitted seconds nanos : Nat)
  /-- SET_TX: the switch of a key index (R438): the slot, the tree and the target frame. -/
  | setTx (slot tree target : Nat)
  /-- EPOCH_COMMIT: the commit tick (R486). -/
  | epoch
  /-- A class 3 RETIRE: the pseudo-channel holds no page in use (R420). -/
  | pcMove (pc : Nat)
  /-- A class 3 RESTORE: its free list is rebuilt, from the given tick on (R421). -/
  | pcRebuild (pc at_ : Nat)
  /-- A class 4 RETIRE or RESTORE: the row copy (Table 17.3). -/
  | rowCopy (row : Nat)
  /-- INJECT of a frame without classification: its last cell leaves the input (R427). -/
  | inject (pkt : Nat)
  /-- Admitted in the tick of a fatal cause: no effect and no record (R123, R130). -/
  | halted
  /-- All effects done: room in the completion ring (R78). -/
  | room (status progress result : Nat)
deriving DecidableEq, Repr

/-- A command in execution (R73). -/
structure Exec where
  header : Word
  seq : Nat
  progress : Nat
  wait : Wait
  /-- The tick of its admission. -/
  since : Nat
deriving DecidableEq, Repr

/-- What the queue's last completion record said (R80). -/
structure LastCpl where
  header : Word
  /-- CMD_LAST_SEQ before the command retired. -/
  before : Word
  seq : Nat
  status : Nat
  progress : Nat
  result : Nat
deriving DecidableEq, Repr

/-- A command queue beside its page of registers (R68 to R82). -/
structure CmdQueue where
  /-- Next ring word to fetch. -/
  fetch : Nat
  /-- The tail last announced. -/
  tail : Nat
  /-- Fetched words not yet admitted, oldest first (at most 64; R31). -/
  staging : List Word
  /-- Completion records written, modulo 2^16. -/
  cplWr : Nat
  /-- The phase of the next record (R76). -/
  phase : Bool
  /-- Sequence number given last (R74). -/
  seq : Nat
  exec : Option Exec
  /-- Ticks of the retries charged to the queue (R80). -/
  retries : List Nat
  /-- Sequence number and header of the violating command of a frozen queue (R88). -/
  violating : Option (Nat × Word)
  /-- A function-level reset waits for the command in execution to end (R82). -/
  resetDue : Bool
  /-- It stays disabled when that command has ended (R581). -/
  keepDown : Bool
  /-- The tick in which its last command retired (R73). -/
  retiredAt : Option Nat
  /-- The record written last, as long as its write can still fail (R80). -/
  lastCpl : Option LastCpl
  /-- No fetch before this tick (R80). -/
  fetchAt : Nat
deriving DecidableEq, Repr

/-- A table-walk context (R101, R374). -/
structure Walk where
  table : Nat
  /-- Next slot to visit. -/
  slot : Nat
  /-- Keys of entries relocated behind the cursor and not yet returned. -/
  late : List (List Word)
  /-- Keys already returned that lie ahead of the cursor. -/
  dup : List (List Word)
  /-- Tick of the last TBL_NEXT of the walk. -/
  used : Nat
  /-- The cursor by which the host names the walk. -/
  cursor : Word
  /-- Keys returned in this walk (R375). -/
  seen : List (List Word)
deriving DecidableEq, Repr

/-- A record of one of the device's own rings: word 0 without PHASE, the words behind it, and octets behind those. -/
structure RingRec where
  w0 : Word
  rest : List Word
  tail : List Byte
deriving DecidableEq, Repr

/-- One of the device's own rings beside its registers (R270, R599). -/
structure RingUnit where
  /-- Ticks of the retries of its writes. -/
  retries : List Nat
  /-- The next record has PHASE 0. -/
  low : Bool
  /-- Records waiting to be written, oldest first, none before tick `retryAt`. -/
  waiting : List RingRec
  retryAt : Nat
  /-- The record written last, as long as its write can still fail. -/
  last : Option RingRec
deriving DecidableEq, Repr

/-- The command dispatcher (R32, R80, R101). -/
structure CmdUnit where
  queues : SMap CmdQueue
  /-- Tick of the last admission from queue 0, and of the last admission of all (R32). -/
  last0 : Option Nat
  admitted : Option Nat
  /-- The tenant or operator queue served last by the round robin. -/
  rr : Nat
  walks : SMap Walk
  /-- The device's own rings in host memory, by ring number (R270, R599). -/
  rings : SMap RingUnit
deriving DecidableEq, Repr

/-! ### Keys (13) -/

/-- A key slot (Table 13.1). In the line-unicast region KIND is always 1 and OWNER that of the ONU (R430), so these two
fields count for general slots only. -/
structure KeySlot where
  valid : Bool
  kind : Nat
  owner : Nat
  tx : Bool
  encreq : Bool
  key : BitVec 128
deriving DecidableEq, Repr

/-- The key unit beside its registers. -/
structure KeyUnit where
  /-- The queue holding the key-unit lock and the tick at which its lease ends (R113, R448). -/
  lock : Option (Nat × Nat)
  /-- The key store. -/
  slots : SMap KeySlot
  /-- Which draw of the random source gave the XTS key of tenant * 2 + epoch (R442); no command reads the keys. -/
  xts : SMap Nat
deriving DecidableEq, Repr

/-! ### Packets, Confluence and Catchment (12) -/

/-- A destination of a core-port copy (R345). -/
inductive Dest where
  /-- Downstream queue and XGEM port. -/
  | queue (h xgem : Nat)
  /-- Uplink MAC and class. -/
  | mac (m cls : Nat)
  /-- The management punt path. -/
  | punt
deriving DecidableEq, Repr

/-- A core-port copy of a packet: a buffer of cells (R401 to R413). -/
structure Packet where
  /-- The copies of one packet share this number. -/
  grp : Nat
  /-- The octets present so far, FCS included where it is present. -/
  octets : List Byte
  /-- L: octets from the destination address to the FCS. -/
  len : Nat
  /-- The last octet is present, or the packet was cut. -/
  ended : Bool
  input : Nat
  output : Nat
  /-- Partition 8k + c, or 512 for the punt partition. -/
  part : Nat
  /-- Its cells in order; empty once they are freed. -/
  cells : List Nat
  /-- Cells that have left Confluence at the output. -/
  arrived : Nat
  /-- Destinations not yet enqueued. -/
  dests : List Dest
  /-- The reference count of its head cell (R413). -/
  refs : Nat
  /-- Held for the host (R425). -/
  held : Bool
  bad : Bool
  /-- It was cut, so that it ends without its FCS (R403). -/
  cut : Bool
  /-- Its first cell has been dequeued. -/
  dequeued : Bool
  spread : Bool
  /-- PIN_HASH (R357). -/
  hash : Nat
  de : Bool
  /-- Source index (R337). -/
  src : Nat
  /-- Tick of its decision. -/
  decided : Nat
  /-- Punt record fields: REASON, AKIND and INDEX (Table 12.3). -/
  reason : Nat
  akind : Nat
  index : Nat
  /-- Queue entries that hold it in HBM. -/
  spills : Nat
  /-- A packet of the management punt path: its record is due (R424). -/
  punted : Bool
  /-- The arrival that it came from, and the requester class and index of its cells (R409). -/
  arr : Nat
  reqClass : Nat
  reqIndex : Nat
  /-- The trace slot that follows it (R520). -/
  trace : Option Nat
  /-- The queue whose INJECT command it belongs to, while that command is in execution (R427). -/
  inject : Option Nat
deriving DecidableEq, Repr

/-- A cell inside Confluence. -/
structure FCell where
  pkt : Nat
  /-- Its number within the packet. -/
  n : Nat
  input : Nat
  output : Nat
  middle : Nat
  spread : Bool
  /-- Sequence number of a spread cell (R398). -/
  seq : Nat
  /-- The tick of its arrival at the input. -/
  age : Nat
deriving DecidableEq, Repr

/-- Confluence (R394 to R400). -/
structure Confluence where
  /-- Input buffers, oldest first. -/
  inputs : SMap (List FCell)
  /-- Middle queues, by (64 m + o) * 2 + (1 for spread). -/
  middles : SMap (List FCell)
  /-- Next sequence number by 64 i + o, at the input and at the output. -/
  seqIn : SMap Nat
  seqOut : SMap Nat
  /-- Resequencers by output: held cells and the tick since when. -/
  reseq : SMap (List (FCell × Nat))
  /-- The tick of the slot done last. -/
  lastSlot : Option Nat
deriving DecidableEq, Repr

/-- A page of the deep buffer (R414 to R417). -/
structure Page where
  queue : Nat
  tenant : Nat
  epoch : Bool
  fillctr : Nat
  /-- Data octets in it. -/
  fill : Nat
  /-- Packets with octets in it. -/
  pkts : List Nat
  /-- What it holds, in order: a packet, an offset in what is stored of the packet, and a number of octets. -/
  segs : List (Nat × Nat × Nat)
  written : Bool
  /-- Read back on-die (R319). -/
  back : Bool
  /-- An uncorrectable error has hit it (R418, R420). -/
  bad : Bool
  /-- What it stores of packets as they stood when it was written, or when they left (R446). -/
  kept : List (Nat × List Byte)
deriving DecidableEq, Repr

/-- Catchment (R406 to R428). -/
structure Catchment where
  /-- Packets by number. -/
  pkts : SMap (Option Packet)
  /-- The next packet number. -/
  next : Nat
  /-- Cells freed: tick and cell. Those of the present tick cannot be granted yet (R410). -/
  freed : List (Nat × Nat)
  /-- USED released: tick and partition, one entry a cell (R410). -/
  released : List (Nat × Nat)
  /-- Banks whose free list is being rebuilt, each with the tick in which that began (R411). -/
  rebuild : SMap (Option Nat)
  /-- Pages freed: tick, page and tenant. Those of the present tick cannot be allocated yet (R418). -/
  freedPages : List (Nat × Nat × Nat)
  /-- Pages allocated in this tick, in order of allocation (R443). -/
  stamped : List Nat
  pages : SMap (Option Page)
  /-- Pseudo-channels whose listed free pages were abandoned (R416), and pages freed in them since. -/
  lost : SMap Bool
  relisted : SMap Bool
  /-- The pseudo-channel used last (R416). -/
  lastPc : Nat
deriving DecidableEq, Repr

/-! ### Downstream and uplink queues (09) -/

/-- A token bucket below full: its value in 10^-6 bit at a tick, and the tick at which its calendar slot makes it
available again, and at which it moves from the coarse wheel to the fine one (R324, R328). -/
structure Bucket where
  val : Int
  at_ : Nat
  slot : Option Nat
  coarse : Option Nat
deriving DecidableEq, Repr

/-- A packet in a downstream queue. -/
structure QEntry where
  pkt : Nat
  xgem : Nat
  len : Nat
  /-- Its enqueue tick. -/
  at_ : Nat
  /-- The pages that hold it; empty while it is held on-die. -/
  pages : List Nat
deriving DecidableEq, Repr

/-- The dynamic state of a downstream queue (R316 to R319). -/
structure DsQueue where
  /-- Oldest first. -/
  entries : List QEntry
  spilled : Bool
  openPage : Option Nat
  /-- The tick in which an octet was last added to the open page. -/
  lastAdd : Nat
deriving DecidableEq, Repr

/-- A packet in an uplink egress queue. -/
structure EgEntry where
  pkt : Nat
  len : Nat
  /-- Its enqueue tick. -/
  at_ : Nat
deriving DecidableEq, Repr

/-- A gate list in force (R334, R335). Times are network time in ns. -/
structure GateList where
  bank : Nat
  idx : Nat
  len : Nat
  cycle : Nat
  ext : Nat
  /-- Start of cycle 0. -/
  base : Nat
deriving DecidableEq, Repr

/-- The gates of a MAC. -/
structure Gates where
  oper : Option GateList
  /-- The change time of a pending change, network time in ns. -/
  pending : Option Nat
  /-- Network time in ns at which it was asked for. -/
  asked : Nat
deriving DecidableEq, Repr

/-- A packet whose first cell has been dequeued and whose last has not (R402). -/
inductive Going where
  /-- Towards lane `l` of tree `t`, from queue `h`. -/
  | lane (t l h : Nat) (e : QEntry)
  /-- Towards MAC `m`, from one of its egress queues, selected in tick `at_`. -/
  | mac (m : Nat) (e : EgEntry) (at_ : Nat)
deriving DecidableEq, Repr

/-- Schedulers, egress queues and gates beside their registers. -/
structure DsqUnit where
  queues : SMap DsQueue
  /-- Buckets that are not full. -/
  buckets : SMap (Option Bucket)
  /-- Deficits by parent and child. -/
  deficits : SMap Int
  /-- DWRR pointers by parent and priority. -/
  pointers : SMap Nat
  /-- Egress queues by 8 m + c. -/
  egress : SMap (List EgEntry)
  gates : SMap Gates
  /-- Ticks of the last requests served, by lane, and of the last frame starts, by port. -/
  lastReq : SMap Nat
  lastStart : SMap (List Nat)
  /-- When the line of a MAC is free again, in hundredths of a tick. -/
  lineFree : SMap Nat
  going : List Going
deriving DecidableEq, Repr

/-! ### Tables, parsing and classification (10, 11) -/

/-- A packet waiting for a pipe. -/
structure Arrival where
  /-- Its number, by which later octets find it. -/
  id : Nat
  src : Nat
  octets : List Byte
  len : Nat
  ended : Bool
  bad : Bool
  /-- XGEM port ID on a PON source, and the ONU whose burst carried it. -/
  xgem : Nat
  onu : Nat
  /-- Requester class and index of its cells (R409). -/
  reqClass : Nat
  reqIndex : Nat
  /-- A slow-protocol frame, which is punted whatever its port's default (R191). -/
  slow : Bool
  /-- The trace slot of the burst whose first frame it holds (R522, stage 7). -/
  burst : Option Nat
  /-- The tick in which its parse is done: 4 ticks after its parse window was present (R27). -/
  ready : Option Nat
deriving DecidableEq, Repr

/-- A packet held by the Oxbow (R358 to R363). -/
structure OxPacket where
  arr : Arrival
  /-- The copy stamped on its first entry. -/
  copy : Bool
  oxop : Nat
  /-- The tick in which it first entered a pipe, and that of its first decision. -/
  entered : Nat
  at_ : Nat
  trace : Option Nat
deriving DecidableEq, Repr

/-- A decided packet whose flood list is to be walked (R401). -/
structure Flood where
  arr : Arrival
  /-- First slot and length of the list. -/
  base : Nat
  len : Nat
  /-- The ingress bridge port. -/
  ingress : Option Nat
  cls : Nat
  de : Bool
  hash : Nat
  /-- The generation copy stamped on the packet. -/
  copy : Bool
  trace : Option Nat
  /-- Entries of the list read so far, and the destinations found in them. -/
  next : Nat
  got : List Dest
deriving DecidableEq, Repr

/-- What is asked of a class partition in a tick (R408): the next cell of packet `pkt`, or the first cells of the core-port copies
of a decided packet, in ascending core port, each with the cell that may be popped for it. -/
inductive CellAsk where
  | later (pkt pick : Nat)
  | copies (arr : Arrival) (akind index hash : Nat) (de spread : Bool) (trace : Option Nat) (reason : Nat)
      (copies : List (List Dest × Nat))
  /-- Every cell of the injected packet `pkt`, copied from held buffer `held` (R427). -/
  | whole (pkt : Nat) (held : Option Nat) (picks : List Nat)
deriving DecidableEq, Repr

/-- A request with its requester (R409): class 0 the punt path, 1 an upstream lane, 2 the Oxbow, 3 an uplink MAC; and the index. -/
structure CellReq where
  cls : Nat
  index : Nat
  ask : CellAsk
deriving DecidableEq, Repr

/-- A frame that an uplink MAC is receiving. -/
structure RxFrame where
  octets : List Byte
  /-- 64 octets of it, or its end, have come, and it has been taken or discarded. -/
  judged : Bool
  /-- The arrival that it feeds, unless it was discarded before classification. -/
  arr : Option Nat
  /-- The word of the statistics for a frame refused because of the mode (R135, R142). -/
  refused : Option Nat
deriving DecidableEq, Repr

/-- A request in the learn queue (R383, R384). -/
structure LearnReq where
  bd : Nat
  mac : Nat
  port : Nat
  /-- A move of an entry from another port. -/
  move : Bool
deriving DecidableEq, Repr

/-- The tables reached by command, their sequencers and scanners. -/
structure Tables where
  /-- Indexed tables 0x10 to 0x13: entry words by table * 2^24 + index. -/
  indexed : SMap (List Word)
  /-- Keyed tables 0x01 to 0x04: entry words by table * 2^24 + slot. -/
  keyed : SMap (List Word)
  /-- Generational tables: entry words by (copy * 4 + table - 0x20) * 2^24 + index. -/
  gen : SMap (List Word)
  /-- Slots with an uncorrectable word, by table * 2^24 + slot: they read as invalid (R378). 1: the word that holds VALID
  still reads correctly; 2: it does not. -/
  bad : SMap Nat
  /-- Scrub queues of tables 0x01 to 0x04, oldest first. -/
  scrub : SMap (List Nat)
  /-- The learn queue, oldest first. -/
  learn : List LearnReq
  /-- The request that the learn engine executes, with its insertion (R384). -/
  going : Option (LearnReq × Insertion)
  /-- The aging scanner: next slot, and its visit's time in 2^-22 ticks (R387). -/
  ageSlot : Nat
  ageAt : Nat
  /-- What touches slots of table 0x01 in this tick (R388): slots written by command steps, keys hit, slots visited. -/
  cmdSlots : List Nat
  hits : List (List Word)
  visits : List Nat
  /-- Tables in which a command has worked in this tick (R97, R369). -/
  stepped : List Nat
  /-- Relocations whose first tick is this one: table, old slot, new slot, key (R374). -/
  moved : List (Nat × Nat × Nat × List Word)
  /-- Slots that a scrub step of this tick rewrites, as table and slot (R369, R379). -/
  scrubs : List (Nat × Nat)
  /-- The tick from which the patrol scrubber's periods run (R379). -/
  patrolFrom : Nat
deriving DecidableEq, Repr

/-- A decision under way in a lookup pipe (R342). -/
structure PipeDec where
  pipe : Nat
  /-- The tick in which the packet first entered a pipe, and that in which this decision is delivered. -/
  entered : Nat
  due : Nat
  arr : Arrival
  /-- The copy stamped on its first entry, and whether it is the second pass. -/
  copy : Bool
  second : Bool
  trace : Option Nat
  /-- Which free cell its packet takes. -/
  pick : Nat
  /-- Registers and tables as they stood at the start of its entry tick (R22, R361). -/
  regs : SMap Word
  tbl : Tables
  /-- The port losses of that tick (R195). -/
  portHs : SMap Bool
  portRetry : SMap Bool
deriving DecidableEq, Repr

/-- Classification beside its registers. -/
structure ClsUnit where
  arrivals : List Arrival
  /-- Decisions under way, oldest first. -/
  deciding : List PipeDec
  oxbow : List OxPacket
  /-- The tick of the last generation swap, and its COPY flag (R106, R363). -/
  genAt : Nat
  genCopy : Bool
  floods : List Flood
  /-- The requests for cells made in this tick, oldest first. -/
  requests : List CellReq
  rxs : SMap (Option RxFrame)
  /-- The source served last by the pipe distributor (R343). -/
  rr : Nat
  /-- Arrivals numbered so far. -/
  arrNext : Nat
deriving DecidableEq, Repr

/-! ### Trees and lanes (05) -/

/-- An outgoing message of a lane (R110 to R112). -/
structure Msg where
  /-- The message's number; copies on two lanes share it. -/
  id : Nat
  /-- 0 PLOAM unicast, 1 PLOAM broadcast, 2 OMCI. -/
  kind : Nat
  handle : Nat
  octets : List Byte
  /-- Octets framed so far. -/
  sent : Nat
deriving DecidableEq, Repr

/-- Whose key serves a downstream frame (R432, R433): that of an ONU, that of the group pair which its XGEM port names when the frame
is sent, or none. -/
inductive KeySrc where
  | none
  | onu (h : Nat)
  | group
deriving DecidableEq, Repr

/-- What is left of an SDU whose first fragments have been sent on a lane (R166, R170). -/
structure Carry where
  port : Nat
  braided : Bool
  key : KeySrc
  /-- A two-lane flow, for the counter block on lane 1 (R436). -/
  twoLane : Bool
  octets : List Byte
  /-- The OMCI message that it is (R112). -/
  msg : Option Nat
deriving DecidableEq, Repr

/-- The frame that a lane sends: its superframe counter, PON-ID and PAIR, and the FS octets so far (R162 to R165). -/
structure LineFrame where
  sfc : Nat
  ponid : Nat
  pair : Bool
  octets : List Byte
deriving DecidableEq, Repr

/-- An item that a run placed on a lane (R211 to R224). -/
structure Item where
  start : Nat
  size : Nat
  /-- 0 grant, 1 quiet window, 2 ranging window. -/
  kind : Nat
  /-- Allocation handle of a grant, and its Alloc-ID. -/
  alloc : Nat
  allocId : Nat
  /-- ONU handle of a grant or ranging window. -/
  onu : Nat
  rate : Nat
  /-- Overhead blocks of its rate, and the first block of the burst it belongs to. -/
  ovh : Nat
  first : Nat
  dbru : Bool
  ploamu : Bool
  fwi : Bool
  sn : Bool
  rssi : Bool
  /-- The trace slot of its burst (R521). -/
  trace : Option Nat
deriving DecidableEq, Repr

/-- One lane of a run (R211). -/
structure RunLane where
  cur : Nat
  items : List Item
  resv : List (Nat × Nat)
  /-- The last flowing item: a grant or not, its ONU, its end. -/
  last : Option (Bool × Nat × Nat)
deriving DecidableEq, Repr

/-- What a run observes, as it stood at the start of its boundary tick (R200). -/
structure Snap where
  regs : SMap Word
  indexed : SMap (List Word)
  allocs : SMap (Option (Nat × Nat))
  buckets : SMap Nat
  mode : Mode
  /-- Lanes in service. -/
  lanes : Nat
  /-- Network time in whole ns. -/
  nt : Nat
  /-- The run's number in the drain in progress, 0 outside one (R143). -/
  drainRun : Nat
deriving DecidableEq, Repr

/-- A run in progress (R198, R199). -/
structure Run where
  bound : Nat
  sfc : Nat
  snap : Snap
  bank : Nat
  pc : Nat
  steps : Nat
  lane : Nat
  l0 : RunLane
  l1 : RunLane
  /-- Loops in progress, innermost first: word of the body, iterations left after this one, iteration number. -/
  loops : List (Nat × Nat × Nat)
  prog : Nat
  /-- Lane time of the last grant placed (R230). -/
  lastL : Nat
  /-- A MARK with TAGNEXT waits for the next grant: its MARK_ID (R232). -/
  tagNext : Option Nat
deriving DecidableEq, Repr

/-- The maps of a run, waiting for the frame that carries them. -/
structure PendMap where
  sfc : Nat
  /-- The boundary tick of the run. -/
  placed : Nat
  upOffset : Nat
  items0 : List Item
  items1 : List Item
deriving DecidableEq, Repr

/-- A written burst or window that a burst receiver expects. -/
structure Expect where
  /-- When its upstream frame begins at the OLT (R202, R497), in 1/31,104 ns. -/
  base : Nat
  /-- Superframe counter of the frame that carried the map. -/
  sfc : Nat
  /-- Its grants in START order, or the one window. -/
  items : List Item
  /-- Where the lane time of the previous written item on the lane ends. -/
  prevEnd : Int
  /-- 0 waiting, 1 accepted, 2 over, 3 a ranging window that has had its record. -/
  state : Nat
  /-- Candidates rejected by their header. -/
  rejected : Nat
  /-- BRX_PIN and LOSS_N as they stand for it: writes before its search opens apply to it (R310). -/
  prm : Word
  lossN : Nat
  /-- Where the first delimiter accepted in it begins (R284), and where the lane times of its accepted responses end (R283). -/
  delim : Option Nat
  fins : List Nat
  /-- Measured Delta in u / 625, once accepted. -/
  delta : Int
  /-- Its elements that have left the decoder (R293). -/
  next : Nat
  /-- The tick of the placing run. -/
  placed : Nat
deriving DecidableEq, Repr

/-- A response accepted in a QUIET window whose PLOAM codeword has not left the decoder (R291). -/
structure Answer where
  /-- The line position of its first block, and of the end of its lane time. -/
  begins : Nat
  fin : Nat
  rate : Nat
  /-- Superframe counter of the frame that carried its grant. -/
  sfc : Nat
  /-- Delta against the grant's START, in u / 625. -/
  delta : Int
deriving DecidableEq, Repr

/-- A report that has left the decoder and not been stamped (R30). -/
structure ReportIn where
  alloc : Nat
  occ : Nat
  /-- When it left the decoder, in 1/311,040 ns. -/
  out : Nat
  trace : Option Nat
deriving DecidableEq, Repr

/-- A PLOAM message that has left the decoder. -/
structure PloamIn where
  /-- 0 of a grant, 1 of a QUIET window, 2 of a RANGEW window. -/
  kind : Nat
  onu : Nat
  /-- The line position of its codeword, which stamps the record. -/
  at_ : Nat
  rate : Nat
  delta : Int
  msg : List Byte
deriving DecidableEq, Repr

/-- Delineation of the payload of an allocation (R296). -/
structure Delin where
  /-- The burst's upstream frame and the allocation's first block. -/
  base : Nat
  start : Nat
  /-- Octets of the whole payload. -/
  n : Nat
  /-- The octets from payload offset `from_` on that have left the decoder. -/
  from_ : Nat
  buf : List Byte
  c : Nat
  /-- The pending frame: its offset and header. -/
  pending : Option (Nat × BitVec 64)
  tentative : Bool
  /-- The pending frame ends with the payload. -/
  closing : Bool
deriving DecidableEq, Repr

/-- An XGEM frame that delineation has released, still encrypted. -/
structure XgemIn where
  onu : Nat
  /-- START of its allocation, and the superframe counter of the map's frame. -/
  start : Nat
  sfc : Nat
  rate : Nat
  port : Nat
  keyIndex : Nat
  options : Nat
  lf : Bool
  pli : Nat
  /-- Payload offset of its header. -/
  pos : Nat
  payload : List Byte
  /-- The line position of the end of its last octet. -/
  last : Nat
  /-- When it is decrypted, in 1/311,040 ns. -/
  ready : Nat
  /-- The key that it is decrypted under, once it has been read; none within where its key index selects no valid key (R435). -/
  key : Option (Option (BitVec 128))
  trace : Option Nat
deriving DecidableEq, Repr

/-- An optics pin, PBRST or PRSSI: its level, and the tick up to which its edges have been driven. -/
structure Pin where
  high : Bool
  till : Nat
deriving DecidableEq, Repr

/-- An upstream SDU of which more fragments are to come (R300). -/
structure Sdu where
  lane : Nat
  port : Nat
  braided : Bool
  onu : Nat
  /-- The arrival that it feeds. -/
  arr : Nat
  /-- Tick of its last fragment. -/
  at_ : Nat
deriving DecidableEq, Repr

/-- An upstream XGEM frame in the deskew buffer (R302 to R305). -/
structure DskFrame where
  bseq : Nat
  expires : Nat
  /-- The last tick in which it can enter the buffer. -/
  enterBy : Nat
  lane : Nat
  onu : Nat
  lf : Bool
  len : Nat
  octets : List Byte
  /-- The trace slot of its burst, where it is that burst's first frame. -/
  burst : Option Nat
deriving DecidableEq, Repr

/-- A braided upstream sequence. -/
structure DskSeq where
  /-- Last released BSEQ; none where the sequence has no state. -/
  last : Option Nat
  /-- The entry that last delivered to it. -/
  onu : Nat
  held : List DskFrame
deriving DecidableEq, Repr

/-- A wavelength lane of a tree. -/
structure Lane where
  retired : Bool
  /-- A signal loss at the line is in force. -/
  lineLoss : Bool
  /-- The lane-receive island's handshake is lost. -/
  handshake : Bool
  /-- Out of service during a retry (Table 17.2). -/
  retrying : Bool
  /-- The tick at whose end the lane became usable again; it returns at the first boundary 20,000 ticks later (R159). -/
  returnAt : Option Nat
  /-- Transmit position: the FS-frame octet of the next XGEM frame (R170). -/
  txPos : Nat
  /-- The frame being sent; none before the lane's first boundary. -/
  frame : Option LineFrame
  carry : Option Carry
  /-- PLOAM messages that the present frame still has to take. -/
  ploams : Nat
  /-- Written bursts and windows to be received, oldest first. -/
  expects : List Expect
  /-- What has been accepted or decoded and not yet been dealt with, oldest first. -/
  answers : List Answer
  reports : List ReportIn
  ploamIn : List PloamIn
  delin : Option Delin
  released : List XgemIn
  /-- PBRST and PRSSI (R283 to R285). -/
  brst : Pin
  rssi : Pin
  /-- Braided frames on their way into the deskew buffer: XGEM port, reserved BTYPE, frame. -/
  toDeskew : List (Nat × Bool × DskFrame)
  msgs : List Msg
  /-- Changes of the clock of the lane-receive island, newest first: the tick and the rate of the burst (Table 1.2). -/
  clocks : List (Nat × Nat)
deriving DecidableEq, Repr

/-- A tree. -/
structure Tree where
  retired : Bool
  handshake : Bool
  retrying : Bool
  /-- ENABLE has been cleared and the stopping boundary is not reached (R178). -/
  stopping : Bool
  /-- The tree has reached its stopping boundary of a drain (R146). -/
  drained : Bool
  /-- The tick in which it last came into service; it sends from the first boundary 20,000 ticks later (R138). -/
  since : Option Nat
  /-- It sends frames. -/
  sending : Bool
  /-- Off its grid: a boundary's network time in 2^-40 ns and that frame's counter (R472). -/
  offgrid : Option (Nat × Nat)
  /-- The present frame, where the grid has changed in it (R472): its counter, its boundary, and the next boundary of the new grid. -/
  held : Option (Nat × Nat × Nat)
  /-- The tick of the last boundary dealt with. -/
  lastBoundary : Option Nat
  /-- The PON-ID of the present frame (R181). -/
  ponid : Nat
  /-- Next downstream BSEQ by XGEM port (R168). -/
  bseq : SMap Nat
  /-- The tick of the last invalidation of its line keys (R440). -/
  invalAt : Option Nat
  run : Option Run
  /-- A reversion to the other bank is due at the next boundary (R241). -/
  revert : Bool
  maps : List PendMap
  /-- Runs made since DRAIN took effect (R143), and the tick in which the upstream frame of its last granting run has ended
  (R146). -/
  drainRuns : Nat
  drainEnd : Nat
  /-- Ticks (plus 1) of the last ADMIT or REMOVE by entry (R268), and of the last ranging measurement by entry * 2 + lane
  (R257). -/
  changed : SMap Nat
  measured : SMap Nat
  sdus : List Sdu
  /-- Deskew sequences by XGEM port. -/
  dsk : SMap DskSeq
  /-- Consecutive lost bursts by entry * 2 + lane (R299), with 2^17 added once a NOTICE is due and 2^16 once it
  has been given. -/
  losses : SMap Nat
  lane0 : Lane
  lane1 : Lane
deriving DecidableEq, Repr

/-! ### The Ohmad ring (15) -/

/-- A timestamp that waits for its instant (R469): the MAC, the instant in 1/256 tick, the compensation in 1/256 ns, and word 0 of its
record. -/
structure Stamp where
  mac : Nat
  at_ : Nat
  comp : Int
  w0 : Word
deriving DecidableEq, Repr

/-- A token that the master has sent and whose copies have not all come back (R483). -/
structure TokenOut where
  seq : Nat
  at_ : Nat
  /-- Nanoseconds from its sending to the return of the last copy so far. -/
  rtt : Nat
  /-- The MACs on which copies were sent that have not come back. -/
  left : List Nat
  /-- A copy came back with TURN. -/
  turned : Bool
  commit : Bool
  /-- ACK and NACK of a commit token: the master's own acceptance, and what copies that came back have added (R487). -/
  ack : Nat
  nack : Nat
  /-- A copy has not come back in time (R483). -/
  late : Bool
deriving DecidableEq, Repr

/-- The ring control unit beside its registers (15). -/
structure Ohm where
  /-- SEQ of the token sent last, and tick of the last periodic one. -/
  seq : Nat
  sentAt : Option Nat
  out : List TokenOut
  /-- SEQs that this member has acted on, newest first. -/
  seen : List Nat
  /-- The tick of the last first copy, or from which one has been awaited. -/
  heardAt : Nat
  /-- The commit time C of the pending commit, in 2^-40 ns. -/
  commit : Option Nat
  /-- Epoch of the digest in progress, and of the completed one. -/
  digRun : Option Nat
  digDone : Option Nat
  /-- Where the digest computation ends at the latest. -/
  digAt : Nat
  /-- Swaps of banks that a commit asked for, by tree (R489). -/
  sluSwap : SMap Bool
  /-- SEQ of the mirror frame sent last, and (ORIGIN, SEQ) of those applied, newest first. -/
  mirSeq : Nat
  mirSeen : List (Nat × Nat)
  /-- What was mirrored last of each entry, key pair and binding. -/
  mirrored : SMap (List Word)
  /-- Tick plus 1 of the last SFC record sent, and of the last refresh, by tree. -/
  sfcSent : SMap Nat
  refreshed : SMap Nat
  /-- The newest SFC or RELEASED record by tree: counter, boundary in 2^-40 ns, tick of its stamp. -/
  sfc : SMap (Option (Nat × Nat × Nat))
  /-- Tick plus 1 from which silence is counted, by tree. -/
  silent : SMap Nat
  /-- Tick plus 1 of the HANDOVER sent, by tree, while RELEASED is awaited. -/
  asked : SMap Nat
  /-- Trees that stop under HANDOVER, or that owe a LOSS record. -/
  releasing : SMap Bool
  /-- Takeovers stamped in the present tick: tree and cause (R499). -/
  taking : List (Nat × Nat)
deriving DecidableEq, Repr

/-! ### Events (16) -/

/-- An event record waiting to be written (Table 16.13), with its full stamp tick. -/
structure EvRec where
  cls : Nat
  code : Nat
  rep : Nat
  tick : Nat
  arg : Word
deriving DecidableEq, Repr

/-- The event unit beside its registers (R526 to R532). -/
structure EvtUnit where
  /-- The alarm queue, oldest first. -/
  alarms : List EvRec
  /-- The staging buffer, oldest first. -/
  staged : List EvRec
  /-- Records dropped since the last GAP record, by class 1 to 3. -/
  gap : SMap Nat
  gapped : Bool
  phase : Bool
  /-- Bits 47:26 of the tick of the last BASE record, if one was written since the ring was configured. -/
  base : Option Nat
  /-- Visible records of classes 1 to 3 not yet signalled on vector 9. -/
  unsignalled : Nat
  /-- Tick at which the oldest of them became visible. -/
  oldest : Option Nat
  /-- The last write failed and is retried at this tick. -/
  retryAt : Option Nat
  /-- No writing until the host has written BASE or SIZE (R581). -/
  parked : Bool
  /-- Tick of the last record written. -/
  wroteAt : Option Nat
  /-- Tick of the last message on vector 8 and on vector 11. -/
  last8 : Option Nat
  last11 : Option Nat
deriving DecidableEq, Repr

/-- A traced item in flight (R520 to R522). -/
structure TraceSlot where
  /-- 0 packet, 1 burst. -/
  kind : Nat
  src : Nat
  len : Nat
  base : Nat
  /-- Ticks after the base of stages 1 to 8. -/
  stages : List (Option Nat)
  dest : Word
  /-- How the item ended, once it has: dropped, bad, timeout. -/
  ended : Option (Bool × Bool × Bool)
deriving DecidableEq, Repr

/-- The counter-dump area (R516 to R519). -/
structure CounterDump where
  /-- Octet address and octets of the area. -/
  area : Nat
  size : Nat
  /-- The period in microseconds; 0: no dumps. -/
  period : Nat
  /-- The tick in which DUMP_CFG retired, and the number of the next dump. -/
  from_ : Nat
  next : Nat
  /-- The dump in progress: its SEQ, its first tick, and FAMILIES. -/
  run : Option (Nat × Nat × Nat)
  /-- Body words read so far (R517); none is read before tick `holdTill`, at which a failed write of it is made again (R599). -/
  done : Nat
  holdTill : Nat
deriving DecidableEq, Repr

/-- The monitor unit beside its registers (16). -/
structure MonUnit where
  dump : CounterDump
  /-- The first tick of the present bandwidth window (R513). -/
  bwFrom : Nat
  /-- The tick of the last change of MON_CTL.RUN (R508). -/
  runAt : Option Nat
  /-- The tick from which CYC counts, by unit (R507). -/
  cyc : SMap Nat
  /-- Octets of the present window by bandwidth point (R513). -/
  bw : SMap Nat
  /-- Trace slots in flight (R521). -/
  traces : SMap (Option TraceSlot)
  /-- Tick + 1 in which a programmable counter last saw an increment, by unit * 8 + counter (R508). -/
  edge : SMap Nat
  /-- Tagging registers of the lookup pipes (R520). -/
  lfsr : SMap Nat
deriving DecidableEq, Repr

/-- What the device puts outside itself. -/
inductive Out where
  /-- Words written to host memory in 8-octet slots from an octet address. -/
  | hostWords (addr : Nat) (words : List Word)
  /-- Octets written to host memory. -/
  | hostOctets (addr : Nat) (octets : List Byte)
  /-- An MSI-X message of a function (0 the PF). -/
  | msix (function vector : Nat)
  /-- The outcome of a command on the service processor's port. -/
  | spDone (status progress result : Nat)
  /-- A downstream frame begins on a lane: superframe counter, PON-ID, PAIR, map entries. -/
  | dsFrame (tree lane sfc ponid : Nat) (pair : Bool) (map : List (BitVec 64))
  /-- A PLOAM message in the frame of a superframe counter. -/
  | ploam (tree lane sfc : Nat) (octets : List Byte)
  /-- An XGEM frame: its place in the FS frame, PLI, port, key index, last fragment, Options and payload as sent. -/
  | xgem (tree lane sfc pos pli port keyIndex : Nat) (lf : Bool) (options : Nat) (payload : List Byte)
  /-- The symbols of a TORRENT lane frame on the line, PAM4 levels in sending order (R161). -/
  | pam4 (tree lane sfc : Nat) (levels : List Nat)
  /-- The octets of a G.9804.2 lane frame on the line. -/
  | nrz (tree lane sfc : Nat) (octets : List Byte)
  /-- A frame on lanes of an uplink port from MAC `m`; `poisoned` marks one ended with error characters (R405); `at_` is when
  its first bit is at the balls, in tenths of a nanosecond. -/
  | macFrame (m : Nat) (lanes : List Nat) (octets : List Byte) (poisoned : Bool) (at_ : Nat)
  /-- The header and the data octets of a page as written to HBM, the data encrypted (R415, R441). -/
  | hbmPage (page : Nat) (octets : List Byte)
  /-- A level driven on a pin: 0 PTXDIS, 1 PBRST, 2 PRSSI (index 2t + l), 3 PPS_OUT, 4 THERMTRIP_N, 5 GPIO. -/
  | pin (kind index : Nat) (level : Bool) (tick : Nat)
  /-- The test access port takes control of the pins by instruction `ir`, with the boundary cells as they stand; none for
  HIGHZ (R589). -/
  | tapPins (ir : Nat) (cells : List Bool)
deriving DecidableEq, Repr

/-- The device itself. -/
structure Device where
  /-- Ticks since reset release; TIM_TICK is its value modulo 2^48. -/
  now : Nat
  /-- Network time at the start of the present tick, in units of 2^-40 ns (R460). -/
  nt : Nat
  /-- Network time at the start of the next tick, where a step sets it (R464, R465). -/
  ntSet : Option Nat
  /-- How network time ran before its last steps and changes of rate, newest first: the tick of the change, network time at that tick's
  start, and what a tick gained. -/
  ntWas : List (Nat × Nat × Nat)
  /-- Timestamps that wait for their instants. -/
  stamps : List Stamp
  /-- Tick of the last 1PPS input edge that was stamped (R467). -/
  ppsAt : Option Nat
  /-- Tick of the last 1PPS output instant dealt with, and the tick at which the pin is low again (R466). -/
  ppsOut : Option Nat
  ppsLow : Nat
  /-- Register words by word address; an unlisted word reads as its factory default. -/
  regs : SMap Word
  /-- Effective defaults that the REGDEF section supplies (R557). -/
  regdef : SMap Word
  mode : Mode
  prevMode : Mode
  /-- Tick in which the present mode was entered. -/
  modeTick : Nat
  drainLimited : Bool
  drain : Option Drain
  sp : Sp
  flt : FaultUnit
  board : Board
  img : ImgUnit
  tap : Tap
  cmd : CmdUnit
  evt : EvtUnit
  key : KeyUnit
  mon : MonUnit
  cfl : Confluence
  cat : Catchment
  dsq : DsqUnit
  cls : ClsUnit
  tbl : Tables
  trees : SMap Tree
  /-- Allocation handle to the ONU handle and Alloc-ID that it is bound to (R255). -/
  allocs : SMap (Option (Nat × Nat))
  /-- Report buckets by allocation handle, 4 bits each (R204). -/
  buckets : SMap Nat
  /-- Bucket writes of reports: tick, handle, value before and lane; those of earlier ticks go (R200, R206). -/
  bucketWas : List (Nat × Nat × Nat × Nat)
  /-- HBM counter sets by (family * 2^20 + set) * 12 + word (R515); family 6 holds the drops of uplink egress queue 8 m + c, at its
  limit (word 0) and for want of a cell (word 1) (R332, R408). -/
  sets : SMap Nat
  ohm : Ohm
  /-- Messages numbered so far. -/
  msgNext : Nat
deriving DecidableEq, Repr

/-- A piece of state that several happenings of one tick can write (R476): a register word, a slot of a keyed table, an entry of an
indexed or of a generational table, a key slot; each by where it is held. -/
inductive Place where
  | reg (a : Nat)
  | keyed (k : Nat)
  | indexed (k : Nat)
  | gen (k : Nat)
  | slot (n : Nat)
deriving DecidableEq, Repr

/-- The state of the machine. -/
structure State extends Device where
  /-- Waiting commands and events, first in, first out. -/
  pending : List Instr
  /-- What the device has put outside itself, newest first. -/
  out : List Out
  /-- Where the next free value is read. -/
  free : Nat
  /-- The device as it stood at the start of the present tick (R21). -/
  start : Device
  /-- What happenings of levels 1 to 7 have written in the present tick, with the level (R475, R476). -/
  claims : List (Place × Nat)
deriving DecidableEq, Repr

/-- A queue right after a queue reset (R68). -/
def CmdQueue.fresh : CmdQueue :=
  { fetch := 0, tail := 0, staging := [], cplWr := 0, phase := true, seq := 0, exec := none, retries := [],
    violating := none, resetDue := false, keepDown := false, retiredAt := none, lastCpl := none, fetchAt := 0 }

/-- A ring to which nothing has been written. -/
def RingUnit.fresh : RingUnit := { retries := [], low := false, waiting := [], retryAt := 0, last := none }

/-- The event unit with nothing waiting. -/
def EvtUnit.fresh : EvtUnit :=
  { alarms := [], staged := [], gap := [], gapped := false, phase := true, base := none, unsignalled := 0,
    oldest := none, retryAt := none, parked := false, wroteAt := none, last8 := none, last11 := none }

/-- Confluence holding no cell. -/
def Confluence.fresh : Confluence :=
  { inputs := [], middles := [], seqIn := [], seqOut := [], reseq := [], lastSlot := none }

/-- Catchment holding nothing. -/
def Catchment.fresh : Catchment :=
  { pkts := [], next := 0, freed := [], released := [], rebuild := [], freedPages := [], stamped := [], pages := [], lost := [], relisted := [], lastPc := 255 }

/-- Every downstream and egress queue empty, every bucket full, no gate list in force. -/
def DsqUnit.fresh : DsqUnit :=
  { queues := [], buckets := [], deficits := [], pointers := [], egress := [], gates := [], lastReq := [],
    lastStart := [], lineFree := [], going := [] }

/-- A lane in working order with nothing to send. -/
def Lane.fresh : Lane :=
  { retired := false, lineLoss := false, handshake := false, retrying := false, returnAt := none, txPos := 0,
    frame := none, carry := none, ploams := 0, expects := [], answers := [], reports := [], ploamIn := [], delin := none, released := [],
    brst := { high := false, till := 0 }, rssi := { high := false, till := 0 }, toDeskew := [], msgs := [], clocks := [] }

/-- A tree not in service, aligned to its grid. -/
def Tree.fresh : Tree :=
  { retired := false, handshake := false, retrying := false, stopping := false, drained := false, since := none,
    sending := false, offgrid := none, held := none, lastBoundary := none, ponid := 0, bseq := [], invalAt := none, run := none, revert := false,
    maps := [], drainRuns := 0, drainEnd := 0, changed := [], measured := [], sdus := [], dsk := [], losses := [], lane0 := Lane.fresh,
    lane1 := Lane.fresh }

/-- An empty downstream queue. -/
def DsQueue.fresh : DsQueue := { entries := [], spilled := false, openPage := none, lastAdd := 0 }

/-- An empty key slot. -/
def KeySlot.fresh : KeySlot :=
  { valid := false, kind := 0, owner := 0, tx := false, encreq := false, key := 0 }

/-- A ring control unit that has neither sent nor heard anything. -/
def Ohm.fresh : Ohm :=
  { seq := 0, sentAt := none, out := [], seen := [], heardAt := 0, commit := none, digRun := none, digDone := none,
    digAt := 0, sluSwap := [], mirSeq := 0, mirSeen := [], mirrored := [], sfcSent := [], refreshed := [],
    sfc := [], silent := [], asked := [], releasing := [], taking := [] }

/-- The monitor with no dump area and nothing traced. -/
def MonUnit.fresh : MonUnit :=
  { dump := { area := 0, size := 0, period := 0, from_ := 0, next := 1, run := none, done := 0, holdTill := 0 }, bwFrom := 0, runAt := none, cyc := [], bw := [],
    traces := [], edge := [], lfsr := [] }

/-- An erased flash and unblown fuses. -/
def ImgUnit.fresh : ImgUnit :=
  { flash := [], key := none, fwMin := 0, imgMin := 0, op := none, fwRb := 0, rbs := [] }

/-- The machine in the tick of reset release: SPRING, tick 0, network time 0, every register at its factory default,
nothing queued anywhere. -/
def Device.reset : Device :=
  { now := 0, nt := 0, ntSet := none, ntWas := [], stamps := [], ppsAt := none, ppsOut := none, ppsLow := 0, regs := [], regdef := [], mode := .spring,
    prevMode := .spring, modeTick := 0, drainLimited := false, drain := none,
    sp := { req := none, resetTill := 0, held := false, expiries := [], expiryCount := 0, started := 0, lastAdmission := none,
            romFw := false, fwVersion := 0, policy := [] },
    flt := { hist := [], retries := [], rows := [], copying := [], pipes := [], pipeRetry := [], portRetry := [], portHs := [], hbmLost := [], uncorr := [],
             log := [], dump := { fatal := false, further := 0, toFlash := false, area := none, flash := [] } },
    board := { inReset := false, railsLow := [], perst := false, msixOn := true, railOut := [], tempOut := [],
               warned := [], thermtrip := false, gpioIn := 0, straps := 0, softAt := none, resetLow := false },
    img := ImgUnit.fresh,
    tap := { ir := 1, dr := List.replicate 1873 false, tdo := [], drives := false },
    cmd := { queues := [], last0 := none, admitted := none, rr := 0, walks := [], rings := [] },
    evt := EvtUnit.fresh,
    key := { lock := none, slots := [], xts := [] }, mon := MonUnit.fresh,
    cfl := Confluence.fresh, cat := Catchment.fresh, dsq := DsqUnit.fresh,
    cls := { arrivals := [], deciding := [], oxbow := [], genAt := 0, genCopy := false, floods := [], requests := [], rxs := [], rr := 0, arrNext := 0 },
    tbl := { indexed := [], keyed := [], gen := [], bad := [], scrub := [], learn := [], going := none, ageSlot := 0, ageAt := 0,
             cmdSlots := [], hits := [], visits := [], stepped := [], moved := [], scrubs := [], patrolFrom := 0 },
    trees := [], allocs := [], buckets := [], bucketWas := [], sets := [], ohm := Ohm.fresh, msgNext := 0 }

/-- The machine in the tick of reset release. -/
def State.reset : State :=
  { toDevice := Device.reset, pending := [], out := [], free := 0, start := Device.reset, claims := [] }

end Sys2Proof.Machine
end

