-- ==== Sys2Proof/Machine/Ops.lean ====
section
/-! DEFINITION. The named operations over registers, time, free values, outputs, events and alarms. -/

namespace Sys2Proof.Machine

/-! ### Register words -/

/-- Word `a` as stored. -/
def State.raw (s : State) (a : Nat) : Word := smGet regFactory s.regs a

/-- Field [hi:lo] of word `a` as stored. -/
def State.rf (s : State) (a hi lo : Nat) : Nat := fld (s.raw a) hi lo

/-- Bit `i` of word `a` as stored. -/
def State.rb (s : State) (a i : Nat) : Bool := bitOf (s.raw a) i

/-- Store word `a`. -/
def State.setReg (s : State) (a : Nat) (w : Word) : State := { s with regs := smSet regFactory s.regs a w }

/-- Store words from `a` on. -/
def State.setRegs (s : State) (a : Nat) (ws : List Word) : State :=
  { s with regs := smSetList regFactory s.regs a ws }

/-- Store a value in field [hi:lo] of word `a`. -/
def State.setRf (s : State) (a hi lo v : Nat) : State := s.setReg a (setFld (s.raw a) hi lo v)

/-- Add to the counter word `a`, modulo 2^48 (R83). -/
def State.bump (s : State) (a n : Nat) : State := s.setReg a (s.raw a + toWord n)

/-- The state with the device as it stood at the start of the present tick, as every read of this tick sees it (R21). -/
def State.atStart (s : State) : State := { s with toDevice := s.start }

/-- A happening of level `lvl` has written `ps` in this tick: what lower levels write there is lost (R476). -/
def State.claim (s : State) (lvl : Nat) (ps : List Place) : State :=
  { s with claims := ps.map (fun p => (p, lvl)) ++ s.claims }

/-- A happening of levels 1 to 7 has written word `a` in this tick. -/
def State.claimsWord (s : State) (a : Nat) : Bool := s.claims.any (fun x => x.1 == .reg a)

/-- An uncorrectable memory error has struck `p` in this tick (level 4). -/
def State.struck (s : State) (p : Place) : Bool := s.claims.contains (p, 4)

/-- `t` with what `u` holds at a place. -/
def State.putBack (t u : State) : Place → State
  | .reg a => t.setReg a (u.raw a)
  | .keyed k =>
    { t with tbl := { t.tbl with
        keyed := smSet (fun _ => []) t.tbl.keyed k (smGet (fun _ => []) u.tbl.keyed k),
        bad := smSet (fun _ => 0) t.tbl.bad k (smGet (fun _ => 0) u.tbl.bad k) } }
  | .indexed k =>
    { t with tbl := { t.tbl with indexed := smSet (fun _ => []) t.tbl.indexed k (smGet (fun _ => []) u.tbl.indexed k) } }
  | .gen k => { t with tbl := { t.tbl with gen := smSet (fun _ => []) t.tbl.gen k (smGet (fun _ => []) u.tbl.gen k) } }
  | .slot n =>
    { t with key := { t.key with
        slots := smSet (fun _ => KeySlot.fresh) t.key.slots n (smGet (fun _ => KeySlot.fresh) u.key.slots n) } }

/-- `t`, which happenings of level 8 made of `u`: what higher levels have written in this tick stands (R35, R476). -/
def State.keepClaims (u t : State) : State := u.claims.foldl (fun t x => t.putBack u x.1) t

/-- Word `a` holds a credit counter of a tree (R230). -/
def creditWord (a : Nat) : Bool :=
  Nat.ble 0x100000 a && Nat.blt a 0x900000 && Nat.ble 0x1100 (a % 0x10000) && Nat.blt (a % 0x10000) 0x1200

/-- The register words when no write of levels 6 to 11 of this tick has taken effect: of what comes before a fatal cause in its
tick, commits and takeovers write words at level 6, runs write credit counters, and a step of network time writes SET (R478). -/
def State.undoneRegs (s : State) : SMap Word :=
  let l := s.claims.filterMap (fun x =>
    match x with
    | (.reg a, 6) => some a
    | _ => none)
  let c := ((s.regs ++ s.start.regs).map (·.1)).filter (fun a => (creditWord a || a == 0x80003) && !s.struck (.reg a))
  (l ++ c).foldl (fun r a => smSet regFactory r a (smGet regFactory s.start.regs a)) s.regs

/-- Tree `u` on the grid of `w`: a step of network time has not moved it. -/
def Tree.regrid (u w : Tree) : Tree := { u with offgrid := w.offgrid, held := w.held, invalAt := w.invalAt }

/-- The trees on the grids that they had at the start of the tick. -/
def State.undoneTrees (s : State) : SMap Tree :=
  s.trees.foldl (fun m x =>
    smSet (fun _ => Tree.fresh) m x.1 (x.2.regrid (smGet (fun _ => Tree.fresh) s.start.trees x.1))) s.trees

/-- The state without what levels 6 to 11 have written in this tick; what memory errors have written stands (R478). -/
def State.undone (s : State) : State :=
  let t : State :=
    { s with regs := s.undoneRegs, ntSet := s.start.ntSet, key := s.start.key, cfl := s.start.cfl, cat := s.start.cat,
             dsq := s.start.dsq, cls := s.start.cls, tbl := s.start.tbl, trees := s.undoneTrees, allocs := s.start.allocs,
             buckets := s.start.buckets, bucketWas := s.start.bucketWas, ohm := s.start.ohm, mode := s.start.mode,
             prevMode := s.start.prevMode, modeTick := s.start.modeTick, drain := s.start.drain,
             drainLimited := s.start.drainLimited }
  (s.claims.filter (fun x => Nat.ble x.2 5)).foldl (fun t x => t.putBack s x.1) t

/-! ### Word addresses (Tables 2.3 and 2.4) -/

/-- Word `off` of the page of queue `q`. -/
def adQueue (q off : Nat) : Nat := 0x10000 + q * 0x40 + off

/-- Word `off` of the window of tree `t`. -/
def adTree (t off : Nat) : Nat := 0x100000 + t * 0x10000 + off

/-- Word `off` of the window of uplink port `p`. -/
def adPort (p off : Nat) : Nat := 0xA0000 + p * 0x800 + off

/-! ### Modes -/

/-- The code of a mode (Table 4.1). -/
def Mode.code : Mode → Nat
  | .spring => 0 | .still => 1 | .flow => 2 | .weir => 3 | .drain => 4 | .dry => 5

/-- The mode of a TARGET, where it names one. -/
def modeOfCode : Nat → Option Mode
  | 0 => some .spring | 1 => some .still | 2 => some .flow | 3 => some .weir | 4 => some .drain | 5 => some .dry
  | _ => none

/-- The core island runs: not in reset and not in DRY (R149). -/
def State.running (s : State) : Bool := !s.board.inReset && s.mode != .dry

/-- A fatal cause has been stamped in this tick (R548, R549). -/
def State.fatalNow (s : State) : Bool :=
  !s.board.inReset && s.mode == .dry && s.start.mode != .dry && s.modeTick == s.now + 1

/-- Happenings of levels 3 to 5 and 12 are recorded: in the tick of a fatal cause too (R478). -/
def State.records (s : State) : Bool := s.running || s.fatalNow

/-- Trees can be in service: FLOW, WEIR or DRAIN (R159). -/
def State.serving (s : State) : Bool := s.running && (s.mode == .flow || s.mode == .weir || s.mode == .drain)

/-- Traffic runs: FLOW, WEIR or DRAIN at the start of the tick (Table 4.4, R21). -/
def State.traffic (s : State) : Bool :=
  s.running && (s.start.mode == .flow || s.start.mode == .weir || s.start.mode == .drain)

/-! ### Time (14) -/

/-- What network time gains in one tick, in 2^-40 ns (R460). -/
def State.ntStep (s : State) : Nat := ((2 ^ 40 : Nat) + signed 32 (s.rf 0x80004 31 0) : Int).toNat

/-- Network time at the start of the next tick (R460, R464). -/
def State.nextNt (s : State) : Nat := s.ntSet.getD (s.nt + s.ntStep)

/-! ### Resets (R53, R459, R460, R542, R555, R582) -/

/-- The bits of word `a` that a soft reset leaves as they are: RWS fields, GLB_DUMP, TIM SET, and retirement. -/
def softKept (a : Nat) : Word :=
  if 0x220 ≤ a ∧ a ≤ 0x222 then maskOf 47 0
  else if a = 0x80003 then maskOf 1 1
  else if 0xA0000 ≤ a ∧ a < 0xB0000 ∧ a % 0x800 = 1 then maskOf 16 16
  else if 0x1E00000 ≤ a ∧ a < 0x1E00100 then maskOf 19 19
  else regKeepMask a

/-- What a soft reset leaves of a tree. -/
def Tree.afterSoft (u : Tree) : Tree :=
  { Tree.fresh with
    retired := u.retired, lane0 := { Lane.fresh with retired := u.lane0.retired },
    lane1 := { Lane.fresh with retired := u.lane1.retired } }

/-- What a soft reset leaves of the register words. -/
def softRegs (m : SMap Word) : SMap Word :=
  m.foldl (fun r x => smSet regFactory r x.1 (merge (regFactory x.1) (softKept x.1) x.2)) []

/-- A soft reset begins (R53, R542, R554, R582): SPRING runs from step 2; the clocks, what R542 and R555 name, the flash,
the fuses and the board stay as they are. -/
def State.softReset (s : State) : State :=
  let lit := (s.trees.filter (fun x => x.2.since.isSome || x.2.sending)).map (·.1)
  let r : State := { State.reset with
    pending := s.pending, out := s.out, free := s.free, now := s.now, nt := s.nt, ntSet := s.ntSet, ntWas := s.ntWas, ppsAt := s.ppsAt,
    ppsOut := s.ppsOut, ppsLow := s.ppsLow, regs := softRegs s.regs, modeTick := s.now,
    sp := { State.reset.sp with started := s.now },
    flt := { State.reset.flt with
      hist := s.flt.hist, rows := s.flt.rows, pipes := s.flt.pipes, log := s.flt.log,
      dump := { State.reset.flt.dump with flash := s.flt.dump.flash } },
    mon := { MonUnit.fresh with cyc := (List.range 22).foldl (fun m u => smSet (fun _ => 0) m u s.now) [] },
    board := { s.board with softAt := none }, img := { s.img with op := none }, tap := s.tap,
    trees := s.trees.foldl (fun m x => smSet (fun _ => Tree.fresh) m x.1 x.2.afterSoft) [] }
  let r := if r.rf 0x220 47 45 = 1 then r.setRf 0x220 47 45 4 else r
  { r with start := r.toDevice, out := lit.flatMap (fun t => [.pin 0 (2 * t) true s.now, .pin 0 (2 * t + 1) true s.now]) ++ r.out }

/-- The device is in reset: power-on reset, or RESET_N low (R577 to R579). -/
def State.hardReset (s : State) : State :=
  let lit := (s.trees.filter (fun x => x.2.since.isSome || x.2.sending)).map (·.1)
  let r : State := { State.reset with
    pending := s.pending, free := s.free, board := { State.reset.board with
      inReset := true, resetLow := s.board.resetLow, railsLow := s.board.railsLow, perst := s.board.perst,
      msixOn := s.board.msixOn, thermtrip := s.board.thermtrip, gpioIn := s.board.gpioIn, straps := s.board.straps },
    flt := { State.reset.flt with dump := { State.reset.flt.dump with flash := s.flt.dump.flash } },
    img := { s.img with op := none, fwRb := 0, rbs := [] }, tap := s.tap,
    out := lit.flatMap (fun t => [.pin 0 (2 * t) true s.now, .pin 0 (2 * t + 1) true s.now]) ++ s.out }
  { r with start := r.toDevice }

/-! ### Time running -/

/-- Islands of the units that run on the core clock (Table 1.1). -/
def coreUnit (u : Nat) : Bool := !([0, 8, 9, 10, 13, 20, 21] : List Nat).contains u

/-- The clock of the island of a unit, in cycles over ticks (Table 1.2); that of a lane-receive island is `laneClock`. -/
def islandClock (u : Nat) : Nat × Nat :=
  if coreUnit u then (3, 1) else if u = 8 then (85, 64) else if u = 10 then (486, 625) else if u = 20 then (6, 5)
  else (1, 1)

/-- Cycles in 1,250 ticks of the clock of a lane-receive island at a burst rate: 194.4, 388.8 or 777.6 MHz (Table 1.2). -/
def laneClock (rate : Nat) : Nat := if rate = 0 then 243 else if rate = 1 then 486 else 972

/-- Cycles by tick `n` of a lane-receive island, in 1/1250 cycle. DESIGN CHOICE (entry 139): the hold clock of Table 1.2 keeps
the rate of the last burst, and is 777.6 MHz before the first one. -/
def laneCycles (n : Nat) : List (Nat × Nat) → Nat
  | [] => n * laneClock 3
  | (w, rate) :: r => if n ≤ w then laneCycles n r else laneCycles w r + (n - w) * laneClock rate

/-- Cycles of the island of part `i` of unit `u` by tick `n`; the phase of a clock against the ticks is open. -/
def State.islandCycles (s : State) (u i n : Nat) : Nat :=
  if u = 13 then
    let x := smGet (fun _ => Tree.fresh) s.trees (i / 2)
    (laneCycles n (if i % 2 = 0 then x.lane0 else x.lane1).clocks + Config.islandPhase u i % 1250) / 1250
  else (n * (islandClock u).1 + Config.islandPhase u i % (islandClock u).2) / (islandClock u).2

/-- Cycles of that island in the `k` ticks from tick `n`. -/
def State.islandRan (s : State) (u i n k : Nat) : Nat := s.islandCycles u i (n + k) - s.islandCycles u i n

/-- By how many ticks the tick shadow of the island of part `i` of unit `u` lags: at most 2, none in the core (R18). -/
def shadowLag (u i : Nat) : Nat := if coreUnit u then 0 else Config.shadowLag u i % 3

/-- Parts of each unit (Table 16.4). -/
def unitParts (u : Nat) : Nat :=
  ([1, 64, 1, 1, 4, 1, 1, 1, 32, 64, 128, 128, 128, 256, 128, 128, 32, 4, 64, 64, 8, 1] : List Nat).getD u 0

/-- The ticks among the `k` from now on in which the counters of part `i` of unit `u` run: the first of them and their
number. A change of RUN takes effect where the island's tick shadow is later than the write's tick (R18, R508). -/
def State.monSpan (s : State) (u i k : Nat) : Nat × Nat :=
  let c := (s.mon.runAt.map (fun w => w + shadowLag u i + 1)).getD 0
  if s.rb 0x40000 47 then (max s.now c, s.now + k - max s.now c) else (s.now, min (s.now + k) c - s.now)

/-- The tick in which network time `t` falls (R461); the present one where `t` has passed. -/
def State.tickOfNt (s : State) (t : Nat) : Nat :=
  if t < s.nextNt then s.now else s.now + 1 + (t - s.nextNt) / s.ntStep

/-- TIM_TICK (R459). -/
def State.tick48 (s : State) : Nat := s.now % 2 ^ 48

/-- Whole nanoseconds of network time. -/
def State.ntNs (s : State) : Nat := s.nt / 2 ^ 40

/-- Network time from seconds and nanoseconds, in 2^-40 ns. -/
def ntOf (sec ns : Nat) : Nat := (sec * 10 ^ 9 + ns) * 2 ^ 40

/-! ### Free values and outputs -/

/-- A fresh 48-bit value that the spec leaves open. -/
def State.freeWord (s : State) : Word := Config.freeWord s.free

/-- A fresh random key. -/
def State.freeKey (s : State) : BitVec 128 := Config.freeKey s.free

/-- A free value has been used. -/
def State.drew (s : State) : State := { s with free := s.free + 1 }

/-- The device puts `o` outside itself. -/
def State.emit (s : State) (o : Out) : State := { s with out := o :: s.out }

/-! ### Monitor events (R508) -/

/-- One programmable counter of unit `u` sees `n` occurrences of event `ev` in this tick. -/
def State.monOne (s : State) (u inst ev n k : Nat) : State :=
  let b := 0x41000 + 0x20 * u
  let sel := s.raw (b + 2 + k)
  let i := fld sel 44 36
  if bitOf sel 47 && fld sel 7 0 == ev && (i == 0x1FF || i == inst) && n != 0 then
    let seen := smGet (fun _ => 0) s.mon.edge (8 * u + k) == s.now + 1
    let add := if bitOf sel 46 then b2n (!seen) else n
    let old := (s.raw (b + 10 + k)).toNat
    let s := if 2 ^ 48 ≤ old + add then s.setReg (b + 18) (s.raw (b + 18) ||| toWord (2 ^ k)) else s
    let s := s.setReg (b + 10 + k) (toWord (old + add))
    { s with mon := { s.mon with edge := smSet (fun _ => 0) s.mon.edge (8 * u + k) (s.now + 1) } }
  else s

/-- Unit `u`, at its part `inst`, has `n` occurrences of event `ev` in this tick. -/
def State.monEv (s : State) (u inst ev n : Nat) : State :=
  if (s.monSpan u inst 1).2 != 0 then (List.range 8).foldl (fun s k => s.monOne u inst ev n k) s else s

/-- An MSI-X message; none while PERST_N is low or before the host has enabled MSI-X again (R581). -/
def State.msix (s : State) (function vector : Nat) : State :=
  if s.board.perst || !s.board.msixOn then s else (s.emit (.msix function vector)).monEv 21 0 4 1

/-! ### Event records (R526 to R531) -/

/-- The ARG of a record: SET, SRC and DETAIL (Table 16.13). -/
def evArg (set : Bool) (src detail : Nat) : Word := mkWord [(47, b2n set), (24, src % 2 ^ 16), (0, detail % 2 ^ 24)]

/-- The codes marked * in Table 16.14, whose ARG has a layout of its own. -/
def starred (code : Nat) : Bool := [0x080, 0x081, 0x180, 0x1C4, 0x1C6].contains code

/-- The class's drop threshold (R531). -/
def State.dropAt (s : State) (cls : Nat) : Nat :=
  8 * (if cls = 1 then s.rf 0x20008 13 7 else if cls = 2 then s.rf 0x20008 20 14 else s.rf 0x20008 27 21)

/-- A staged record takes a further occurrence of `r`. -/
def coalesces (r m : EvRec) : Bool :=
  m.code == r.code && (starred r.code || fld m.arg 39 24 == fld r.arg 39 24) && Nat.blt m.rep 255

/-- The level of the happening that a record tells of (Table 14.6): DRY and the change to it, violations, memory errors, losses,
commits and switchovers, mode changes, steps of network time. DEDUCED (entry 136): Table 16.14 names no levels; all other records
are of level 12. -/
def evLevel (r : EvRec) : Nat :=
  if r.code = 0x081 then 0
  else if r.code = 0x001 ∨ (r.code = 0x000 ∧ 4 ≤ fld r.arg 2 0) then 2
  else if r.code = 0x041 ∨ r.code = 0x006 then 3
  else if r.code % 64 = 0x20 ∨ r.code = 0x440 ∨ r.code = 0x4C0 ∨ r.code = 0x4C1 then 4
  else if r.code = 0x200 ∨ r.code = 0x282 ∨ r.code = 0x283 ∨ r.code = 0x500 then 5
  else if r.code = 0x1C1 ∨ r.code = 0x1C5 ∨ r.code = 0x1C6 ∨ r.code = 0x1C8 then 6
  else if r.code = 0x000 ∨ r.code = 0x002 then 7
  else if r.code = 0x180 ∨ r.code = 0x181 ∨ r.code = 0x280 then 8
  else 12

/-- The source of a record under R477: the core island by unit, then tree transmit islands, lane-receive islands, uplink port
islands, HBM islands, the host island and the service processor's, each by its index. -/
def evSource (r : EvRec) : Nat :=
  let u := r.code / 64
  let src := fld r.arg 39 24
  if u = 10 then 2 ^ 16 + src else if u = 13 then 2 * 2 ^ 16 + src else if u = 8 then 3 * 2 ^ 16 + src / 8
  else if u = 20 then 4 * 2 ^ 16 + src else if u = 21 then 5 * 2 ^ 16 else if u = 0 ∨ u = 9 then 6 * 2 ^ 16 + u else u

/-- The place of a record among those of its tick (R479). -/
def evRank (r : EvRec) : Nat := evLevel r * 2 ^ 20 + evSource r

/-- Record `r`, of the present tick, among records in the order of R479. -/
def insertRec (r : EvRec) : List EvRec → List EvRec
  | [] => [r]
  | x :: l => if x.tick = r.tick ∧ evRank r < evRank x then r :: x :: l else x :: insertRec r l

/-- Stage a record of class 1 to 3 (R531). -/
def State.stage (s : State) (r : EvRec) : State :=
  let n := s.evt.staged.length
  match (if Nat.ble (8 * s.rf 0x20008 34 28) n then findIdxFrom (coalesces r) s.evt.staged 0 else none) with
  | some i =>
    (({ s with evt := { s.evt with staged := updAt s.evt.staged i (fun m => { m with rep := m.rep + 1 }) } }).bump
      0x20013 1).monEv 2 0 2 1
  | none =>
    if n = 1024 ∨ s.dropAt r.cls ≤ n then
      (({ s with evt := { s.evt with
          gap := smSet (fun _ => 0) s.evt.gap r.cls (smGet (fun _ => 0) s.evt.gap r.cls + 1),
          gapped := true } }).bump (0x2000F + r.cls) 1).monEv 2 0 3 1
    else { s with evt := { s.evt with staged := insertRec r s.evt.staged } }

/-- The record's class is enabled (Table 16.16). -/
def State.evEnabled (s : State) (cls : Nat) : Bool :=
  if cls = 2 then s.rb 0x20004 0 else if cls = 3 then s.rb 0x20004 1 else true

/-- A record of class 1 to 3 stamped now; classes that are not enabled give none. -/
def State.event (s : State) (cls code : Nat) (arg : Word) : State :=
  if s.evEnabled cls then s.stage { cls := cls, code := code, rep := 0, tick := s.now, arg := arg } else s

/-- A FAULT event. -/
def State.fault (s : State) (code src detail : Nat) : State := s.event 1 code (evArg false src detail)

/-- A NOTICE event. -/
def State.notice (s : State) (code src detail : Nat) : State := s.event 2 code (evArg false src detail)

/-- A TRACE event. -/
def State.traceEv (s : State) (code src detail : Nat) : State := s.event 3 code (evArg false src detail)

/-- Two records stand for the same alarm level bit (R529: DUAL_MASTER has one bit). -/
def sameBit (r m : EvRec) : Bool :=
  m.code == r.code && (r.code == 0x1C0 || fld m.arg 39 24 == fld r.arg 39 24)

/-- Queue an alarm record; when two of its bit wait, the newer one counts it (R530). -/
def queueAlarm (q : List EvRec) (r : EvRec) : List EvRec :=
  if 2 ≤ (q.filter (sameBit r)).length then
    match findIdxFrom (sameBit r) q.reverse 0 with
    | some i => (updAt q.reverse i (fun m => { m with rep := min 255 (m.rep + 1) })).reverse
    | none => q
  else insertRec r q

/-- The level word and bit of one alarm's instance number (R529). -/
def alarmWord (alarm inst : Nat) : Nat := 0x20100 + 4 * alarm + inst / 48

/-- Raise an alarm: its level bit is set and a record with SET = 1 is queued (R529). -/
def State.alarm (s : State) (alarm code src detail : Nat) : State :=
  let i := if code = 0x1C0 then 0 else src
  let a := alarmWord alarm i
  let s := s.setReg a (s.raw a ||| toWord (2 ^ (i % 48)))
  let r : EvRec := { cls := 0, code := code, rep := 0, tick := s.now, arg := evArg true src detail }
  { s with evt := { s.evt with alarms := queueAlarm s.evt.alarms r } }

/-- Clear an alarm's level bit and queue a record with SET = 0, where the bit was set (R529). -/
def State.alarmClear (s : State) (alarm code inst : Nat) : State :=
  let a := alarmWord alarm inst
  if s.rb a (inst % 48) then
    let s := s.setReg a (s.raw a &&& ~~~(toWord (2 ^ (inst % 48))))
    let r : EvRec := { cls := 0, code := code, rep := 0, tick := s.now, arg := evArg false inst 0 }
    { s with evt := { s.evt with alarms := queueAlarm s.evt.alarms r } }
  else s

/-- The code of an alarm index (Tables 16.14, 17.13, 18.12, R592). -/
def alarmCode (alarm : Nat) : Nat :=
  ([0x001, 0x003, 0x004, 0x005, 0x040, 0x041, 0x280, 0x2C2, 0x141, 0x1C0, 0x1C1, 0x021, 0x022, 0x023, 0x025, 0x026,
    0x029] : List Nat).getD alarm 0

/-- The alarm is a condition alarm, which a command write does not clear while its condition holds (R529). -/
def alarmIsCondition (alarm inst : Nat) : Bool :=
  [0, 3, 4, 7, 8, 10].contains alarm || (alarm == 5 && Nat.ble 1 inst && Nat.ble inst 63)

/-! ### Bandwidth and traces (R512, R520 to R522) -/

/-- Octets pass bandwidth point `b`. -/
def State.bwAdd (s : State) (b n : Nat) : State :=
  if s.rb 0x40020 47 then
    { s with mon := { s.mon with bw := smSet (fun _ => 0) s.mon.bw b (smGet (fun _ => 0) s.mon.bw b + n) } }
  else s

/-- Trace slot `i`. -/
def State.traceSlot (s : State) (i : Nat) : Option TraceSlot := smGet (fun _ => none) s.mon.traces i

/-- Store trace slot `i`. -/
def State.setTrace (s : State) (i : Nat) (t : Option TraceSlot) : State :=
  { s with mon := { s.mon with traces := smSet (fun _ => none) s.mon.traces i t } }

/-- Stage `k` (1 to 8) of a traced item is reached, the first time. -/
def State.traceStage (s : State) (slot : Option Nat) (k : Nat) : State :=
  match slot with
  | none => s
  | some i =>
    match s.traceSlot i with
    | none => s
    | some t =>
      let put (o : Option Nat) : Option Nat := if o.isSome then o else some (s.now - t.base)
      s.setTrace i (some { t with stages := updAt t.stages (k - 1) put })

/-- Stage `k` of a traced item has been reached. -/
def State.traceHas (s : State) (slot : Option Nat) (k : Nat) : Bool :=
  match slot with
  | none => false
  | some i =>
    match s.traceSlot i with
    | none => false
    | some t => (nth t.stages (k - 1) none).isSome

/-- The traced item ends, unless it has. -/
def State.traceEnds (s : State) (slot : Option Nat) (dropped bad timeout : Bool) : State :=
  match slot with
  | none => s
  | some i =>
    match s.traceSlot i with
    | none => s
    | some t => if t.ended.isSome then s else s.setTrace i (some { t with ended := some (dropped, bad, timeout) })

/-- A free trace slot. -/
def State.freeTrace (s : State) : Option Nat := (List.range 64).find? (fun i => (s.traceSlot i).isNone)

/-! ### Host memory -/

/-- What an output writes to host memory: the address of the first octet, and the octets in ascending addresses (R12). -/
def Out.host : Out → Option (Nat × List Byte)
  | .hostWords a ws => some (a, ws.flatMap (fun w => slotOctets (slotOf w)))
  | .hostOctets a bs => some (a, bs)
  | _ => none

/-- The output writes into the `n` octets from `a`. -/
def Out.within (a n : Nat) : Out → Bool
  | .hostWords x _ => Nat.ble a x && Nat.blt x (a + n)
  | .hostOctets x _ => Nat.ble a x && Nat.blt x (a + n)
  | _ => false

/-- Take back the newest `k` outputs that write into the `n` octets from `a`: those of the record written there last. -/
def dropNewest (a n : Nat) : Nat → List Out → List Out
  | 0, l => l
  | _ + 1, [] => []
  | k + 1, o :: l => if o.within a n then dropNewest a n k l else o :: dropNewest a n (k + 1) l

end Sys2Proof.Machine
end

