-- ==== Sys2Proof/Machine/CmdOps.lean ====
section
/-! DEFINITION. The command queues: headers, sequence numbers, completion records, violations and freezing
(R64 to R87, R545). -/

namespace Sys2Proof.Machine

/-! ### Status codes (Table 3.6) -/

def stDone : Nat := 0x00
def stPartial : Nat := 0x01
def stRejectState : Nat := 0x02
def stRejectBusy : Nat := 0x03
def stRejectFull : Nat := 0x04
def stNotFound : Nat := 0x05
def stTagFail : Nat := 0x06
def stAborted : Nat := 0x07
def stErrMem : Nat := 0x08
def stRejectArg : Nat := 0x09

/-! ### Queues -/

/-- Queue `q`. -/
def State.queue (s : State) (q : Nat) : CmdQueue := smGet (fun _ => CmdQueue.fresh) s.cmd.queues q

/-- Store queue `q`. -/
def State.setQueue (s : State) (q : Nat) (u : CmdQueue) : State :=
  { s with cmd := { s.cmd with queues := smSet (fun _ => CmdQueue.fresh) s.cmd.queues q u } }

/-- CMD_QSTATE of queue `q` (Table 3.3). -/
def State.qstate (s : State) (q : Nat) : Nat := s.rf (adQueue q 9) 2 0

/-- Set CMD_QSTATE. -/
def State.setQstate (s : State) (q v : Nat) : State := s.setReg (adQueue q 9) (toWord v)

/-- CMD_QBIND of a tenant queue; 0 for queues 0 to 7, which belong to the PF (R46). -/
def State.qbind (s : State) (q : Nat) : Nat := if q < 8 then 0 else s.rf (adQueue q 0xA) 5 0

/-- Reset a queue as R68 does: its indices, phase, CMD_CPL_HEAD and sequence counter; an active or disabled queue
becomes idle, and a frozen one stays frozen until THAW (Table 3.3). CMD_LAST_SEQ is not among the words that R68 names.
The retry budget is a pool of the queue within a window of time, so its history stays. DESIGN CHOICE (entry 87): a command
still in execution on a queue that R80 disabled is dropped with the reset; the spec states no end for it. -/
def State.resetQueue (s : State) (q : Nat) : State :=
  let was := s.queue q
  let s := (s.setQueue q { CmdQueue.fresh with retries := was.retries, violating := was.violating }).setReg
    (adQueue q 5) 0
  if s.qstate q = 2 then s
  else if s.qstate q = 3 then (s.setQstate q 0).alarmClear 4 0x040 q
  else s.setQstate q 0

/-- The queue holds fetched or announced words. -/
def CmdQueue.hasWords (u : CmdQueue) : Bool := u.fetch != u.tail || !u.staging.isEmpty

/-- The message of a command with IRQ (R79). -/
def State.irqQueue (s : State) (q : Nat) : State :=
  if q < 8 then s.msix 0 q else s.msix (s.qbind q) 0

/-! ### Headers (Table 3.1) -/

def hdrOpcode (h : Word) : Nat := fld h 47 42
def hdrNops (h : Word) : Nat := fld h 41 36
def hdrSilent (h : Word) : Bool := bitOf h 35
def hdrIrq (h : Word) : Bool := bitOf h 34

end Sys2Proof.Machine

namespace Sys2Proof

open Machine

/-- The header word of a command with opcode `op`. -/
def Cmd.header (c : Cmd) (op : Nat) : Word :=
  mkWord [(42, op % 64), (36, c.ops.length % 64), (35, b2n c.silent), (34, b2n c.irq), (32, c.opflags.toNat),
    (0, c.args.toNat)]

/-- ARGS bits [hi:lo]. -/
def Cmd.arg (c : Cmd) (hi lo : Nat) : Nat := bitsOf c.args.toNat hi lo

/-- OPFLAGS[32]. -/
def Cmd.flag0 (c : Cmd) : Bool := c.opflags.getLsbD 0

/-- OPFLAGS[33]. -/
def Cmd.flag1 (c : Cmd) : Bool := c.opflags.getLsbD 1

/-- Operand word `i`, 0 where there is none. -/
def Cmd.op (c : Cmd) (i : Nat) : Word := nth c.ops i 0

/-- The number of a port: its queue, or 64 for the service processor's (R545). -/
def Port.num : Port → Nat
  | .queue q => q.toNat
  | .sp => 64

end Sys2Proof

namespace Sys2Proof.Machine

/-- The sequence number after `n` (R74). -/
def nextSeq (n : Nat) : Nat := if n + 1 < 2 ^ 48 then n + 1 else 1

/-! ### Completion (R75 to R79) -/

/-- The completion ring of queue `q` has room for a record (R78). -/
def State.cplRoom (s : State) (q : Nat) : Bool :=
  let m := s.rf (adQueue q 3) 4 0
  Nat.blt (((s.queue q).cplWr + 2 ^ 16 - s.rf (adQueue q 5) 15 0) % 2 ^ 16) (2 ^ m - 1)

/-- The completion record (Table 3.2). -/
def cplRecord (phase : Bool) (seq status progress result tick : Nat) : List Word :=
  [mkWord [(47, b2n phase), (8, seq % 2 ^ 39), (0, status)], toWord progress, toWord result, toWord tick]

/-- The host-memory address of the next completion record of queue `q`. -/
def State.cplAddr (s : State) (q : Nat) : Nat :=
  (s.raw (adQueue q 2)).toNat * 16 + (s.queue q).cplWr % 2 ^ s.rf (adQueue q 3) 4 0 * 32

/-- Write a completion record; words 1 to 3 first, then word 0 (R77). -/
def State.writeCpl (s : State) (q : Nat) (header : Word) (seq status progress result : Nat) : State :=
  let u := s.queue q
  let m := s.rf (adQueue q 3) 4 0
  let a := s.cplAddr q
  let r := cplRecord u.phase seq status progress result s.tick48
  let s := (s.emit (.hostWords (a + 8) (r.drop 1))).emit (.hostWords a (r.take 1))
  s.setQueue q { u with
    cplWr := (u.cplWr + 1) % 2 ^ 16,
    phase := if (u.cplWr + 1) % 2 ^ m = 0 then !u.phase else u.phase,
    lastCpl := some { header := header, before := s.raw (adQueue q 8), seq := seq, status := status, progress := progress, result := result } }

/-- What the completion write made last put out is taken back: the record, and the message that followed it. -/
def State.unwriteCpl (s : State) (q : Nat) (l : LastCpl) : State :=
  let m := s.rf (adQueue q 3) 4 0
  let n := ((s.queue q).cplWr + 2 ^ 16 - 1) % 2 ^ 16
  let s := s.setQueue q { s.queue q with
    cplWr := n, phase := if n % 2 ^ m = 2 ^ m - 1 then !(s.queue q).phase else (s.queue q).phase, lastCpl := none }
  let o := dropNewest (s.cplAddr q) 32 2 s.out
  { s with out := if hdrIrq l.header then o.erase (if q < 8 then .msix 0 q else .msix (s.qbind q) 0) else o }

/-- A KEY_OP retires: it is counted (Table 13.5); the lease runs from the holder's last KEY_LOCK or KEY_OP (R448). -/
def State.keyRetired (s : State) (q : Nat) (header : Word) : State :=
  let o := hdrOpcode header
  let s := if o = 0x12 then s.bump 0x70010 1 else s
  if o = 0x11 ∨ o = 0x12 then
    match s.key.lock with
    | some (h, _) =>
      let e := s.now + s.rf 0x70001 23 0 * 1000
      if h = q then { s with key := { s.key with lock := some (h, e) } } else s
    | none => s
  else s

/-- The command numbered `seq` is closed: CMD_LAST_SEQ names it and the queue is open again (R73 to R75). -/
def State.closeCmd (s : State) (q seq : Nat) : State :=
  let u := s.queue q
  let s := (s.setQueue q { u with exec := none, retiredAt := some s.now }).setReg (adQueue q 8) (toWord seq)
  if s.qstate q = 1 ∧ !u.hasWords then s.setQstate q 0 else s

/-- A command retires. -/
def State.retireCmd (s : State) (q : Nat) (header : Word) (seq : Nat) : State := (s.keyRetired q header).closeCmd q seq

/-- A command of queue `q` has finished its effects: it retires, or waits for room in its completion ring (R78). After
a function-level reset its record is discarded and the queue is reset (R82); under PERST_N it stays disabled (R581). Number 64 stands for the service
processor's port, whose outcomes leave as they are. -/
def State.finishCmd (s : State) (q : Nat) (header : Word) (seq status progress result : Nat) : State :=
  if q = 64 then (s.setQueue 64 { s.queue 64 with exec := none }).emit (.spDone status progress result)
  else if (s.queue q).resetDue then (if (s.queue q).keepDown then (s.resetQueue q).setQstate q 3 else s.resetQueue q)
  else if hdrSilent header ∧ status = stDone then s.retireCmd q header seq
  else if s.cplRoom q then
    let s := s.writeCpl q header seq status progress result
    let s := if hdrIrq header then s.irqQueue q else s
    s.retireCmd q header seq
  else
    let e : Exec :=
      { header := header, seq := seq, progress := progress, wait := .room status progress result,
        since := ((s.queue q).exec.map (·.since)).getD s.now }
    s.setQueue q { s.queue q with exec := some e }

/-- The outcome of a command of either kind of port. -/
def State.finish (s : State) (p : Port) (header : Word) (seq status progress result : Nat) : State :=
  s.finishCmd p.num header seq status progress result

/-- Store a command in execution. -/
def State.setExec (s : State) (q : Nat) (e : Exec) : State := s.setQueue q { s.queue q with exec := some e }

/-- End the command in execution on queue `q` with a status. -/
def State.endExec (s : State) (q status progress result : Nat) : State :=
  match (s.queue q).exec with
  | none => s
  | some e => s.finishCmd q e.header e.seq status progress result

/-- The queues with a command in execution, in ascending order, with that command. -/
def State.execs (s : State) : List (Nat × Exec) :=
  s.cmd.queues.filterMap (fun p => p.2.exec.map (fun e => (p.1, e)))

/-- The queue whose command in execution waits as `p` says. -/
def State.findExec (s : State) (p : Wait → Bool) : Option (Nat × Exec) :=
  s.execs.find? (fun x => p x.2.wait)

/-- RESULT of a command that stops early or whose transfer fails: the entries removed by TBL_FLUSH_PORT, the cursor of TBL_NEXT, and
what a READ, TBL_SEARCH or CTR_SNAP that has read its words would have shown (Tables 3.5 and 3.11). DESIGN CHOICE (entry 135): 0 for
the rest; for a CRC_SCAN the spec gives the final value, and none for a scan that is not finished. -/
def State.stopResult (s : State) (w : Wait) : Nat :=
  match w with
  | .work _ (.flush _ _ _ removed) => removed
  | .work _ (.walk x _ _ _) => ((s.cmd.walks.find? (fun y => y.1 == x)).map (fun y => y.2.cursor.toNat)).getD 0
  | .work _ (.give _ _ result _ _) => result
  | _ => 0

/-- How a command in execution ends that an event of R122 stops. -/
def State.stopExec (s : State) (q : Nat) : State :=
  match (s.queue q).exec with
  | none => s
  | some e =>
    s.finishCmd q e.header e.seq (if e.progress = 0 then stAborted else stPartial) e.progress (s.stopResult e.wait)

/-- The command of queue `x.1` that retired in this tick has not: its record and message are taken back, and it is in execution as
it was (R123, R478). -/
def State.unretire (s : State) (x : Nat × CmdQueue) : State :=
  let was := smGet (fun _ => CmdQueue.fresh) s.start.cmd.queues x.1
  if x.2.retiredAt == some s.now && was.exec.isSome then
    let s := match x.2.lastCpl with
      | some l => s.unwriteCpl x.1 l
      | none => s
    let s := s.setQueue x.1 { s.queue x.1 with exec := was.exec, retiredAt := was.retiredAt, lastCpl := was.lastCpl }
    (s.setReg (adQueue x.1 8) (s.atStart.raw (adQueue x.1 8))).setReg (adQueue x.1 9) (s.atStart.raw (adQueue x.1 9))
  else s

/-- No command has retired in this tick. -/
def State.unretired (s : State) : State := s.cmd.queues.foldl State.unretire s

/-! ### Violations (R86, R87, R545) -/

/-- The freeze record of a violation (Table 17.6). -/
def freezeRecord (stage reason seq : Nat) (header operand object : Word) (tick : Nat) : List Word :=
  [mkWord [(47, 1), (45, stage), (32, reason)], toWord seq, header, operand, object, toWord tick, 0, 0]

/-- The key-unit lock is released where queue `q` holds it. -/
def State.dropLock (s : State) (q : Nat) : State :=
  match s.key.lock with
  | some (h, _) => if h = q then { s with key := { s.key with lock := none } } else s
  | none => s

/-- A violation: stage 1 header form, 2 privilege or ownership, 3 during execution. The command has had no effect. Under a
function-level reset the queue is reset with it (R82), and stays frozen until THAW (Table 3.3). -/
def State.violate (s : State) (p : Port) (header : Word) (seq stage reason : Nat) (operand object : Word) : State :=
  let r := p.num
  let s := if r < 64 then s.monEv 1 r 3 1 else s
  let s := s.setRegs (0x400 + 8 * r) (freezeRecord stage reason (if r = 64 then 0 else seq) header operand object
    s.tick48)
  if reason = 0x0D then s.fault 0x006 0 (hdrOpcode header)
  else
    let s := s.alarm 5 0x041 r 0
    if r = 64 then s
    else if r = 0 then s.finishCmd 0 header seq stAborted 0 0
    else
      let u := s.queue r
      let s := s.setQueue r { u with exec := none, violating := some (seq, header), resetDue := false, keepDown := false }
      let s := ((s.setQstate r 2).bump 0x11002 1).dropLock r
      if u.resetDue then s.resetQueue r else s

/-! ### Privilege (R45, R46) -/

/-- Privilege of a command. -/
inductive Priv where
  | supervisor
  | operator
  | tenant (t : Nat)
deriving DecidableEq, Repr

/-- The privilege of a port (R37, R45, R46). -/
def State.privOf (s : State) : Port → Priv
  | .sp => .supervisor
  | .queue q =>
    if q.toNat = 0 then .supervisor else if q.toNat < 8 then .operator else .tenant (s.qbind q.toNat)

/-- The privilege is not a tenant's. -/
def Priv.oper : Priv → Bool
  | .tenant _ => false
  | _ => true

/-- An object with owner tag `o` may be named (R60). -/
def Priv.owns (p : Priv) (o : Nat) : Bool :=
  match p with
  | .tenant t => o == t
  | _ => true

/-! ### Eligibility and the order of admission (R32, R72, R73, R78, R81) -/

/-- Queue `q` may be served: active, bound, nothing in execution and nothing retired in this tick (R73), room for a
record. -/
def State.queueOpen (s : State) (q : Nat) : Bool :=
  s.qstate q == 1 && (s.queue q).exec.isNone && (s.queue q).retiredAt != some s.now && s.cplRoom q &&
    (Nat.blt q 8 || s.qbind q != 0)

/-- All words of the queue's oldest command have been fetched (R72). -/
def CmdQueue.whole (u : CmdQueue) : Bool :=
  match u.staging with
  | [] => false
  | h :: ws => Nat.ble (hdrNops h) ws.length

/-- Queue `q` has an eligible command. -/
def State.ready (s : State) (q : Nat) : Bool := (s.queue q).whole && s.queueOpen q

/-- The queues 1 to 63 in round-robin order after `rr`. -/
def rrOrder (rr : Nat) : List Nat := (List.range 63).map (fun i => (rr + i) % 63 + 1)

/-- The queue that the dispatcher admits from next: queue 0 first, then round robin (R32). -/
def State.nextQueue (s : State) : Option Nat :=
  if s.ready 0 then some 0 else (rrOrder s.cmd.rr).find? s.ready

/-- The service processor's island is in reset: after a watchdog expiry, or held (R39, R40). In DRY, where no tick passes, it
has left the reset of an expiry. -/
def State.spInReset (s : State) : Bool := s.sp.held || (s.running && Nat.blt s.now s.sp.resetTill)

/-- The service processor's port goes before queue 0: the one whose last admission is older, and after reset the port
(R32). -/
def State.spFirst (s : State) : Bool :=
  match s.sp.lastAdmission, s.cmd.last0 with
  | none, _ => true
  | some _, none => false
  | some a, some b => Nat.ble a b

/-- Note an admission. -/
def State.noteAdmission (s : State) : Port → State
  | .sp => { s with sp := { s.sp with lastAdmission := some s.now }, cmd := { s.cmd with admitted := some s.now } }
  | .queue q =>
    let s := s.monEv 1 q.toNat 1 1
    if q.toNat = 0 then { s with cmd := { s.cmd with last0 := some s.now, admitted := some s.now } }
    else { s with cmd := { s.cmd with rr := q.toNat, admitted := some s.now } }

/-- Take the oldest command's words out of the staging buffer and give it its sequence number. -/
def State.takeStaged (s : State) (q n : Nat) : State :=
  let u := s.queue q
  s.setQueue q { u with staging := u.staging.drop n, seq := nextSeq u.seq, lastCpl := none }

/-- The reason of a header that no command has: 0x01 reserved, 0x02 Sluice class (R65). -/
def reservedOpcode (h : Word) : Option Nat :=
  let o := hdrOpcode h
  if o = 0x1E ∨ o = 0x1F then some 1 else if 0x20 ≤ o then some 2 else none

/-- The dispatcher has admitted no command in this tick (R32). -/
def State.tickFree (s : State) : Bool := s.cmd.admitted != some s.now

/-- The dispatcher takes the next command where its opcode makes its header malformed (R65); that is the admission of the
tick. -/
def State.admitReserved (s : State) : State :=
  if !s.running || s.board.perst || !s.tickFree then s else
  match s.nextQueue with
  | none => s
  | some q =>
    match (s.queue q).staging with
    | [] => s
    | h :: _ =>
      match reservedOpcode h with
      | none => s
      | some r =>
        let p := Port.queue (BitVec.ofNat 6 q)
        let s := (s.noteAdmission p).takeStaged q (1 + hdrNops h)
        s.violate p h (s.queue q).seq 1 r h 0

/-- Packets that entered a pipe before tick `n` wait for their final decision (R96, R360). -/
def State.pipeWaits (s : State) (n : Nat) : Bool :=
  s.cls.deciding.any (fun d => Nat.blt d.entered n) || s.cls.oxbow.any (fun o => Nat.blt o.entered n)

/-- A FENCE still waits (R96). Host-memory writes of its queue are visible when they are issued. -/
def State.fenceWaits (s : State) (pipe : Option Nat) (others : List (Nat × Nat)) : Bool :=
  pipe.any s.pipeWaits || others.any (fun x => (s.queue x.1).exec.any (fun e => e.seq == x.2))

/-- A command in execution that is a FENCE whose wait is over retires. -/
def State.settleFence (s : State) (x : Nat × Exec) : State :=
  match x.2.wait with
  | .fence pipe others => if s.fenceWaits pipe others then s else s.endExec x.1 stDone 0 0
  | _ => s

/-- Fences whose wait is over retire. -/
def State.settleFences (s : State) : State := s.execs.foldl State.settleFence s

end Sys2Proof.Machine
end

