-- ==== Sys2Proof/Machine/Operands.lean ====
section
/-! DEFINITION. Operand forms: reserved fields and counts of a header (R14, R64 to R66), the tables of commands
(Table 3.7), register regions by privilege (R58), and the common words of the object handles. -/

namespace Sys2Proof.Machine

/-! ### Header form -/

/-- The header form of a command: `argsMask` and `flagsMask` mark the assigned bits of ARGS and OPFLAGS, `nopsOk` tells
whether NOPS is permitted, and `opMasks` marks the reserved bits of the first operand words. The answer is the REASON
of Table 17.7 and the operand at fault. -/
def formCheck (c : Cmd) (argsMask flagsMask : Nat) (nopsOk : Bool) (opMasks : List Word) : Option (Nat × Word) :=
  if !nopsOk || Nat.blt 63 c.ops.length then some (0x03, 0)
  else if c.args &&& ~~~(BitVec.ofNat 32 argsMask) ≠ 0 then some (0x04, 0)
  else if c.opflags &&& ~~~(BitVec.ofNat 2 flagsMask) ≠ 0 then some (0x04, 0)
  else
    match (c.ops.zip opMasks).find? (fun p => p.1 &&& p.2 != 0) with
    | some p => some (0x04, p.1)
    | none => none

/-! ### Tables (Table 3.7) -/

/-- A keyed table. -/
def tblKeyed (t : Nat) : Bool := Nat.ble 1 t && Nat.ble t 4

/-- An indexed table. -/
def tblIndexed (t : Nat) : Bool := Nat.ble 0x10 t && Nat.ble t 0x13

/-- A generational table. -/
def tblGenerational (t : Nat) : Bool := Nat.ble 0x20 t && Nat.ble t 0x22

/-- E_T, the entry words of a table. -/
def entryWords (t : Nat) : Nat :=
  if t = 1 then 3 else if t = 2 then 2 else if t = 3 then 4 else if t = 4 then 3 else if t = 0x10 then 4
  else if t = 0x11 then 4 else if t = 0x12 then 8 else if t = 0x13 then 8 else if t = 0x20 then 11
  else if t = 0x21 then 3 else if t = 0x22 then 65 else 0

/-- K_T, the key words of a keyed table. -/
def keyWords (t : Nat) : Nat := if t = 1 then 2 else if t = 2 then 1 else if t = 3 then 3 else if t = 4 then 1 else 0

/-- Entries of an indexed or generational table. -/
def tableSize (t : Nat) : Nat :=
  if t = 0x10 then 262144 else if t = 0x11 then 524288 else if t = 0x12 then 4096 else if t = 0x13 then 262144
  else if t = 0x20 then 65536 else if t = 0x21 then 513 else if t = 0x22 then 1024 else 0

/-! ### What a ring commit and a digest hold back (R488, R491) -/

/-- COMMIT_PENDING. -/
def State.commitPending (s : State) : Bool := s.rb 0x90008 41

/-- A digest is being computed over region `b` (Table 15.2). -/
def State.digestOver (s : State) (b : Nat) : Bool := s.rb 0x90008 42 && s.rb 0x90018 (40 + b)

/-- A digest is being computed over an indexed table. -/
def State.digestHolds (s : State) (t : Nat) : Bool :=
  (t == 0x10 && s.digestOver 6) || (t == 0x11 && s.digestOver 5) || (t == 0x12 && s.digestOver 3) ||
    (t == 0x13 && s.digestOver 4)

/-- A generation swap is held back. -/
def State.swapHeld (s : State) : Bool :=
  s.commitPending || s.digestOver 0 || s.digestOver 1 || s.digestOver 2

/-- The tree's bit of SLU_MASK. -/
def State.sluMasked (s : State) (t : Nat) : Bool := s.rb (0x90015 + t / 48) (t % 48)

/-! ### Owner tags of trees, and counter groups -/

/-- The owner tag of a tree. -/
def State.treeOwner (s : State) (t : Nat) : Nat := s.rf (adTree t 1) 5 0

/-- The counter group whose MON words hold word `a`: lane, MAC and bandwidth words only (R504). -/
def groupOfWord (a : Nat) : Option Nat :=
  if 0x42000 ≤ a ∧ a < 0x44000 then some ((a - 0x42000) / 32)
  else if 0x44000 ≤ a ∧ a < 0x48000 then some (0x100 + (a - 0x44000) / 64)
  else if 0x4C000 ≤ a ∧ a < 0x4D000 then some (0x200 + (a - 0x4C000) / 4)
  else none

/-- The read permit of tenant `t` for counter group `g` (R504). -/
def State.permit (s : State) (g t : Nat) : Bool :=
  if t < 48 then s.rb (0x48000 + 2 * g) t else s.rb (0x48001 + 2 * g) (t - 48)

/-! ### Regions (Table 2.9) -/

/-- The tree whose window holds word `a`. -/
def treeOfWord (a : Nat) : Option Nat := if 0x100000 ≤ a ∧ a < 0x900000 then some ((a - 0x100000) / 0x10000) else none

/-- Word `a` of a queue page lies in an operator's region: pages 1 to 63 but CMD_QBIND, which the pages of tenant queues have
(Tables 2.8 and 2.9). -/
def operPage (a : Nat) : Bool :=
  let q := (a - 0x10000) / 0x40
  Nat.ble 1 q && (Nat.blt q 8 || (a - 0x10000) % 0x40 != 0xA)

/-- A privilege may read word `a`. -/
def State.mayRead (s : State) (p : Priv) (a : Nat) : Bool :=
  match p with
  | .supervisor => true
  | .operator =>
    !(Nat.ble 0x10000 a && Nat.blt a 0x11000) || operPage a
  | .tenant t =>
    if a < 0x10000 then false
    else if a < 0x11000 then Nat.ble 8 ((a - 0x10000) / 0x40) && s.qbind ((a - 0x10000) / 0x40) == t
    else if a = 0x80001 ∨ a = 0x80002 then true
    else
      match treeOfWord a with
      | some tr => s.treeOwner tr == t
      | none =>
        match groupOfWord a with
        | some g => s.permit g t
        | none => false

/-- A privilege may write word `a`. -/
def State.mayWrite (s : State) (p : Priv) (a : Nat) : Bool :=
  match p with
  | .supervisor => true
  | .operator =>
    if a < 0x10000 then a == 0x8000
    else if a < 0x11000 then operPage a
    else true
  | .tenant t =>
    match treeOfWord a with
    | some tr =>
      let off := (a - 0x100000) % 0x10000
      s.treeOwner tr == t && Nat.blt off 0x1800 && off != 1
    | none => false

/-- The words of a WRITE or READ that lie outside the region: the first of them. -/
def firstOutside (ok : Nat → Bool) (a n : Nat) : Option Nat :=
  ((List.range n).map (a + ·)).find? (fun x => !ok x)

/-- Word `a` may be written in WEIR (R140). -/
def weirWord (a : Nat) : Bool :=
  (Nat.ble 0x20000 a && Nat.blt a 0x70000) || a == 0x8000 || (Nat.ble 0x100 a && Nat.ble a 0x107) ||
    (Nat.ble 0x10000 a && Nat.blt a 0x11000)

/-! ### The service processor's permission mask (R37, Table 1.6) -/

/-- Words that the service processor's port may read: its own blocks and the SerDes control. -/
def spMayRead (a : Nat) : Bool := Nat.blt a 0x10000 || (Nat.ble 0xC0000 a && Nat.ble a 0xFFFFF)

/-- Words that it may write: its mailbox response words and the SerDes control. -/
def spMayWrite (a : Nat) : Bool := (Nat.ble 0x110 a && Nat.ble a 0x11F) || (Nat.ble 0xC0000 a && Nat.ble a 0xFFFFF)

/-- The octet address of a host-address operand (bits 51:4 in [47:0]). -/
def hostAddr (w : Word) : Nat := w.toNat * 16

/-- A value lies in a range. -/
def inRange (lo hi v : Nat) : Bool := Nat.ble lo v && Nat.ble v hi

end Sys2Proof.Machine
end

