-- ==== Sys2Proof/Machine/Admission.lean ====
section
/-! DEFINITION. Admission of a command: the four checks of R33 in their order, then its execution (R84). -/

namespace Sys2Proof.Machine

/-- What a command's execution comes to. -/
inductive Ran where
  /-- It ends with a status, its PROGRESS and its RESULT. -/
  | fin (status progress result : Nat) (s : State)
  /-- It goes on over later ticks; PROGRESS so far and what it waits for. -/
  | wait (progress : Nat) (w : Wait) (s : State)
  /-- A violation found during execution (R85): reason, operand and object. -/
  | viol (reason : Nat) (operand object : Word) (s : State)

/-- The checks and the execution of one command. -/
structure CmdRule where
  opcode : Nat
  /-- Check 1: the REASON and operand of a malformed header. -/
  form : Option (Nat × Word)
  /-- Check 2: the REASON, operand and object of a privilege or ownership violation. -/
  priv : State → Priv → Option (Nat × Word × Word)
  /-- The permission mask lets the service processor's port present it (R37). -/
  spMay : Bool
  /-- Check 3: legal in the present mode (Table 4.6). -/
  legal : State → Bool
  /-- Check 4: arguments in range. -/
  args : State → Priv → Bool
  /-- Execution after the four checks. -/
  run : State → Priv → Nat → Ran

/-- The service processor's port can be served: its island is not in reset, nothing is in execution, and it is its turn
against queue 0 (R32, R40). -/
def State.spOpen (s : State) : Bool :=
  !s.spInReset && (s.queue 64).exec.isNone && (!s.ready 0 || s.board.perst || s.spFirst)

/-- The dispatcher can take the command now: none has been admitted in this tick; on a queue, its words are those that
stand first in the staging buffer and the queue is the next to be served (R32, R72, R73, R78). -/
def State.eligible (s : State) (c : Cmd) (op : Nat) : Bool :=
  (s.running || s.fatalNow) && s.tickFree &&
  match c.port with
  | .sp => s.spOpen
  | .queue q =>
    !s.board.perst && s.nextQueue == some q.toNat &&
      (s.queue q.toNat).staging.take (1 + c.ops.length) == c.header op :: c.ops

/-- Mode check: the SPRING sequence of the service processor's port is exempt (R152). -/
def State.modeOk (s : State) (c : Cmd) (r : CmdRule) : Bool :=
  r.legal s || (c.port == .sp && s.mode == .spring)

/-- Carry the outcome of an execution into the state. -/
def State.settle (_s : State) (p : Port) (h : Word) (seq : Nat) : Ran → State
  | .fin st pr re s' => s'.finish p h seq st pr re
  | .wait pr w s' => s'.setExec p.num { header := h, seq := seq, progress := pr, wait := w, since := s'.now }
  | .viol reason operand object s' => s'.violate p h seq 3 reason operand object

/-- The command's checks and execution, with its words taken and its sequence number given. The checks see the state at the start
of the tick (R21, R62). -/
def State.judge (s : State) (c : Cmd) (r : CmdRule) (seq : Nat) : State :=
  let h := c.header r.opcode
  let pv := s.atStart.privOf c.port
  match r.form with
  | some (reason, operand) => s.violate c.port h seq 1 reason operand 0
  | none =>
    if c.port == .sp && !r.spMay then s.violate c.port h seq 2 0x0D 0 0
    else
      match r.priv s.atStart pv with
      | some (reason, operand, object) => s.violate c.port h seq 2 reason operand object
      | none =>
        if !s.atStart.modeOk c r then ((s.monEv 1 c.port.num 2 (if c.port == .sp then 0 else 1)).bump 0x11001 1).finish c.port h seq stRejectState 0 0
        else if !r.args s.atStart pv then s.finish c.port h seq stRejectArg 0 0
        else s.settle c.port h seq (r.run s pv seq)

/-- The state with the admission noted and the command's words taken; on a queue it has got its sequence number. -/
def State.admitted (s : State) (c : Cmd) : State :=
  match c.port with
  | .queue q => (s.noteAdmission c.port).takeStaged q.toNat (1 + c.ops.length)
  | .sp => s.noteAdmission c.port

/-- The sequence number given to the command just admitted; the service processor's port numbers nothing. -/
def State.seqOf (s : State) : Port → Nat
  | .queue q => (s.queue q.toNat).seq
  | .sp => 0

/-- A command admitted in the tick of a fatal cause has no effect, and gets no record (R123, R130, R478). -/
def State.haltedCmd (s : State) (c : Cmd) (r : CmdRule) (seq : Nat) : State :=
  s.setExec c.port.num { header := c.header r.opcode, seq := seq, progress := 0, wait := .halted, since := s.now }

/-- The admission of a command without the end of its tick. -/
def State.takeCommand (s : State) (c : Cmd) (r : CmdRule) : State :=
  let n := (s.admitted c).seqOf c.port
  if s.fatalNow then (s.admitted c).haltedCmd c r n else (s.admitted c).judge c r n

/-- Legal in SPRING, STILL, FLOW, WEIR and DRAIN. -/
def legalAll (s : State) : Bool := s.mode != .dry

/-- Legal in STILL, FLOW, WEIR and DRAIN. -/
def legalUp (s : State) : Bool := s.mode != .dry && s.mode != .spring

/-- No privilege check beyond the opcode's. -/
def privNone (_ : State) (_ : Priv) : Option (Nat × Word × Word) := none

/-- Closed to tenants (Table 3.8). -/
def privOper (_ : State) (p : Priv) : Option (Nat × Word × Word) := if p.oper then none else some (0x05, 0, 0)

/-- Only queue 0 and the service processor's port (Table 3.8). -/
def privSuper (_ : State) (p : Priv) : Option (Nat × Word × Word) :=
  match p with
  | .supervisor => none
  | _ => some (0x05, 0, 0)

/-- No argument check. -/
def argsFine (_ : State) (_ : Priv) : Bool := true

/-- Executed in full, with PROGRESS and RESULT. -/
def Ran.done (s : State) (progress result : Nat) : Ran := .fin stDone progress result s

/-- How many of `n` units are done when, of `took` ticks of steady work, `left` are to come before the present one. -/
def sharesOf (n took left : Nat) : Nat := if left ≤ 1 then n else n * (took + 1 - left) / took

/-- Words go to the host (R80, R90): within the admission tick, or over the ticks that the transfer takes. -/
def State.giveWords (s : State) (io : HostIo) (addr : Nat) (ws : List Word) (result : Nat) : Ran :=
  if io.took = 0 then .fin stDone ws.length result (if ws.isEmpty then s else s.emit (.hostWords addr ws))
  else .wait 0 (.work 0 (.give addr ws result io.took io.took)) s

end Sys2Proof.Machine
end

