-- ==== Sys2Proof/Machine/Line.lean ====
section
/-! DEFINITION. Octets and symbols on the PON line: structures with a HEC (R163), the TORRENT PSBd, codewords, scrambler
and PAM4 symbols (R161 to R164), FS header, map entries and XGEM headers (R165, R166, R237, R238). -/

namespace Sys2Proof.Machine

/-! ### Structures of 8 octets -/

/-- The structure whose bits 63:13 are those of `v`, with its HEC (R163). -/
def hecWord (v : Nat) : BitVec 64 :=
  BitVec.ofNat 51 (v / 2 ^ 13) ++ Config.hec (BitVec.ofNat 51 (v / 2 ^ 13))

/-- The octets of a structure, bit 63 first. -/
def structOctets (w : BitVec 64) : List Byte := octetsBE 8 w.toNat

/-- The SFC or PON-ID structure: 51 bits above the HEC (Table 5.4). -/
def numStruct (n : Nat) : BitVec 64 := hecWord (n % 2 ^ 51 * 2 ^ 13)

/-- The lane structure: VERSION 1, LANE and PAIR (Table 5.4). -/
def laneStruct (lane : Nat) (pair : Bool) : BitVec 64 := hecWord (2 ^ 60 + lane % 2 * 2 ^ 59 + b2n pair * 2 ^ 58)

/-- The FS header (R165). -/
def fsHeader (maps ploams : Nat) : BitVec 64 := hecWord (maps % 2 ^ 11 * 2 ^ 53 + ploams % 2 ^ 8 * 2 ^ 45)

/-- A map entry (Table 6.5). -/
def mapWord (allocId : Nat) (dbru ploamu : Bool) (start size : Nat) (fwi : Bool) : BitVec 64 :=
  hecWord (allocId % 2 ^ 14 * 2 ^ 50 + b2n dbru * 2 ^ 49 + b2n ploamu * 2 ^ 48 + start % 2 ^ 17 * 2 ^ 31 +
    size % 2 ^ 17 * 2 ^ 14 + b2n fwi * 2 ^ 13)

/-- An XGEM header: PLI, key index, port ID, Options, LF and HEC (PRESUMED, G.9804.2: entry 31). -/
def xgemHeader (pli key port options : Nat) (lf : Bool) : BitVec 64 :=
  hecWord (pli % 2 ^ 14 * 2 ^ 50 + key % 4 * 2 ^ 48 + port % 2 ^ 16 * 2 ^ 32 + options % 2 ^ 18 * 2 ^ 14 + b2n lf * 2 ^ 13)

/-- The port ID of an idle XGEM frame (PRESUMED, G.9804.2: entry 31). -/
def idlePort : Nat := 0xFFFF

/-- Idle XGEM frames that fill `n` octets: as few as 14 bits of PLI allow, their payloads zeros. A rest of less than a
header is zeros. -/
def idleFrames : Nat → Nat → List Byte
  | 0, n => List.replicate n 0
  | k + 1, n =>
    if n < 8 then List.replicate n 0
    else
      let m := min (n - 8) 16376
      structOctets (xgemHeader m 0 idlePort 0 true) ++ List.replicate m 0 ++ idleFrames k (n - 8 - m)

/-! ### The TORRENT frame (R161 to R164) -/

/-- The sync sequence of a lane (R163). -/
def syncSeq (lane : Nat) : BitVec 96 :=
  if lane = 0 then 0xB2E61F4D8A3C9570C4A93D1B else 0x4D19E0B275C36A8F3B56C2E4

/-- A bit sequence whose bits 1 stand at level 3 and whose bits 0 stand at level 0, as the number of its bit pairs: 10 or
00. -/
def syncPairs : Nat → Nat → Nat
  | 0, _ => 0
  | n + 1, v => syncPairs n (v / 2) * 4 + v % 2 * 2

/-- The 48 octets of the PSBd (Table 5.4). -/
def psbd (lane sfc ponid : Nat) (pair : Bool) : List Byte :=
  octetsBE 24 (syncPairs 96 (syncSeq lane).toNat) ++ structOctets (numStruct sfc) ++ structOctets (numStruct ponid) ++
    structOctets (laneStruct lane pair)

/-- The scrambler's state at the first bit after the PSBd (R164). -/
def scramblerStart (lane sfc : Nat) : BitVec 58 := BitVec.ofNat 58 (lane % 2 * 2 ^ 57 + 63 * 2 ^ 51 + sfc % 2 ^ 51)

/-- The next state. -/
def scramblerNext (s : BitVec 58) : BitVec 58 := (s <<< 1) ||| BitVec.ofNat 58 (b2n (s.getLsbD 57 ^^ s.getLsbD 38))

/-- The next `n` output bits as a number, first bit uppermost, and the state after them. -/
def scramblerBits : Nat → BitVec 58 → Nat → Nat × BitVec 58
  | 0, s, a => (a, s)
  | n + 1, s, a => scramblerBits n (scramblerNext s) (2 * a + b2n (s.getLsbD 57))

/-- Octets scrambled, or descrambled, from a state on; bit 7 of an octet comes first. -/
def scramble : BitVec 58 → List Byte → List Byte
  | _, [] => []
  | s, b :: bs => (b ^^^ BitVec.ofNat 8 (scramblerBits 8 s 0).1) :: scramble (scramblerBits 8 s 0).2 bs

/-- A codeword: its information octets and 336 octets of parity (R162). -/
def codeword (info : List Byte) : List Byte := info ++ octetsBE 336 (Config.ldpcParity info).toNat

/-- The codewords of an FS frame: 1,824 information octets each, the last one shortened. -/
def codewords : Nat → List Byte → List Byte
  | 0, _ => []
  | n + 1, bs => if bs.isEmpty then [] else codeword (bs.take 1824) ++ codewords n (bs.drop 1824)

/-- The octets of a TORRENT lane frame on the line. -/
def torrentOctets (lane sfc ponid : Nat) (pair : Bool) (fs : List Byte) : List Byte :=
  psbd lane sfc ponid pair ++ scramble (scramblerStart lane sfc) (codewords 720 fs)

/-- The level of a bit pair (R161): 00, 01, 11 and 10 stand at 0, 1, 2 and 3. -/
def grayLevel (p : Nat) : Nat := if p = 2 then 3 else if p = 3 then 2 else p

/-- The PAM4 symbols of an octet, most significant pair first. -/
def octetLevels (b : Byte) : List Nat := [bitsOf b.toNat 7 6, bitsOf b.toNat 5 4, bitsOf b.toNat 3 2, bitsOf b.toNat 1 0].map grayLevel

/-- The PAM4 symbols of octets (R161). -/
def levels (bs : List Byte) : List Nat := bs.flatMap octetLevels

end Sys2Proof.Machine
end

