-- ==== Sys2Proof/Machine/Rs.lean ====
section
/-! DEFINITION. What the burst receiver does to octets: header error control and its correction (R163, R288), the division of
a data area into codewords (R278), the Reed-Solomon code of report blocks (R280), the descrambler (R281). -/

namespace Sys2Proof.Machine

/-! ### Header error control -/

/-- The HEC of a structure checks (R163). -/
def hecOk (w : BitVec 64) : Bool := w.extractLsb' 0 13 == Config.hec (w.extractLsb' 13 51)

/-- A structure whose HEC checks, as it is or with one bit corrected (R288). -/
def hecFix (w : BitVec 64) : Option (BitVec 64) :=
  if hecOk w then some w
  else ((List.range 64).map (fun i => w ^^^ BitVec.ofNat 64 (2 ^ i))).find? hecOk

/-! ### Codewords of a data area (R278) -/

/-- Parity octets of the last codeword, of a remainder of `r` octets. -/
def lastParity (r : Nat) : Nat := 16 * ceilDiv (7 * r) 720

/-- The codewords of `n` octets: the octets of each on the line, and those of them that are information. A remainder without
information is a fill block, none of which is decoded. -/
def dataCodewords : Nat → Nat → List (Nat × Nat)
  | 0, _ => []
  | k + 1, n =>
    if 2160 ≤ n then (2160, 1824) :: dataCodewords k (n - 2160)
    else if n ≤ lastParity n then []
    else [(n, n - lastParity n)]

/-- The same for G.9804.2 at code rate index `f` (R282). -/
def gponCodewords (f : Nat) : Nat → Nat → List (Nat × Nat)
  | 0, _ => []
  | k + 1, n =>
    let c := Config.gponCodeword f n
    if c.1 = 0 ∨ n < c.1 then [] else c :: gponCodewords f k (n - c.1)

/-! ### The field of the report code (R280) -/

/-- Multiplication by the element 2 under x^8 + x^4 + x^3 + x^2 + 1. -/
def gfDouble (a : Nat) : Nat := if a < 128 then 2 * a else (2 * a ^^^ 0x11D) % 256

/-- The product of two elements. -/
def gfMul (a b : Nat) : Nat :=
  ((List.range 8).foldl (fun (r : Nat × Nat) i => (if b.testBit i then r.1 ^^^ r.2 else r.1, gfDouble r.2)) (0, a)).1

/-- A power. -/
def gfPow (a : Nat) : Nat → Nat
  | 0 => 1
  | n + 1 => gfMul a (gfPow a n)

/-- The inverse of an element other than 0. -/
def gfInv (a : Nat) : Nat := gfPow a 254

/-- A polynomial, lowest coefficient first, at `x`. -/
def gfEval (p : List Nat) (x : Nat) : Nat := p.foldr (fun c v => c ^^^ gfMul x v) 0

/-- The sum of two polynomials. -/
def gfAdd : List Nat → List Nat → List Nat
  | [], q => q
  | p, [] => p
  | a :: p, b :: q => (a ^^^ b) :: gfAdd p q

/-- A polynomial times a constant and x^`m`. -/
def gfShift (c m : Nat) (p : List Nat) : List Nat := List.replicate m 0 ++ p.map (gfMul c)

/-- The syndromes of 16 received octets, whose first is the highest coefficient. -/
def rsSyndromes (r : List Nat) : List Nat := (List.range 8).map (fun j => gfEval r.reverse (gfPow 2 j))

/-- The state of the search for the error locator (Berlekamp and Massey): the locator, the locator before its last change of
length, its length, the steps since then, and the discrepancy then. -/
structure RsLoc where
  c : List Nat
  b : List Nat
  len : Nat
  m : Nat
  d : Nat

/-- One step of it, at syndrome `n`. -/
def RsLoc.step (x : RsLoc) (syn : List Nat) (n : Nat) : RsLoc :=
  let d := (List.range (x.len + 1)).foldl (fun a i => a ^^^ gfMul (x.c.getD i 0) (if i ≤ n then syn.getD (n - i) 0 else 0)) 0
  if d = 0 then { x with m := x.m + 1 }
  else
    let c := gfAdd x.c (gfShift (gfMul d (gfInv x.d)) x.m x.b)
    if 2 * x.len ≤ n then { c := c, b := x.c, len := n + 1 - x.len, m := 1, d := d } else { x with c := c, m := x.m + 1 }

/-- The error locator. -/
def rsLocator (syn : List Nat) : RsLoc :=
  (List.range 8).foldl (fun x n => x.step syn n) { c := [1], b := [1], len := 0, m := 1, d := 1 }

/-- The value to correct at power `k`, by the locator `c` (Forney). -/
def rsValue (syn c : List Nat) (k : Nat) : Nat :=
  let x := gfPow 2 k
  let y := gfInv x
  let w := (List.range 8).map (fun n =>
    (List.range (n + 1)).foldl (fun a i => a ^^^ gfMul (c.getD i 0) (syn.getD (n - i) 0)) 0)
  let odd := (List.range c.length).map (fun i => if i % 2 = 1 then c.getD i 0 else 0)
  gfMul (gfMul x (gfEval w y)) (gfInv (gfMul x (gfEval odd y)))

/-- A received report block corrected, where at most 4 octets are in error. -/
def rsFix (r : List Nat) : Option (List Nat) :=
  let syn := rsSyndromes r
  if syn.all (· == 0) then some r
  else
    let x := rsLocator syn
    let at_ := (List.range 16).filter (fun k => gfEval x.c (gfInv (gfPow 2 k)) == 0)
    let y := (List.range 16).map (fun i => r.getD i 0 ^^^ (if at_.contains (15 - i) then rsValue syn x.c (15 - i) else 0))
    if 4 < x.len ∨ at_.length ≠ x.len ∨ (rsSyndromes y).any (· != 0) then none else some y

/-- The information octets of a report block and the number of bits corrected, or none where it is uncorrectable (R280). -/
def rsDecode (rx : List Byte) : Option (List Byte × Nat) :=
  let r := (takePad 16 0 rx).map (·.toNat)
  (rsFix r).map (fun y =>
    ((y.take 8).map (BitVec.ofNat 8), ((r.zip y).map (fun x => popCount 8 (x.1 ^^^ x.2))).foldl (· + ·) 0))

/-- OCC of report information (Table 8.3), or none where VERSION is not 1. -/
def reportOcc (info : List Byte) : Option Nat :=
  let v := beNat info
  if bitsOf v 63 60 = 1 then some (bitsOf v 59 36) else none

/-! ### The descrambler (R281) -/

/-- The scrambler's state at the first bit after a burst header. -/
def burstScrambler (onuId lane sfc : Nat) : BitVec 58 :=
  BitVec.ofNat 58 (onuId % 2 ^ 10 * 2 ^ 48 + lane % 2 * 2 ^ 47 + sfc % 2 ^ 47)

/-- The state `n` bits later. -/
def scramblerAfter : Nat → BitVec 58 → BitVec 58
  | 0, s => s
  | n + 1, s => scramblerAfter n (scramblerNext s)

/-- Octets of a burst from offset `off` behind its header on, descrambled. -/
def descramble (onuId lane sfc off : Nat) (bs : List Byte) : List Byte :=
  scramble (scramblerAfter (8 * off) (burstScrambler onuId lane sfc)) bs

/-- Octets with some bits corrected: bit `i` is bit 7 - i % 8 of octet i / 8. -/
def flipBits (bits : List Nat) (bs : List Byte) : List Byte :=
  bits.foldl (fun bs i => updAt bs (i / 8) (fun b => b ^^^ BitVec.ofNat 8 (2 ^ (7 - i % 8)))) bs

end Sys2Proof.Machine
end

