-- ==== Sys2Proof/Machine/TreeBase.lean ====
section
/-! DEFINITION. Trees and lanes: service (R155 to R159), the frame grid (R471, R472), and the fields of ONU table
entries (Table 7.1) and allocations. -/

namespace Sys2Proof.Machine

/-! ### Access -/

/-- Tree `t`. -/
def State.tree (s : State) (t : Nat) : Tree := smGet (fun _ => Tree.fresh) s.trees t

/-- Store tree `t`. -/
def State.setTree (s : State) (t : Nat) (u : Tree) : State :=
  { s with trees := smSet (fun _ => Tree.fresh) s.trees t u }

/-- Lane `l` of a tree. -/
def Tree.lane (u : Tree) (l : Nat) : Lane := if l = 0 then u.lane0 else u.lane1

/-- Store lane `l`. -/
def Tree.setLane (u : Tree) (l : Nat) (v : Lane) : Tree :=
  if l = 0 then { u with lane0 := v } else { u with lane1 := v }

/-- Lane `l` of tree `t`. -/
def State.lane (s : State) (t l : Nat) : Lane := (s.tree t).lane l

/-- Store lane `l` of tree `t`. -/
def State.setLane (s : State) (t l : Nat) (v : Lane) : State := s.setTree t ((s.tree t).setLane l v)

/-! ### Line mode and service -/

/-- TRE_CTRL.LINE_MODE: 0 STANDARD, 1 BRAIDED, 2 TORRENT. -/
def State.lineMode (s : State) (t : Nat) : Nat := s.rf (adTree t 0) 9 8

/-- The tree runs TORRENT. -/
def State.torrent (s : State) (t : Nat) : Bool := s.lineMode t == 2

/-- TRE_CTRL.STD_LANE. -/
def State.stdLane (s : State) (t : Nat) : Nat := s.rf (adTree t 0) 11 11

/-- TRE_CTRL.ENABLE. -/
def State.treeEnable (s : State) (t : Nat) : Bool := s.rb (adTree t 0) 0

/-- The line mode uses lane `l` (R156). -/
def State.laneUsed (s : State) (t l : Nat) : Bool := s.lineMode t != 0 || s.stdLane t == l

/-- A lane or signal loss of lane `l` is in force, a retry among them (R535). -/
def State.laneLost (s : State) (t l : Nat) : Bool :=
  let u := s.tree t
  let v := u.lane l
  v.lineLoss || v.handshake || v.retrying || u.handshake || u.retrying

/-- Lane `l` is usable (R159). -/
def State.laneUsable (s : State) (t l : Nat) : Bool :=
  !(s.lane t l).retired && !s.laneLost t l && !s.rb (adTree t (0x10 + l)) 7

/-- The tree is the standby end of a dual-homed tree (R494, R498): OHM_PROT.VALID with ROLE 0. -/
def State.standby (s : State) (t : Nat) : Bool := s.rb (0x90100 + 2 * t) 47 && !s.rb (0x90100 + 2 * t) 46

/-- Tree `t` is in service (R159). -/
def State.treeUp (s : State) (t : Nat) : Bool :=
  let u := s.tree t
  (s.treeEnable t || u.stopping) && !u.retired && s.serving && !u.drained && !s.standby t &&
    ((s.laneUsed t 0 && s.laneUsable t 0) || (s.laneUsed t 1 && s.laneUsable t 1))

/-- Lane `l` of tree `t` is in service (R159). -/
def State.laneUp (s : State) (t l : Nat) : Bool :=
  s.treeUp t && s.laneUsed t l && s.laneUsable t l && (s.lane t l).returnAt.isNone

/-- The lanes of tree `t` in service, as bits. -/
def State.lanesUp (s : State) (t : Nat) : Nat := b2n (s.laneUp t 0) + 2 * b2n (s.laneUp t 1)

/-! ### The frame grid -/

/-- 125 microseconds of network time in 2^-40 ns. -/
def frameNt : Nat := 125000 * 2 ^ 40

/-- A boundary of the tree's frames and the counter of its frame: on the grid, that of k = 0 (R471). -/
def State.gridOrigin (s : State) (t : Nat) : Nat × Nat :=
  match (s.tree t).offgrid with
  | some o => o
  | none => (s.rf (adTree t 0x20) 16 0 * 2 ^ 40, 0)

/-- How many frames lie between the origin and the last boundary at or before network time `x`. -/
def State.frameIndex (s : State) (t x : Nat) : Int := ((x : Int) - ((s.gridOrigin t).1 : Int)).fdiv (frameNt : Nat)

/-- The boundary (network time) of the frame that holds network time `x`; 0 for one before the start of time. -/
def State.frameStart (s : State) (t x : Nat) : Nat :=
  (((s.gridOrigin t).1 : Int) + s.frameIndex t x * (frameNt : Nat)).toNat

/-- The superframe counter of the frame that holds network time `x`, modulo 2^51. -/
def State.frameCounter (s : State) (t x : Nat) : Nat :=
  unsigned 51 (((s.gridOrigin t).2 : Int) + s.frameIndex t x)

/-- The last moment of the present tick. -/
def State.tickEndNt (s : State) : Nat := s.nt + s.ntStep - 1

/-- The counter and the boundary of the frame that goes on at network time `x` although the grid has changed in it (R472). -/
def State.heldFrame (s : State) (t x : Nat) : Option (Nat × Nat) :=
  match (s.tree t).held with
  | some (c, b, n) => if x < n then some (c, b) else none
  | none => none

/-- The superframe counter of the frame in progress at network time `x`, and the boundary at which that frame began. -/
def State.frameCount (s : State) (t x : Nat) : Nat := ((s.heldFrame t x).map (·.1)).getD (s.frameCounter t x)
def State.frameBegan (s : State) (t x : Nat) : Nat := ((s.heldFrame t x).map (·.2)).getD (s.frameStart t x)

/-- The superframe counter of the present frame. -/
def State.sfc (s : State) (t : Nat) : Nat := s.frameCount t s.tickEndNt

/-- The present tick holds a frame boundary of tree `t` (R461); the boundaries of a tree in service move with a step that ends the
tick (R472). -/
def State.atBoundary (s : State) (t : Nat) : Bool :=
  let b : Int := ((s.gridOrigin t).1 : Int) + s.frameIndex t s.tickEndNt * (frameNt : Nat)
  decide (b ≥ (s.nt : Int)) && (decide (b < (s.nextNt : Int)) || s.treeUp t)

/-- How many frames lie between the origin and the first boundary at or after network time `x`. -/
def State.frameIndexUp (s : State) (t x : Nat) : Int :=
  ((x : Int) - ((s.gridOrigin t).1 : Int) + (frameNt : Nat) - 1).fdiv (frameNt : Nat)

/-- The first boundary of tree `t` in a tick after the present one (network time), and its frame's counter. -/
def State.nextBoundaryNt (s : State) (t : Nat) : Nat :=
  (((s.gridOrigin t).1 : Int) + s.frameIndexUp t s.nextNt * (frameNt : Nat)).toNat
def State.nextCounter (s : State) (t : Nat) : Nat :=
  unsigned 51 (((s.gridOrigin t).2 : Int) + s.frameIndexUp t s.nextNt)

/-- The tick of the tree's next boundary that has not been dealt with: the present one where it holds such a boundary,
else the next. -/
def State.nextBoundaryTick (s : State) (t : Nat) : Nat :=
  if s.atBoundary t && (s.tree t).lastBoundary != some s.now then s.now else s.tickOfNt (s.nextBoundaryNt t)

/-- The first boundary of tree `t` at or after tick `n`, as a tick; `n` is not past. -/
def State.boundaryFrom (s : State) (t n : Nat) : Nat :=
  let x := if n ≤ s.now then s.nt else s.nextNt + (n - s.now - 1) * s.ntStep
  s.tickOfNt ((((s.gridOrigin t).1 : Int) + s.frameIndexUp t x * (frameNt : Nat)).toNat)

/-! ### ONU table entries -/

/-- Word `w` of the entry of ONU handle `h`. -/
def adOnu (h w : Nat) : Nat := adTree (h / 512) (0x5000 + h % 512 * 8 + w)

/-- The entry is in use. -/
def State.onuUsed (s : State) (h : Nat) : Bool := s.rb (adOnu h 0) 47

/-- OWNER of a used entry; a free entry counts as its tree's owner (R60). -/
def State.onuOwner (s : State) (h : Nat) : Nat :=
  if s.onuUsed h then s.rf (adOnu h 0) 43 38 else s.treeOwner (h / 512)

/-- LANES of an entry. -/
def State.onuLanes (s : State) (h : Nat) : Nat := s.rf (adOnu h 0) 27 26

/-- The binding of an allocation handle. -/
def State.alloc (s : State) (a : Nat) : Option (Nat × Nat) := smGet (fun _ => none) s.allocs a

/-- Bind or unbind an allocation. -/
def State.setAlloc (s : State) (a : Nat) (b : Option (Nat × Nat)) : State :=
  { s with allocs := smSet (fun _ => none) s.allocs a b }

/-- The report bucket of an allocation (R204). -/
def State.bucketOf (s : State) (a : Nat) : Nat := smGet (fun _ => 0) s.buckets a

/-- Set a report bucket. -/
def State.setBucket (s : State) (a v : Nat) : State := { s with buckets := smSet (fun _ => 0) s.buckets a v }

/-- The owner of an allocation: that of the ONU it is bound to (R61); an unbound handle counts as the operator's. -/
def State.allocOwner (s : State) (a : Nat) : Nat :=
  match s.alloc a with
  | some (h, _) => s.onuOwner h
  | none => 0

/-! ### Counter sets in HBM (R515) -/

/-- Where a word of a counter set is held. -/
def setKey (family set word : Nat) : Nat := (family * 2 ^ 20 + set) * 12 + word

/-- A counter of a set. -/
def State.setCount (s : State) (family set word : Nat) : Nat := smGet (fun _ => 0) s.sets (setKey family set word)

/-- Add to a counter of a set, modulo 2^48. -/
def State.bumpSet (s : State) (family set word n : Nat) : State :=
  let v := (s.setCount family set word + n) % 2 ^ 48
  { s with sets := smSet (fun _ => 0) s.sets (setKey family set word) v }

/-- A packet counted in two neighbouring words: packets and octets. -/
def State.bumpSet2 (s : State) (family set word len : Nat) : State :=
  (s.bumpSet family set word 1).bumpSet family set (word + 1) len

/-- Word `w` of the statistics of PON lane `2 t + l` (Table 16.5). -/
def adLaneStat (t l w : Nat) : Nat := 0x42000 + 32 * (2 * t + l) + w

/-- Word `w` of the statistics of MAC `m` (Table 16.6). -/
def adMacStat (m w : Nat) : Nat := 0x44000 + 64 * m + w

end Sys2Proof.Machine
end

