-- ==== Sys2Proof/Machine/BurstBase.lean ====
section
/-! DEFINITION. What the receiver of a lane expects: positions in lane time, search windows (R202, R286, R287), the elements of a
burst (R277 to R279, R282), and the optics pins (R184, R283 to R285). Line positions are in units of 1/31,104 ns, which is
u / 625. -/

namespace Sys2Proof.Machine

/-! ### Registers -/

/-- Word `w` of the burst receiver of lane `l` of tree `t`. -/
def adBrx (t l w : Nat) : Nat := adTree t (0x8000 + 0x2000 * l + w)

/-- OVH_BLK, RPT_BLK and PLM_BLK of rate `r`. -/
def State.ovhBlk (s : State) (t r : Nat) : Nat := s.rf (adTree t (0x1004 + r)) 7 0
def State.rptBlk (s : State) (t r : Nat) : Nat := s.rf (adTree t (0x1004 + r)) 15 8
def State.plmBlk (s : State) (t r : Nat) : Nat := s.rf (adTree t (0x1004 + r)) 23 16

/-- Blocks of an upstream frame (R202). -/
def State.frameBlocks (s : State) (t : Nat) : Nat := if s.torrent t then 97200 else 48600

/-- Blocks in 625 ns (R202, R234). -/
def State.blockRate (s : State) (t : Nat) : Nat := if s.torrent t then 486 else 243

/-- The upstream rate of an ONU (R209). -/
def State.onuRate (s : State) (h : Nat) : Nat := if s.torrent (h / 512) then 3 else s.rf (adOnu h 0) 24 23

/-- The end of an item's lane time. -/
def Item.fin (i : Item) : Nat := i.start + i.size

/-! ### Positions -/

/-- One tick in the unit of line positions. -/
def tickPos : Nat := 31104

/-- A symbol unit u. -/
def uPos : Nat := 625

/-- Length of `n` blocks on tree `t`. -/
def State.blkPos (s : State) (t n : Nat) : Nat := n * (if s.torrent t then 64 else 128) * uPos

/-- Ten times the codeword time in ns of rate `r` (Table 1.5). -/
def codewordTenth (r : Nat) : Nat := if r = 3 then 1736 else if r = 2 then 3472 else if r = 1 then 6944 else 13889

/-- The tick that stamps an event which leaves a non-core island at `x` / 311,040 ns: the core clock edge after it, and
two core cycles (R19). -/
def stampTick (x : Nat) : Nat := ceilDiv (x * 3 / 311040 + 3) 3

/-- When an element whose first symbol arrives at position `p` has left the decoder, in 1/311,040 ns (R293). -/
def decodedAt (p r : Nat) : Nat := 10 * p + (8 + 150) * 311040 + codewordTenth r * 31104

/-- Field of BRX_PROF of rate `r` on lane `l`. -/
def State.prof (s : State) (t l r : Nat) : Word := s.raw (adBrx t l (0x11 + 2 * r))

/-- DH_BLK, PRE_BLK and DLM_LEN. -/
def State.dhBlk (s : State) (t l r : Nat) : Nat := fld (s.prof t l r) 39 32
def State.preBlk (s : State) (t l r : Nat) : Nat := fld (s.prof t l r) 47 40
def State.dlmLen (s : State) (t l r : Nat) : Nat := fld (s.prof t l r) 31 25

/-- Nominal arrival of block `b` of an expected frame (R202, R497). -/
def State.nominal (s : State) (t : Nat) (e : Expect) (b : Nat) : Nat := e.base + s.blkPos t b

/-- The first item of a burst or window. -/
def Expect.head (e : Expect) : Option Item := e.items.head?

/-- The kind of an expected item: 0 burst, 1 QUIET, 2 RANGEW. -/
def Expect.kind (e : Expect) : Nat :=
  match e.items with
  | i :: _ => i.kind
  | [] => 0

/-- The ONU of a burst or ranging window. -/
def Expect.onu (e : Expect) : Nat :=
  match e.items with
  | i :: _ => i.onu
  | [] => 0

/-- The rate. -/
def Expect.rate (e : Expect) : Nat :=
  match e.items with
  | i :: _ => i.rate
  | [] => 0

/-- START of the first allocation, or of a window's grant. -/
def Expect.first (e : Expect) : Nat :=
  match e.items with
  | i :: _ => if i.kind = 0 then i.start else i.start + i.ovh
  | [] => 0

/-- The end of the lane time. -/
def Expect.fin (e : Expect) : Nat :=
  match e.items.getLast? with
  | some i => i.fin
  | none => 0

/-- The trace slot of a burst. -/
def Expect.trace (e : Expect) : Option Nat := e.items.findSome? (·.trace)

/-- The search window for the delimiter of an expected item: first and last position (R286, R287). -/
def State.window (s : State) (t l : Nat) (e : Expect) : Int × Int :=
  if e.kind = 0 then
    let r := e.rate
    let td : Int := (s.nominal t e e.first : Int) - (s.blkPos t (s.dhBlk t l r) : Int)
    let guard : Nat := (s.ovhBlk t r - s.preBlk t l r - s.dhBlk t l r) * (if s.torrent t then 64 else 128)
    let h : Int := (((s.rf (adBrx t l 0) 15 0 + ceilDiv guard 2) * uPos : Nat) : Int)
    (max (td - h) e.prevEnd, td + h)
  else
    match e.items with
    | i :: _ => ((s.nominal t e i.start : Nat), (s.nominal t e i.fin : Nat))
    | [] => (0, -1)

/-- Position `at_` lies in the search window. -/
def State.inWindow (s : State) (t l : Nat) (e : Expect) (at_ : Nat) : Bool :=
  let w := s.window t l e
  decide (w.1 ≤ (at_ : Int)) && decide ((at_ : Int) ≤ w.2)

/-! ### Elements of a burst (R277 to R279, R282) -/

/-- Octets of a block of rate `r`. -/
def State.blkOctets (s : State) (t r : Nat) : Nat := if s.torrent t then 16 else 4 * 2 ^ min r 2

/-- An element of a burst: what it is (0 report block, 1 PLOAM codeword, 2 data codeword), the allocation's item, its offset
from FIRST and its length in octets, and of a data codeword its information octets, where they begin in the payload, and the
octets of that payload. -/
structure Element where
  what : Nat
  item : Item
  off : Nat
  len : Nat
  info : Nat
  from_ : Nat
  whole : Nat
deriving DecidableEq, Repr

/-- The codewords of `n` octets of data area of an ONU. -/
def State.codewordsOf (s : State) (t onu n : Nat) : List (Nat × Nat) :=
  if s.torrent t then dataCodewords n n else gponCodewords (s.rf (adOnu onu 0) 22 20) n n

/-- Codewords as elements, the first at offset `off` of the burst and payload offset `from_`. -/
def dataElements (i : Item) (whole : Nat) : Nat → Nat → List (Nat × Nat) → List Element
  | _, _, [] => []
  | off, from_, c :: l =>
    { what := 2, item := i, off := off, len := c.1, info := c.2, from_ := from_, whole := whole } ::
      dataElements i whole (off + c.1) (from_ + c.2) l

/-- The elements of an allocation whose first block lies `b` blocks after FIRST (R277). -/
def State.itemElements (s : State) (t b : Nat) (i : Item) : List Element :=
  let o := s.blkOctets t i.rate
  let r := if i.dbru then s.rptBlk t i.rate else 0
  let m := if i.ploamu then s.plmBlk t i.rate else 0
  let el (what at_ n : Nat) : List Element :=
    if n = 0 then [] else [{ what := what, item := i, off := at_ * o, len := n * o, info := 0, from_ := 0, whole := 0 }]
  let cs := s.codewordsOf t i.onu ((i.size - r - m) * o)
  el 0 b r ++ el 1 (b + r) m ++ dataElements i ((cs.map (·.2)).foldl (· + ·) 0) ((b + r + m) * o) 0 cs

/-- The elements of an accepted burst or ranging response, in line order. -/
def State.elements (s : State) (t : Nat) (e : Expect) : List Element :=
  if e.kind = 0 then e.items.flatMap (fun i => s.itemElements t (i.start - e.first) i)
  else
    match e.items with
    | i :: _ =>
      let n := s.plmBlk t i.rate * s.blkOctets t i.rate
      [{ what := 1, item := i, off := 0, len := n, info := 0, from_ := 0, whole := 0 }]
    | [] => []

/-! ### Optics pins (R184, R283 to R285) -/

/-- The tick of a pin edge at position `p`, under the BRX_PIN word `prm` (R285). -/
def pinTick (prm : Word) (p : Nat) : Nat := ceilDiv p tickPos - fld prm 39 32

/-- BRST_OFF, BRST_W, RSSI_OFF and RSSI_W of a BRX_PIN word as lengths on the line (Table 8.8). -/
def brstOff (prm : Word) : Nat := fld prm 31 24 * tickPos
def brstW (prm : Word) : Nat := fld prm 23 16 * tickPos
def rssiOff (prm : Word) : Nat := fld prm 15 8 * tickPos
def rssiW (prm : Word) : Nat := fld prm 7 0 * tickPos

/-- The pulses that an expected item gives on PBRST (R283): from a position to a position. DESIGN CHOICE (entry 126): in a
QUIET window the bursts detected are the accepted responses, the only ones whose end is known. -/
def State.brstPulses (s : State) (t l : Nat) (e : Expect) : List (Nat × Nat) :=
  match e.items with
  | [] => []
  | i :: _ =>
    let at_ := s.nominal t e i.first
    if i.kind = 0 then
      let prof := s.prof t l i.rate
      let pre := s.nominal t e (i.first + i.ovh - fld prof 47 40 - fld prof 39 32)
      [(at_ + brstOff e.prm, min (at_ + brstOff e.prm + brstW e.prm) pre)]
    else (s.nominal t e i.start, s.nominal t e i.start + brstW e.prm) :: e.fins.map (fun p => (p, p + brstW e.prm))

/-- The pulses that it gives on PRSSI (R284). -/
def State.rssiPulses (s : State) (t : Nat) (e : Expect) : List (Nat × Nat) :=
  match e.items with
  | [] => []
  | i :: _ =>
    let on (p : Nat) : Nat × Nat := (p + rssiOff e.prm, p + rssiOff e.prm + rssiW e.prm)
    if i.kind = 0 || !i.rssi then []
    else if i.kind = 1 && !i.sn then [on (s.nominal t e i.start)]
    else e.delim.toList.map on

/-- The pulses of a pin of lane `l`, 1 PBRST or 2 PRSSI: first tick high, first tick low again. -/
def State.pulses (s : State) (t l kind : Nat) : List (Nat × Nat) :=
  (s.lane t l).expects.flatMap (fun e =>
    ((if kind = 1 then s.brstPulses t l e else s.rssiPulses t e).map (fun x => (pinTick e.prm x.1, pinTick e.prm x.2))))

/-- The pin's level in tick `n`: a pulse holds it high, unless its enable bit is 0 (R184); pulses that overlap or touch are one
(R285). -/
def State.pinLevel (s : State) (t l kind n : Nat) : Bool :=
  s.rb (adTree t (0x10 + l)) (7 - kind) && (s.pulses t l kind).any (fun x => Nat.ble x.1 n && Nat.blt n x.2)

/-- A pin of a lane. -/
def Lane.pin (v : Lane) (kind : Nat) : Pin := if kind = 1 then v.brst else v.rssi

/-- Set a pin of a lane. -/
def Lane.setPin (v : Lane) (kind : Nat) (p : Pin) : Lane := if kind = 1 then { v with brst := p } else { v with rssi := p }

/-- The pin has the given level from tick `n` on. -/
def State.drivePin (s : State) (t l kind n : Nat) (high : Bool) : State :=
  let s' := s.setLane t l ((s.lane t l).setPin kind { high := high, till := n })
  if ((s.lane t l).pin kind).high == high then s' else s'.emit (.pin kind (2 * t + l) high n)

/-- The ticks after the one up to which the pin has been driven in which one of its pulses begins or ends. -/
def State.pinEdges (s : State) (t l kind : Nat) : List Nat :=
  sortNat (((s.pulses t l kind).flatMap (fun x => [x.1, x.2])).filter (fun n => Nat.blt ((s.lane t l).pin kind).till n))

/-- The pin's next edge: its tick. -/
def State.nextEdge (s : State) (t l kind : Nat) : Option Nat :=
  (s.pinEdges t l kind).find? (fun n => s.pinLevel t l kind n != ((s.lane t l).pin kind).high)

/-- The pin is driven up to tick `n`, as `v` gives its level. -/
def State.drivePins (s v : State) (t l kind n : Nat) : State :=
  ((v.pinEdges t l kind).filter (fun k => Nat.ble k n)).foldl (fun s k => s.drivePin t l kind k (v.pinLevel t l kind k)) s

/-- An enable bit of the lane's pins may have changed from `was`: both pins go on with the level that is theirs from the next tick
on (R184). -/
def State.pinsFollow (s was : State) (t l : Nat) : State :=
  ([1, 2] : List Nat).foldl (fun s k =>
    let s := s.drivePins was t l k s.now
    s.drivePin t l k (s.now + 1) (s.pinLevel t l k (s.now + 1))) s

/-- Both pins of a lane that stops go low (R184). -/
def State.pinsLow (s : State) (t l : Nat) : State :=
  ([1, 2] : List Nat).foldl (fun s k => (s.drivePins s t l k s.now).drivePin t l k (s.now + 1) false) s

/-- The tick that stamps what the header check of a candidate at position `p` of rate `r` brings: 8 ns and 6 ns after its
header's last symbol, through the synchroniser (R19, R30, Table 1.5). -/
def State.headerTick (s : State) (t l r p : Nat) : Nat :=
  stampTick (10 * (p + s.blkPos t (s.dhBlk t l r)) + 14 * 311040)

/-- How many ticks after an edge no delimiter that is still being judged can move it: where windows are written, a candidate's
header check and the advance of the pins. -/
def State.pinLag (s : State) (t l : Nat) : Nat :=
  (s.lane t l).expects.foldl (fun m e => if e.kind = 0 then m else max m (s.headerTick t l e.rate 0 + fld e.prm 39 32 + 2)) 0

/-- A command writes BRX_PIN or LOSS_N of lane `l`: it applies to what is expected with a search that opens after this tick
(R310). -/
def State.brxWritten (s : State) (t l : Nat) : State :=
  let v := s.lane t l
  s.setLane t l { v with expects := v.expects.map (fun e =>
    if ((s.now + 1 : Nat) : Int) * (tickPos : Nat) ≤ (s.window t l e).1 then
      { e with prm := s.raw (adBrx t l 1), lossN := s.rf (adBrx t l 0) 35 32 } else e) }

end Sys2Proof.Machine
end

