-- ==== Sys2Proof/Machine/Buckets.lean ====
section
/-! DEFINITION. Token buckets, adjusted lengths, deficit round robin and meters (R320, R321, R324, R326, R328, R329). -/

namespace Sys2Proof.Machine

/-! ### What schedules and is shaped

A thing that a bucket shapes has a number: kind * 2^20 + index, with kind 1 an ONU node, 2 a downstream queue, 3 a
tenant-on-tree node, 4 a lane node, 5 an egress queue (8 m + c), 6 a MAC, 7 the punt path, 8 a meter. Ascending numbers
are the child order of a tenant-on-tree node (R326). -/

def ndOnu (h : Nat) : Nat := 2 ^ 20 + h
def ndQueue (h : Nat) : Nat := 2 * 2 ^ 20 + h
def ndTot (n : Nat) : Nat := 3 * 2 ^ 20 + n
def ndLane (n : Nat) : Nat := 4 * 2 ^ 20 + n
def ndEgress (n : Nat) : Nat := 5 * 2 ^ 20 + n
def ndMac (m : Nat) : Nat := 6 * 2 ^ 20 + m
def ndPunt : Nat := 7 * 2 ^ 20
def ndMeter (i : Nat) : Nat := 8 * 2 ^ 20 + i

/-- Entry words of an indexed table; none where nothing was written. -/
def State.entry (s : State) (table idx : Nat) : List Word := smGet (fun _ => []) s.tbl.indexed (table * 2 ^ 24 + idx)

/-- Store an entry of an indexed table. -/
def State.setEntry (s : State) (table idx : Nat) (ws : List Word) : State :=
  { s with tbl := { s.tbl with indexed := smSet (fun _ => []) s.tbl.indexed (table * 2 ^ 24 + idx) ws } }

/-- Word `w` of the configuration of downstream queue `h` (Table 9.2). -/
def State.qw (s : State) (h w : Nat) : Word := nth (s.entry 0x11 h) w 0

/-- KIND 1: a multicast queue. -/
def State.dqMulti (s : State) (h : Nat) : Bool := bitOf (s.qw h 0) 44

/-- The ONU of a KIND 0 queue. -/
def State.dqOnu (s : State) (h : Nat) : Nat := fld (s.qw h 0) 15 0

/-- The tree that a queue serves. -/
def State.dqTree (s : State) (h : Nat) : Nat := if s.dqMulti h then fld (s.qw h 0) 22 16 else s.dqOnu h / 512

/-- Base of the egress region of port `p` (Table 9.9). -/
def adEgPort (p : Nat) : Nat := 0x1200000 + p * 0x1000

/-- Word `w` of egress queue `c` of MAC `m`. -/
def adEgQueue (m c w : Nat) : Nat := adEgPort (m / 8) + 0x100 + 0x20 * (m % 8) + 4 * c + w

/-- Word `w` of the gate control group of MAC `m`. -/
def adGate (m w : Nat) : Nat := adEgPort (m / 8) + 0x10 * (m % 8) + w

/-- The words that hold the configuration of a node: word 0, the committed word and the excess word. -/
def State.ndWords (s : State) (n : Nat) : Word × Word × Word :=
  let i := n % 2 ^ 20
  let at3 (a : Nat) := (s.raw a, s.raw (a + 1), s.raw (a + 2))
  match n / 2 ^ 20 with
  | 1 => at3 (0x1100000 + 4 * i)
  | 2 => (s.qw i 0, s.qw i 2, s.qw i 3)
  | 3 => at3 (0x1020000 + 4 * i)
  | 4 => (s.raw (0x1010000 + 4 * i), s.raw (0x1010001 + 4 * i), 0)
  | 5 => at3 (adEgQueue (i / 8) (i % 8) 0)
  | 6 => (0, s.raw (adGate i 0), 0)
  | 7 => (0, mkWord [(16, s.rf 0x1D00201 21 0), (0, 64)], 0)
  | _ => (0, 0, 0)

/-- The unlimited rate. -/
def rateUnlimited : Nat := 0xFFFFFFF

/-- Rate in kbit/s and burst in units of 10^-6 bit of the committed (0) or excess (1) bucket of a node. -/
def State.shape (s : State) (n round : Nat) : Nat × Nat :=
  let w := s.ndWords n
  let x := if round = 0 then w.2.1 else w.2.2
  (fld x 43 16, fld x 15 0 * 2048 * 10 ^ 6)

/-- A rate is shaped. -/
def shaped (rate : Nat) : Bool := rate != 0 && rate != rateUnlimited

/-- The rate and burst of a node word are admissible (R321). -/
def rateOk (w : Word) : Bool :=
  let r := fld w 43 16
  r == 0 || r == rateUnlimited || (inRange 64 200000000 r && fld w 15 0 != 0)

/-! ### Buckets -/

/-- Where the bucket of a node and round is held. -/
def bkKey (n round : Nat) : Nat := 2 * n + round

/-- The bucket, where it is not full. -/
def State.bucket? (s : State) (n round : Nat) : Option Bucket :=
  smGet (fun _ => none) s.dsq.buckets (bkKey n round)

/-- Store a bucket. -/
def State.putBucket (s : State) (n round : Nat) (b : Option Bucket) : State :=
  { s with dsq := { s.dsq with buckets := smSet (fun _ => none) s.dsq.buckets (bkKey n round) b } }

/-- A bucket's value now under rate and burst (R324). -/
def State.bucketVal (s : State) (n round rate cap : Nat) : Int :=
  match s.bucket? n round with
  | none => cap
  | some b => min (cap : Int) (b.val + ((rate * (s.now - b.at_) : Nat) : Int))

/-- The bucket is eligible (R324, R328): a bucket that went negative waits for its calendar slot. -/
def State.eligibleNode (s : State) (n round : Nat) : Bool :=
  let (rate, cap) := s.shape n round
  if rate = rateUnlimited then true
  else if rate = 0 then false
  else
    match s.bucket? n round with
    | none => true
    | some b =>
      decide (0 ≤ s.bucketVal n round rate cap) &&
        (match b.slot with
          | some t => Nat.ble t s.now
          | none => true)

/-- How many ns after its debit a negative bucket of value `v` becomes eligible under its rate. -/
def refill (rate : Nat) (v : Int) : Nat := ceilDiv (-v).toNat rate

/-- A bucket of value `v` from tick `n` on under its rate: a negative one waits for its calendar slot, first on the coarse wheel
where that is further than the fine wheel reaches (R328). The punt path has no calendar (R423). -/
def mkBucket (node rate n : Nat) (v : Int) : Bucket :=
  let e := n + refill rate v
  if 0 ≤ v ∨ node = ndPunt then { val := v, at_ := n, slot := none, coarse := none }
  else { val := v, at_ := n, slot := some (ceilDiv e 16 * 16),
         coarse := if refill rate v < 1048576 then none else some (e / 65536 * 65536) }

/-- The tree whose scheduler a node of kinds 1 to 4 belongs to. -/
def State.ndTree (s : State) (n : Nat) : Nat :=
  let i := n % 2 ^ 20
  if n / 2 ^ 20 = 1 then i / 512 else if n / 2 ^ 20 = 2 then s.dqTree i else if n / 2 ^ 20 = 3 then i / 64 else i / 2

/-- A node goes on the fine wheel, or on the coarse one (Table 16.4, unit 15). -/
def State.wheelEv (s : State) (n : Nat) (b : Bucket) : State :=
  if b.slot.isSome && Nat.ble (n / 2 ^ 20) 4 then s.monEv 15 (s.ndTree n) (if b.coarse.isSome then 5 else 4) 1 else s

/-- The tick from which a changed value of a bucket counts: the present one, or the next where a command has written its rate in
this tick. -/
def State.bucketFrom (s : State) (n round : Nat) : Nat := max s.now (((s.bucket? n round).map (·.at_)).getD 0)

/-- Debit a packet of adjusted length `a`; unlimited buckets are untouched (R324). -/
def State.debitNode (s : State) (n round a : Nat) : State :=
  let (rate, cap) := s.shape n round
  if !shaped rate then s
  else
    let b := mkBucket n rate (s.bucketFrom n round) (s.bucketVal n round rate cap - ((a * 8 * 10 ^ 6 : Nat) : Int))
    (s.wheelEv n b).putBucket n round (some b)

/-- A node's bucket meets a new configuration (R314), which counts from the next tick (R323): it keeps the value with which this
tick began, clipped to the new burst, less what has been debited in this tick (R327), and gains what this tick brings at the
old rate; where its rate was 0 or unlimited it starts full. `was` is the rate and burst before. DESIGN CHOICE (entry 132): one
that waits on a calendar wheel gets the slot of its new rate; R328 enters a node at a debit alone. -/
def State.rebucket (s : State) (n round : Nat) (was : Nat × Nat) : State :=
  let (rate, cap) := s.shape n round
  if was = (rate, cap) then s
  else if !shaped rate || !shaped was.1 then s.putBucket n round none
  else
    let old := s.atStart.bucketVal n round was.1 was.2
    let debit := old - s.bucketVal n round was.1 was.2
    let v := min (cap : Int) (min (cap : Int) old - debit + (was.1 : Nat))
    s.putBucket n round (if v = (cap : Int) then none else some (mkBucket n rate (s.now + 1) v))

/-! ### Adjusted lengths (R320) -/

/-- A for a packet of `len` octets under length profile `p`. -/
def State.adjusted (s : State) (p len : Nat) : Nat :=
  let w := s.raw (0x1000000 + p)
  let al := (if fld w 9 8 = 1 then 4 else if fld w 9 8 = 2 then 8 else 1)
  let z := (len : Int) + signed 7 (fld w 6 0)
  max 1 (ceilDiv z.toNat al * al)

/-! ### Deficit round robin (R326) -/

/-- A child of a decision: its number, priority and weight. -/
structure Child where
  node : Nat
  prio : Nat
  weight : Nat
deriving DecidableEq, Repr

/-- Where the deficit of a child at a parent is held. -/
def dfKey (parent child : Nat) : Nat := parent * 2 ^ 24 + child

/-- The deficit of a child at a parent. -/
def State.deficit (s : State) (parent child : Nat) : Int := smGet (fun _ => 0) s.dsq.deficits (dfKey parent child)

/-- Store a deficit. -/
def State.setDeficit (s : State) (parent child : Nat) (v : Int) : State :=
  { s with dsq := { s.dsq with deficits := smSet (fun _ => 0) s.dsq.deficits (dfKey parent child) v } }

/-- The pointer of a parent and priority: the number from which the next child is looked for. -/
def State.pointer (s : State) (parent prio : Nat) : Nat := smGet (fun _ => 0) s.dsq.pointers (parent * 8 + prio)

/-- Store a pointer. -/
def State.setPointer (s : State) (parent prio v : Nat) : State :=
  { s with dsq := { s.dsq with pointers := smSet (fun _ => 0) s.dsq.pointers (parent * 8 + prio) v } }

/-- The first child at or after `from` in child order, cyclically; `l` is in ascending order. -/
def childFrom (l : List Child) (start : Nat) : Option Child :=
  match l.find? (fun c => Nat.ble start c.node) with
  | some c => some c
  | none => l.head?

/-- The loop of dwrr: each visit of a child without deficit gives it its weight in quanta. -/
def State.dwrrLoop : Nat → State → Nat → Nat → List Child → Option Nat × State
  | 0, s, _, _, l => (l.head?.map (·.node), s)
  | k + 1, s, parent, prio, l =>
    match childFrom l (s.pointer parent prio) with
    | none => (none, s)
    | some c =>
      let s := s.setPointer parent prio c.node
      let d := s.deficit parent c.node
      if 0 < d then (some c.node, s)
      else
        let s := s.setDeficit parent c.node (d + ((c.weight * s.rf 0x1000010 14 0 : Nat) : Int))
        dwrrLoop k (s.setPointer parent prio (c.node + 1)) parent prio l

/-- dwrr(parent, s with the highest priority present): the child chosen. Enough visits are allowed for the lowest
deficit to become positive at the smallest quantum. -/
def State.dwrr (s : State) (parent : Nat) (l : List Child) : Option Nat × State :=
  let prio := (l.map (·.prio)).foldl max 0
  let top := l.filter (fun c => c.prio == prio)
  let low := (top.map (fun c => (-(s.deficit parent c.node)).toNat)).foldl max 0
  s.dwrrLoop (top.length * (low / 64 + 3)) parent prio top

/-! ### Meters (R329, R330) -/

/-- Colours. -/
inductive Colour where
  | green | yellow | red
deriving DecidableEq, Repr

/-- The index of a colour in a meter's counter set: twice this is its packet word. -/
def Colour.idx : Colour → Nat
  | .green => 0 | .yellow => 1 | .red => 2

/-- The value in 10^-6 bit of meter bucket `r` of meter `i`, not yet clipped. -/
def State.meterRaw (s : State) (i r cap rate : Nat) : Int :=
  match s.bucket? (ndMeter i) r with
  | none => cap
  | some b => b.val + ((rate * (s.now - b.at_) : Nat) : Int)

/-- Colour a packet of `len` octets at meter `i`; `pre` marks one that enters as yellow. -/
def State.meter (s : State) (i len : Nat) (pre : Bool) : Colour × State :=
  let w0 := nth (s.entry 0x10 i) 0 0
  let w1 := nth (s.entry 0x10 i) 1 0
  let need : Int := ((s.adjusted (fld w0 41 38) len * 8 * 10 ^ 6 : Nat) : Int)
  let cir := fld w0 27 0
  let capC : Nat := fld w1 47 24 * 8 * 10 ^ 6
  let capE : Nat := fld w1 23 0 * 8 * 10 ^ 6
  let yellowIn := pre && bitOf w0 46
  let store (s : State) (c e : Int) : State :=
    (s.putBucket (ndMeter i) 0 (some { val := c, at_ := s.now, slot := none, coarse := none })).putBucket (ndMeter i) 1
      (some { val := e, at_ := s.now, slot := none, coarse := none })
  let (colour, s) :=
    if bitOf w0 47 then
      let c := min (capC : Int) (s.meterRaw i 0 capC cir)
      let p := min (capE : Int) (s.meterRaw i 1 capE (fld (nth (s.entry 0x10 i) 2 0) 27 0))
      if p < need then (Colour.red, store s c p)
      else if yellowIn || decide (c < need) then (Colour.yellow, store s c (p - need))
      else (Colour.green, store s (c - need) (p - need))
    else
      let grown := s.meterRaw i 0 capC cir
      let c := min (capC : Int) grown
      let e := min (capE : Int) (s.meterRaw i 1 capE 0 + (grown - c))
      if !yellowIn && decide (need ≤ c) then (Colour.green, store s (c - need) e)
      else if need ≤ e then (Colour.yellow, store s c (e - need))
      else (Colour.red, store s c e)
  (colour, s.bumpSet2 3 i (2 * colour.idx) len)

end Sys2Proof.Machine
end

