-- ==== Sys2Proof/Machine/Crc.lean ====
section
/-! DEFINITION. Check values: a CRC of any width and the fixed ones of the spec. -/

namespace Sys2Proof.Machine

/-- `v` with its low `w` bits in reverse order. -/
def revBits : Nat → Nat → Nat
  | 0, _ => 0
  | w + 1, v => v % 2 * 2 ^ w + revBits w (v / 2)

/-- One bit `b` into a register of `w` bits under polynomial `poly`, most significant bit first. -/
def crcBit (w poly reg : Nat) (b : Bool) : Nat :=
  let top := reg.testBit (w - 1) != b
  let sh := reg * 2 % 2 ^ w
  if top then sh ^^^ poly else sh

/-- The low `n` bits of `v`, most significant first, into a register. -/
def crcBits (w poly : Nat) : Nat → Nat → Nat → Nat
  | 0, _, reg => reg
  | n + 1, v, reg => crcBits w poly n v (crcBit w poly reg (v.testBit n))

/-- Octets into a register; with `refin` each octet's least significant bit comes first. -/
def crcOctets (w poly : Nat) (refin : Bool) (reg : Nat) (l : List Nat) : Nat :=
  l.foldl (fun r o => crcBits w poly 8 (if refin then revBits 8 o else o) r) reg

/-- The CRC-32C of R561: reflected in and out, initial value and final XOR all ones. -/
def crc32c (l : List Nat) : Nat :=
  revBits 32 (crcOctets 32 0x1EDC6F41 true 0xFFFFFFFF l) ^^^ 0xFFFFFFFF

/-- The CRC-32C over words, 6 octets each from bits 47:40 (R561). -/
def crc32cWords (ws : List Word) : Nat := crc32c ((wordsOctets ws).map (·.toNat))

/-- The hash of R356: CRC-32C without final XOR; `h` is the value so far in its reflected form. -/
def hash32c (h : Nat) (l : List Nat) : Nat :=
  revBits 32 (crcOctets 32 0x1EDC6F41 true (revBits 32 h) l)

/-- The CRC-16 of R411 over the low `n` bits of a number, most significant first. -/
def crc16 (n v : Nat) : Nat := crcBits 16 0x1021 n v 0xFFFF

/-- The CRC-64 of the ring (Table 16.12): polynomial 0x42F0E1EBA9EA3693, not reflected, all zeros. -/
def crc64 (l : List Nat) : Nat := crcOctets 64 0x42F0E1EBA9EA3693 false 0 l

/-- The frame check sequence of IEEE 802.3: CRC-32 reflected, initial value and final XOR all ones. -/
def fcs32 (l : List Nat) : Nat :=
  revBits 32 (crcOctets 32 0x04C11DB7 true 0xFFFFFFFF l) ^^^ 0xFFFFFFFF

end Sys2Proof.Machine
end

