-- ==== Sys2Proof/Machine/Aes.lean ====
section
/-! DEFINITION. The ciphers of the key unit and the line engines: AES-128 (FIPS 197), counter mode (SP 800-38A), CMAC
(SP 800-38B) and key wrap (SP 800-38F), over octets held as numbers below 256. -/

namespace Sys2Proof.Machine

/-- The S-box of FIPS 197, entries 0 to 63. -/
def aesSbox0 : List Nat := [
  0x63, 0x7c, 0x77, 0x7b, 0xf2, 0x6b, 0x6f, 0xc5, 0x30, 0x01, 0x67, 0x2b, 0xfe, 0xd7, 0xab, 0x76,
  0xca, 0x82, 0xc9, 0x7d, 0xfa, 0x59, 0x47, 0xf0, 0xad, 0xd4, 0xa2, 0xaf, 0x9c, 0xa4, 0x72, 0xc0,
  0xb7, 0xfd, 0x93, 0x26, 0x36, 0x3f, 0xf7, 0xcc, 0x34, 0xa5, 0xe5, 0xf1, 0x71, 0xd8, 0x31, 0x15,
  0x04, 0xc7, 0x23, 0xc3, 0x18, 0x96, 0x05, 0x9a, 0x07, 0x12, 0x80, 0xe2, 0xeb, 0x27, 0xb2, 0x75]

/-- The S-box of FIPS 197, entries 64 to 127. -/
def aesSbox1 : List Nat := [
  0x09, 0x83, 0x2c, 0x1a, 0x1b, 0x6e, 0x5a, 0xa0, 0x52, 0x3b, 0xd6, 0xb3, 0x29, 0xe3, 0x2f, 0x84,
  0x53, 0xd1, 0x00, 0xed, 0x20, 0xfc, 0xb1, 0x5b, 0x6a, 0xcb, 0xbe, 0x39, 0x4a, 0x4c, 0x58, 0xcf,
  0xd0, 0xef, 0xaa, 0xfb, 0x43, 0x4d, 0x33, 0x85, 0x45, 0xf9, 0x02, 0x7f, 0x50, 0x3c, 0x9f, 0xa8,
  0x51, 0xa3, 0x40, 0x8f, 0x92, 0x9d, 0x38, 0xf5, 0xbc, 0xb6, 0xda, 0x21, 0x10, 0xff, 0xf3, 0xd2]

/-- The S-box of FIPS 197, entries 128 to 191. -/
def aesSbox2 : List Nat := [
  0xcd, 0x0c, 0x13, 0xec, 0x5f, 0x97, 0x44, 0x17, 0xc4, 0xa7, 0x7e, 0x3d, 0x64, 0x5d, 0x19, 0x73,
  0x60, 0x81, 0x4f, 0xdc, 0x22, 0x2a, 0x90, 0x88, 0x46, 0xee, 0xb8, 0x14, 0xde, 0x5e, 0x0b, 0xdb,
  0xe0, 0x32, 0x3a, 0x0a, 0x49, 0x06, 0x24, 0x5c, 0xc2, 0xd3, 0xac, 0x62, 0x91, 0x95, 0xe4, 0x79,
  0xe7, 0xc8, 0x37, 0x6d, 0x8d, 0xd5, 0x4e, 0xa9, 0x6c, 0x56, 0xf4, 0xea, 0x65, 0x7a, 0xae, 0x08]

/-- The S-box of FIPS 197, entries 192 to 255. -/
def aesSbox3 : List Nat := [
  0xba, 0x78, 0x25, 0x2e, 0x1c, 0xa6, 0xb4, 0xc6, 0xe8, 0xdd, 0x74, 0x1f, 0x4b, 0xbd, 0x8b, 0x8a,
  0x70, 0x3e, 0xb5, 0x66, 0x48, 0x03, 0xf6, 0x0e, 0x61, 0x35, 0x57, 0xb9, 0x86, 0xc1, 0x1d, 0x9e,
  0xe1, 0xf8, 0x98, 0x11, 0x69, 0xd9, 0x8e, 0x94, 0x9b, 0x1e, 0x87, 0xe9, 0xce, 0x55, 0x28, 0xdf,
  0x8c, 0xa1, 0x89, 0x0d, 0xbf, 0xe6, 0x42, 0x68, 0x41, 0x99, 0x2d, 0x0f, 0xb0, 0x54, 0xbb, 0x16]

/-- The S-box of FIPS 197. -/
def aesSbox : List Nat := aesSbox0 ++ aesSbox1 ++ aesSbox2 ++ aesSbox3

/-- The inverse S-box of FIPS 197, entries 0 to 63. -/
def aesInvSbox0 : List Nat := [
  0x52, 0x09, 0x6a, 0xd5, 0x30, 0x36, 0xa5, 0x38, 0xbf, 0x40, 0xa3, 0x9e, 0x81, 0xf3, 0xd7, 0xfb,
  0x7c, 0xe3, 0x39, 0x82, 0x9b, 0x2f, 0xff, 0x87, 0x34, 0x8e, 0x43, 0x44, 0xc4, 0xde, 0xe9, 0xcb,
  0x54, 0x7b, 0x94, 0x32, 0xa6, 0xc2, 0x23, 0x3d, 0xee, 0x4c, 0x95, 0x0b, 0x42, 0xfa, 0xc3, 0x4e,
  0x08, 0x2e, 0xa1, 0x66, 0x28, 0xd9, 0x24, 0xb2, 0x76, 0x5b, 0xa2, 0x49, 0x6d, 0x8b, 0xd1, 0x25]

/-- The inverse S-box of FIPS 197, entries 64 to 127. -/
def aesInvSbox1 : List Nat := [
  0x72, 0xf8, 0xf6, 0x64, 0x86, 0x68, 0x98, 0x16, 0xd4, 0xa4, 0x5c, 0xcc, 0x5d, 0x65, 0xb6, 0x92,
  0x6c, 0x70, 0x48, 0x50, 0xfd, 0xed, 0xb9, 0xda, 0x5e, 0x15, 0x46, 0x57, 0xa7, 0x8d, 0x9d, 0x84,
  0x90, 0xd8, 0xab, 0x00, 0x8c, 0xbc, 0xd3, 0x0a, 0xf7, 0xe4, 0x58, 0x05, 0xb8, 0xb3, 0x45, 0x06,
  0xd0, 0x2c, 0x1e, 0x8f, 0xca, 0x3f, 0x0f, 0x02, 0xc1, 0xaf, 0xbd, 0x03, 0x01, 0x13, 0x8a, 0x6b]

/-- The inverse S-box of FIPS 197, entries 128 to 191. -/
def aesInvSbox2 : List Nat := [
  0x3a, 0x91, 0x11, 0x41, 0x4f, 0x67, 0xdc, 0xea, 0x97, 0xf2, 0xcf, 0xce, 0xf0, 0xb4, 0xe6, 0x73,
  0x96, 0xac, 0x74, 0x22, 0xe7, 0xad, 0x35, 0x85, 0xe2, 0xf9, 0x37, 0xe8, 0x1c, 0x75, 0xdf, 0x6e,
  0x47, 0xf1, 0x1a, 0x71, 0x1d, 0x29, 0xc5, 0x89, 0x6f, 0xb7, 0x62, 0x0e, 0xaa, 0x18, 0xbe, 0x1b,
  0xfc, 0x56, 0x3e, 0x4b, 0xc6, 0xd2, 0x79, 0x20, 0x9a, 0xdb, 0xc0, 0xfe, 0x78, 0xcd, 0x5a, 0xf4]

/-- The inverse S-box of FIPS 197, entries 192 to 255. -/
def aesInvSbox3 : List Nat := [
  0x1f, 0xdd, 0xa8, 0x33, 0x88, 0x07, 0xc7, 0x31, 0xb1, 0x12, 0x10, 0x59, 0x27, 0x80, 0xec, 0x5f,
  0x60, 0x51, 0x7f, 0xa9, 0x19, 0xb5, 0x4a, 0x0d, 0x2d, 0xe5, 0x7a, 0x9f, 0x93, 0xc9, 0x9c, 0xef,
  0xa0, 0xe0, 0x3b, 0x4d, 0xae, 0x2a, 0xf5, 0xb0, 0xc8, 0xeb, 0xbb, 0x3c, 0x83, 0x53, 0x99, 0x61,
  0x17, 0x2b, 0x04, 0x7e, 0xba, 0x77, 0xd6, 0x26, 0xe1, 0x69, 0x14, 0x63, 0x55, 0x21, 0x0c, 0x7d]

/-- The inverse S-box of FIPS 197. -/
def aesInvSbox : List Nat := aesInvSbox0 ++ aesInvSbox1 ++ aesInvSbox2 ++ aesInvSbox3


/-- Multiplication by x in the field of FIPS 197. -/
def aesXtime (a : Nat) : Nat := if a < 128 then 2 * a else (2 * a ^^^ 0x1b) % 256

/-- Multiplication by a small constant `c` below 16. -/
def aesMul (c a : Nat) : Nat :=
  let a2 := aesXtime a
  let a4 := aesXtime a2
  let a8 := aesXtime a4
  (if c.testBit 0 then a else 0) ^^^ (if c.testBit 1 then a2 else 0) ^^^ (if c.testBit 2 then a4 else 0) ^^^
    (if c.testBit 3 then a8 else 0)

/-- The exclusive or of two octet strings. -/
def xorOct (a b : List Nat) : List Nat := List.zipWith (· ^^^ ·) a b

/-- One column mixed with the coefficients of a row. -/
def aesMixCol (c0 c1 c2 c3 : Nat) : List Nat → List Nat
  | [a, b, c, d] =>
    [aesMul c0 a ^^^ aesMul c1 b ^^^ aesMul c2 c ^^^ aesMul c3 d,
     aesMul c3 a ^^^ aesMul c0 b ^^^ aesMul c1 c ^^^ aesMul c2 d,
     aesMul c2 a ^^^ aesMul c3 b ^^^ aesMul c0 c ^^^ aesMul c1 d,
     aesMul c1 a ^^^ aesMul c2 b ^^^ aesMul c3 c ^^^ aesMul c0 d]
  | l => l

/-- Every column of a state mixed. -/
def aesMix (c0 c1 c2 c3 : Nat) (st : List Nat) : List Nat :=
  aesMixCol c0 c1 c2 c3 (st.take 4) ++ aesMixCol c0 c1 c2 c3 ((st.drop 4).take 4) ++
    aesMixCol c0 c1 c2 c3 ((st.drop 8).take 4) ++ aesMixCol c0 c1 c2 c3 ((st.drop 12).take 4)

/-- A state with its octets taken from the given places. -/
def aesPick (p st : List Nat) : List Nat := p.map (fun i => st.getD i 0)

/-- Where ShiftRows takes each octet from. -/
def aesShift : List Nat := [0, 5, 10, 15, 4, 9, 14, 3, 8, 13, 2, 7, 12, 1, 6, 11]

/-- Where InvShiftRows takes each octet from. -/
def aesInvShift : List Nat := [0, 13, 10, 7, 4, 1, 14, 11, 8, 5, 2, 15, 12, 9, 6, 3]

/-- SubBytes by a table. -/
def aesSub (t st : List Nat) : List Nat := st.map (fun i => t.getD i 0)

/-- The next round key. -/
def aesNextKey (rc : Nat) (k : List Nat) : List Nat :=
  let w3 := k.drop 12
  let t := xorOct (aesSub aesSbox (w3.drop 1 ++ w3.take 1)) [rc, 0, 0, 0]
  let w0 := xorOct (k.take 4) t
  let w1 := xorOct ((k.drop 4).take 4) w0
  let w2 := xorOct ((k.drop 8).take 4) w1
  w0 ++ w1 ++ w2 ++ xorOct w3 w2

/-- The round keys from `k` on, one for each round constant. -/
def aesKeys : List Nat → List Nat → List (List Nat)
  | [], k => [k]
  | rc :: rs, k => k :: aesKeys rs (aesNextKey rc k)

/-- The eleven round keys of a key. -/
def aesSchedule (k : List Nat) : List (List Nat) :=
  aesKeys [0x01, 0x02, 0x04, 0x08, 0x10, 0x20, 0x40, 0x80, 0x1b, 0x36] k

/-- Rounds of the cipher after the first key addition; the last one has no MixColumns. -/
def aesRounds : List (List Nat) → List Nat → List Nat
  | [], st => st
  | [k], st => xorOct (aesPick aesShift (aesSub aesSbox st)) k
  | k :: ks, st => aesRounds ks (xorOct (aesMix 2 3 1 1 (aesPick aesShift (aesSub aesSbox st))) k)

/-- Rounds of the inverse cipher. -/
def aesInvRounds : List (List Nat) → List Nat → List Nat
  | [], st => st
  | [k], st => xorOct (aesSub aesInvSbox (aesPick aesInvShift st)) k
  | k :: ks, st => aesInvRounds ks (aesMix 14 11 13 9 (xorOct (aesSub aesInvSbox (aesPick aesInvShift st)) k))

/-- AES-128 encryption of one block under a key, both as 16 octets. -/
def aesEnc (key blk : List Nat) : List Nat :=
  match aesSchedule key with
  | k :: ks => aesRounds ks (xorOct blk k)
  | [] => blk

/-- AES-128 decryption of one block. -/
def aesDec (key blk : List Nat) : List Nat :=
  match (aesSchedule key).reverse with
  | k :: ks => aesInvRounds ks (xorOct blk k)
  | [] => blk

/-- The next pair of round keys of AES-256, from the pair before it. -/
def aesNextPair (rc : Nat) (a b : List Nat) : List Nat × List Nat :=
  let w3 := b.drop 12
  let step (t p : List Nat) : List Nat :=
    let w0 := xorOct (p.take 4) t
    let w1 := xorOct ((p.drop 4).take 4) w0
    let w2 := xorOct ((p.drop 8).take 4) w1
    w0 ++ w1 ++ w2 ++ xorOct (p.drop 12) w2
  let c := step (xorOct (aesSub aesSbox (w3.drop 1 ++ w3.take 1)) [rc, 0, 0, 0]) a
  (c, step (aesSub aesSbox (c.drop 12)) b)

/-- The round keys of AES-256 from a pair on. -/
def aesPairs : List Nat → List Nat × List Nat → List (List Nat)
  | [], k => [k.1, k.2]
  | rc :: rs, k => k.1 :: k.2 :: aesPairs rs (aesNextPair rc k.1 k.2)

/-- AES-256 encryption of one block; the key has 32 octets. The schedule of 8 pairs gives one round key too many. -/
def aesEnc256 (key blk : List Nat) : List Nat :=
  match (aesPairs [0x01, 0x02, 0x04, 0x08, 0x10, 0x20, 0x40] (key.take 16, key.drop 16)).take 15 with
  | k :: ks => aesRounds ks (xorOct blk k)
  | [] => blk

/-- XTS-AES-256 of one data unit of 16 octets (IEEE 1619): the key pair has 64 octets, the tweak 16. -/
def xtsEnc (keys tweak blk : List Nat) : List Nat :=
  let t := aesEnc256 (keys.drop 32) tweak
  xorOct (aesEnc256 (keys.take 32) (xorOct blk t)) t

/-- The `n` octets of a number, most significant first, as numbers. -/
def natOct : Nat → Nat → List Nat
  | 0, _ => []
  | n + 1, v => v / 2 ^ (8 * n) % 256 :: natOct n v

/-- The number that octets spell, most significant first. -/
def octNat (l : List Nat) : Nat := l.foldl (fun a b => a * 256 + b) 0

/-- A key as 16 octets, bits 127:120 first (R90). -/
def keyOct (k : BitVec 128) : List Nat := natOct 16 k.toNat

/-- Octets as numbers. -/
def bytesNat (bs : List Byte) : List Nat := bs.map (·.toNat)

/-- Numbers as octets. -/
def natBytes (l : List Nat) : List Byte := l.map (BitVec.ofNat 8)

/-- Cut into blocks of `n`, at most `fuel` of them. -/
def blocksOf (n : Nat) : Nat → List Nat → List (List Nat)
  | 0, _ => []
  | fuel + 1, l => if l.isEmpty then [] else l.take n :: blocksOf n fuel (l.drop n)

/-- The blocks of 16 octets of a string. -/
def blocks16 (l : List Nat) : List (List Nat) := blocksOf 16 (l.length / 16 + 1) l

/-- ECB encryption of whole blocks. -/
def aesEcbEnc (key l : List Nat) : List Nat := (blocks16 l).flatMap (aesEnc key)

/-- ECB decryption of whole blocks. -/
def aesEcbDec (key l : List Nat) : List Nat := (blocks16 l).flatMap (aesDec key)

/-- Counter mode: block `j` of the payload is masked with the encrypted counter `ctr j` (R437). -/
def aesCtr (key : List Nat) (ctr : Nat → Nat) : Nat → List (List Nat) → List Nat
  | _, [] => []
  | j, b :: bs => xorOct b (aesEnc key (natOct 16 (ctr j))) ++ aesCtr key ctr (j + 1) bs

/-- The doubling of SP 800-38B. -/
def cmacDouble (l : List Nat) : List Nat :=
  let v := octNat l
  natOct 16 (if v < 2 ^ 127 then 2 * v else (2 * v - 2 ^ 128) ^^^ 0x87)

/-- The chain of CMAC over whole blocks. -/
def cmacChain (key : List Nat) : List Nat → List (List Nat) → List Nat
  | c, [] => c
  | c, b :: bs => cmacChain key (aesEnc key (xorOct c b)) bs

/-- AES-CMAC of an octet string: the 16-octet tag. -/
def aesCmac (key l : List Nat) : List Nat :=
  let k1 := cmacDouble (aesEnc key (List.replicate 16 0))
  let n := if l.isEmpty then 0 else (l.length - 1) / 16
  let last := l.drop (16 * n)
  let fin := if last.length = 16 then xorOct last k1
    else xorOct ((last ++ [0x80] ++ List.replicate 16 0).take 16) (cmacDouble k1)
  aesEnc key (xorOct (cmacChain key (List.replicate 16 0) (blocks16 (l.take (16 * n)))) fin)

/-- One step of key wrap: `a` the check value, `r` the half encrypted, `t` the step number. -/
def kwStep (key a r : List Nat) (t : Nat) : List Nat × List Nat :=
  let b := aesEnc key (a ++ r)
  (xorOct (b.take 8) (natOct 8 t), b.drop 8)

/-- One step of key unwrap. -/
def kwUnstep (key a r : List Nat) (t : Nat) : List Nat × List Nat :=
  let b := aesDec key (xorOct a (natOct 8 t) ++ r)
  (b.take 8, b.drop 8)

/-- Key wrap (SP 800-38F KW) of two halves: rounds `j` to 5. -/
def kwLoop (key : List Nat) : Nat → Nat → List Nat → List Nat → List Nat → List Nat
  | 0, _, a, r1, r2 => a ++ r1 ++ r2
  | n + 1, t, a, r1, r2 =>
    let s1 := kwStep key a r1 t
    let s2 := kwStep key s1.1 r2 (t + 1)
    kwLoop key n (t + 2) s2.1 s1.2 s2.2

/-- The wrapped form, 24 octets, of a 16-octet key. -/
def aesWrap (kek l : List Nat) : List Nat :=
  kwLoop kek 6 1 (List.replicate 8 0xA6) (l.take 8) (l.drop 8)

/-- Key unwrap: rounds downward from step `t`. -/
def kwUnloop (key : List Nat) : Nat → Nat → List Nat → List Nat → List Nat → List Nat
  | 0, _, a, r1, r2 => a ++ r1 ++ r2
  | n + 1, t, a, r1, r2 =>
    let s2 := kwUnstep key a r2 t
    let s1 := kwUnstep key s2.1 r1 (t - 1)
    kwUnloop key n (t - 2) s1.1 s1.2 s2.2

/-- The 16-octet key in a wrapped form of 24 octets, where its check value is right. -/
def aesUnwrap (kek l : List Nat) : Option (List Nat) :=
  let r := kwUnloop kek 6 12 (l.take 8) ((l.drop 8).take 8) ((l.drop 16).take 8)
  if r.take 8 = List.replicate 8 0xA6 then some (r.drop 8) else none

end Sys2Proof.Machine
end

