-- ==== Sys2Proof/Machine/KeyOps.lean ====
section
/-! DEFINITION. The key store, line-key invalidation, counter blocks and the operations of the key unit (13). -/

namespace Sys2Proof.Machine

/-! ### Slots (R429, R430) -/

/-- Slots of the key store. -/
def keySlots : Nat := 262144

/-- First slot of the general region. -/
def keyGeneral : Nat := 131072

/-- Slot `n`. -/
def State.slot (s : State) (n : Nat) : KeySlot := smGet (fun _ => KeySlot.fresh) s.key.slots n

/-- Store slot `n`. -/
def State.setSlot (s : State) (n : Nat) (k : KeySlot) : State :=
  { s with key := { s.key with slots := smSet (fun _ => KeySlot.fresh) s.key.slots n k } }

/-- KIND of slot `n`: 1 throughout the line-unicast region. -/
def State.slotKind (s : State) (n : Nat) : Nat := if n < keyGeneral then 1 else (s.slot n).kind

/-- OWNER of slot `n`: in the line-unicast region, that of its ONU. -/
def State.slotOwner (s : State) (n : Nat) : Nat := if n < keyGeneral then s.onuOwner (n / 2) else (s.slot n).owner

/-- A key is written into slot `n`, which keeps its KIND, OWNER and flags (R450). -/
def State.loadSlot (s : State) (n : Nat) (key : BitVec 128) : State :=
  s.setSlot n { s.slot n with valid := true, key := key }

/-- VALID, TX and the key of slot `n` are cleared; ENCREQ stays. -/
def State.wipeSlot (s : State) (n : Nat) : State :=
  s.setSlot n { s.slot n with valid := false, tx := false, key := 0 }

/-- At ADMIT and REMOVE of ONU `h` both its slots lose key and flags (R430). -/
def State.clearOnuSlots (s : State) (h : Nat) : State :=
  (s.setSlot (2 * h) KeySlot.fresh).setSlot (2 * h + 1) KeySlot.fresh

/-! ### Group entries (R457) -/

/-- Word of TRE_GRP entry `i` of tree `t`. -/
def adGrp (t i : Nat) : Nat := adTree t (0x100 + i)

/-- The pairs that the valid TRE_GRP entries of tree `t` name, as even slots. -/
def State.grpPairs (s : State) (t : Nat) : List Nat :=
  ((List.range 16).filter (fun i => s.rb (adGrp t i) 47)).map (fun i => s.rf (adGrp t i) 17 0)

/-- The tree whose valid TRE_GRP entry names the pair that begins at even slot `p`. -/
def State.grpTree (s : State) (p : Nat) : Option Nat :=
  (List.range 128).find? (fun t => (s.grpPairs t).contains p)

/-- The pair's key that serves multicast frames of tree `t` (R433). -/
def State.grpKey (s : State) (t pair : Nat) : Option (Nat × BitVec 128) :=
  ([pair, pair + 1].find? (fun n =>
    let k := s.slot n
    k.tx && k.valid && k.kind == 2 && k.owner == s.treeOwner t)).map (fun n => (n - pair + 1, (s.slot n).key))

/-- The valid TRE_GRP entry of tree `t` for an XGEM port: its pair. -/
def State.grpOf (s : State) (t port : Nat) : Option Nat :=
  ((List.range 16).find? (fun i => s.rb (adGrp t i) 47 && s.rf (adGrp t i) 46 31 == port)).map
    (fun i => s.rf (adGrp t i) 17 0)

/-- ENCREQ is 1 and neither slot of the ONU can be used: its KIND 0 queues are held (R432). -/
def State.onuHeld (s : State) (h : Nat) : Bool :=
  let a := s.slot (2 * h)
  let b := s.slot (2 * h + 1)
  a.encreq && !((a.tx && a.valid) || (b.tx && b.valid))

/-- The key index and key of ONU `h`'s downstream unicast; none where frames go with key index 0 (R432). -/
def State.onuKey (s : State) (h : Nat) : Option (Nat × BitVec 128) :=
  let a := s.slot (2 * h)
  let b := s.slot (2 * h + 1)
  if !a.encreq then none else if a.tx && a.valid then some (1, a.key)
  else if b.tx && b.valid then some (2, b.key) else none

/-! ### SET_TX (R438) -/

/-- The pending SET_TX of the pair that begins at even slot `p`. -/
def State.txPending (s : State) (p : Nat) : Option Nat :=
  (s.findExec (fun w => match w with
    | .setTx n _ _ => n / 2 * 2 == p
    | _ => false)).map (·.1)

/-- A command in execution that is a SET_TX of a slot and tree of `sel` ends with ABORTED. -/
def State.abortTxOf (sel : Nat → Nat → Bool) (s : State) (x : Nat × Exec) : State :=
  match x.2.wait with
  | .setTx n t _ => if sel n t then s.endExec x.1 stAborted 0 0 else s
  | _ => s

/-- Each SET_TX of tree `t` that waits ends with ABORTED, TX unchanged. -/
def State.abortTx (s : State) (sel : Nat → Nat → Bool) : State := s.execs.foldl (State.abortTxOf sel) s

/-- The tick of the boundary of frame `target` (48 bits) of tree `t`; the present tick where it has passed. -/
def State.frameTick (s : State) (t target : Nat) : Nat :=
  let ahead := (target + 2 ^ 48 - s.frameCounter t s.tickEndNt % 2 ^ 48) % 2 ^ 48
  if 2 ^ 47 ≤ ahead then s.now else
  s.tickOfNt (s.frameStart t s.tickEndNt + ahead * frameNt)

/-- At the boundary the named slot gets TX 1 and its partner TX 0; ABORTED where the slot is not valid. -/
def State.switchTx (s : State) (q n : Nat) : State :=
  if (s.slot n).valid then
    let p := if n % 2 = 0 then n + 1 else n - 1
    let s := (s.setSlot n { s.slot n with tx := true }).setSlot p { s.slot p with tx := false }
    s.endExec q stDone 0 0
  else s.endExec q stAborted 0 0

/-! ### Counter continuity (R439) -/

/-- The line keys of tree `t` are invalidated, because its superframe counter jumps. -/
def State.invalidateKeys (s : State) (t : Nat) : State :=
  let onus := (List.range 512).flatMap (fun e => [2 * (t * 512 + e), 2 * (t * 512 + e) + 1])
  let grp := (s.grpPairs t).flatMap (fun p => [p, p + 1])
  let listed := s.key.slots.map (·.1)
  let s := ((onus ++ grp).filter (fun n => listed.contains n)).foldl State.wipeSlot s
  let s := s.abortTx (fun _ tr => tr == t)
  let s := (s.bump (adTree t 0x111) 1).alarm 6 0x280 t 0
  s.setTree t { s.tree t with invalAt := some s.now }

/-- An invalidation in the present tick covers slot `n` (R440). -/
def State.invalNow (s : State) (n : Nat) : Bool :=
  if n < keyGeneral then (s.tree (n / 1024)).invalAt == some s.now
  else
    match s.grpTree (n / 2 * 2) with
    | some t => (s.tree t).invalAt == some s.now
    | none => false

/-! ### Counter blocks (R436, R437) -/

/-- The TORRENT counter block (Table 13.2), as a number. -/
def torrentBlock (sfc lane dir pos j : Nat) : Nat :=
  sfc % 2 ^ 51 * 2 ^ 77 + lane % 2 * 2 ^ 76 + dir % 2 * 2 ^ 75 + pos % 2 ^ 18 * 2 ^ 57 + j % 2 ^ 32

/-- The j-th counter of a G.9804.2 frame from its initial block, inverted in bit 127 where R436 says so. -/
def gponBlock (init : BitVec 128) (invert : Bool) (j : Nat) : Nat :=
  let b := if invert then init.toNat ^^^ 2 ^ 127 else init.toNat
  (b + j) % 2 ^ 128

/-- A payload under a key and its counters. -/
def ctrOctets (key : BitVec 128) (ctr : Nat → Nat) (bs : List Byte) : List Byte :=
  natBytes (aesCtr (keyOct key) ctr 0 (blocks16 (bytesNat bs)))

/-- The tweak of block `b` of page `p` (R441), least significant octet first. -/
def xtsTweak (fillctr p b : Nat) : List Byte :=
  (octetsBE 16 (fillctr * 2 ^ 33 + p * 2 ^ 7 + b)).reverse

/-- The 127 data units of a page under the drawn keys `n` (R441); data unit `b` has tweak `b`, counted from 1. -/
def xtsData (n fillctr p : Nat) (data : List Byte) : List Byte :=
  let keys := natOct 64 (Config.xtsKey n).toNat
  natBytes (((blocks16 (bytesNat (takePad 2032 0 data))).zip (List.range 127)).flatMap (fun x =>
    xtsEnc keys (bytesNat (xtsTweak fillctr p (x.2 + 1))) x.1))

/-! ### KEY_OP (R449 to R452) -/

/-- The operation, KEY_SLOT and operands of a KEY_OP. -/
def Cmd.keyOp (c : Cmd) : Nat := c.arg 31 28
def Cmd.keySlot (c : Cmd) : Nat := c.arg 19 0

/-- The slot that a KEY_OP writes. -/
def keyTarget (c : Cmd) : Option Nat :=
  match Cmd.keyOp c with
  | 0 | 1 | 2 | 5 | 9 => some (c.op 1).toNat
  | 0xB => some (Cmd.keySlot c)
  | _ => none

/-- The slot whose key a KEY_OP uses in KEY_SLOT. -/
def keyUsed (c : Cmd) : Option Nat :=
  if Nat.ble 3 (Cmd.keyOp c) && Nat.ble (Cmd.keyOp c) 0xB then some (Cmd.keySlot c) else none

/-- The input slot of WRAP. -/
def keyInput (c : Cmd) : Option Nat := if Cmd.keyOp c = 8 then some (c.op 0).toNat else none

/-- Every slot that a KEY_OP names. -/
def keyNamed (c : Cmd) : List Nat := (keyUsed c).toList ++ (keyInput c).toList ++ (keyTarget c).toList

/-- Reserved bits of the operand words by operation: slot operands carry [19:0], SET_ATTR's its two fields. -/
def keyOpMasks (c : Cmd) : List Word :=
  let slotMask : Word := ~~~(maskOf 19 0)
  match Cmd.keyOp c with
  | 0 | 1 | 2 | 5 | 9 => [0, slotMask]
  | 8 => [slotMask]
  | 0xB => [~~~(maskOf 46 38)]
  | _ => []

/-- The tree whose frames a SET_TX of slot `n` waits for: that of its ONU, or the one whose TRE_GRP names the pair (R438). -/
def State.setTxTree (s : State) (n : Nat) : Option Nat :=
  if n < keyGeneral then some (n / 1024) else s.grpTree (n / 2 * 2)

/-- The target of a SET_TX is 2 to 65,536 frames ahead of the present frame, where it has a tree (R438). -/
def State.setTxAhead (s : State) (c : Cmd) : Bool :=
  (s.setTxTree (Cmd.keySlot c)).all (fun t =>
    inRange 2 65536 (((c.op 0).toNat + 2 ^ 48 - s.sfc t % 2 ^ 48) % 2 ^ 48))

/-- Operands that an operation does not use are 0, lengths are in range, slots exist with the right KIND (R449,
R450). -/
def State.keyArgs (s : State) (c : Cmd) : Bool :=
  let op := Cmd.keyOp c
  let ks := Cmd.keySlot c
  let i := (c.op 0).toNat
  let o := (c.op 1).toNat
  let n := (c.op 2).toNat
  let kind (ks : Nat) (l : List Nat) := l.contains (s.slotKind ks)
  let mayLoad := decide (keyGeneral ≤ o) || s.onuUsed (o / 2)
  (keyNamed c).all (fun k => Nat.blt k keySlots) &&
  match op with
  | 0 => ks == 0 && n == 16 && mayLoad
  | 1 => ks == 0 && i == 0 && n == 0 && mayLoad
  | 2 => ks == 0 && i == 0 && n == 0
  | 3 => kind ks [0] && inRange 16 65536 n && n % 16 == 0
  | 4 => kind ks [0] && inRange 16 65536 n && n % 16 == 0
  | 5 => kind ks [0] && n == 16 && mayLoad
  | 6 => kind ks [0, 3] && Nat.ble n 65536
  | 7 => kind ks [0, 3] && o == 0 && inRange 16 65552 n
  | 8 => kind ks [0] && kind i [0] && n == 24
  | 9 => kind ks [0] && n == 24 && mayLoad
  | 0xA => kind ks [1, 2] && o == 0 && n == 0 && s.setTxAhead c
  | 0xB => decide (keyGeneral ≤ ks) && o == 0 && n == 0 && [0, 2, 3].contains (bitsOf i 46 44)
  | _ => false

/-- A tenant names only slots that it owns, and does not change an owner (R60, R450). -/
def State.keyPriv (s : State) (c : Cmd) (p : Priv) : Option (Nat × Word × Word) :=
  match (keyNamed c).find? (fun k => Nat.blt k keySlots && !p.owns (s.slotOwner k)) with
  | some k => some (0x07, 0, toWord k)
  | none =>
    if Cmd.keyOp c = 0xB ∧ !p.oper ∧ fld (c.op 0) 43 38 ≠ s.slotOwner (Cmd.keySlot c) then
      some (0x0C, c.op 0, toWord (Cmd.keySlot c))
    else none

/-- What stops a KEY_OP before its work: a slot without a key, a slot in use, an invalidation in its tick. -/
def State.keyStop (s : State) (c : Cmd) : Option Nat :=
  let b := s.atStart
  if ((keyUsed c).toList ++ (keyInput c).toList).any (fun k => !((b.slot k).valid && (s.slot k).valid)) then some stNotFound
  else
    match keyTarget c with
    | none => none
    | some k =>
      let wanted := b.execs.any (fun x => match x.2.wait with
        | .setTx n _ _ => n == k
        | _ => false)
      if (b.slot k).tx || wanted then some stRejectBusy
      else if s.invalNow k then some stAborted else none

/-- The slot that a KEY_OP writes is one of a standby tree's ONUs (R494). -/
def State.keyStandby (s : State) (c : Cmd) : Bool :=
  match keyTarget c with
  | some n => Nat.blt n 131072 && s.atStart.standby (n / 1024)
  | none => false

/-- The key of slot `n` as octets. -/
def State.slotKey (s : State) (n : Nat) : List Nat := keyOct (s.slot n).key

/-- Octets as a key. -/
def keyOf (l : List Nat) : BitVec 128 := BitVec.ofNat 128 (octNat l)

/-- The rule of a KEY_OP that holds the lock: `work` is the operation's own execution. -/
def keyRule (c : Cmd) (opOk : Nat → Bool) (work : State → Priv → Nat → Ran) : CmdRule :=
  { opcode := 0x12,
    form := formCheck c 0xF00FFFFF 0 (c.ops.length == 3) (keyOpMasks c),
    priv := fun s p => s.keyPriv c p,
    spMay := false,
    legal := legalUp,
    args := fun s _ => opOk (Cmd.keyOp c) && s.keyArgs c,
    run := fun s p seq =>
      match s.atStart.key.lock with
      | some (h, _) =>
        if h = c.port.num then
          if s.keyStandby c then .fin stRejectBusy 0 0 s else
          match s.keyStop c with
          | some st => .fin st 0 0 s
          | none => work s p seq
        else .viol 0x0A 0 (toWord (Cmd.keySlot c)) s
      | none => .viol 0x0A 0 (toWord (Cmd.keySlot c)) s }

/-- A KEY_OP row of operation `op`; where the command names another operation the row has no effect, but that row 0
also carries the reserved operations. -/
def keyRow (c : Cmd) (op : Nat) (work : State → Priv → Nat → Ran) : Option CmdRule :=
  if Cmd.keyOp c = op then some (keyRule c (· == op) work)
  else if op = 0 ∧ 0xC ≤ Cmd.keyOp c then some (keyRule c (fun _ => false) work)
  else none

/-- AES blocks of an operation: those of its data, of the subkey of a CMAC, and the 12 of a key wrap (R452). -/
def keyBlocks (c : Cmd) : Nat :=
  let n := (c.op 2).toNat
  match Cmd.keyOp c with
  | 3 | 4 => n / 16
  | 5 => 1
  | 6 => max 1 (ceilDiv n 16) + 1
  | 7 => max 1 (ceilDiv (n - 16) 16) + 1
  | 8 | 9 => 12
  | _ => 0

/-- The ticks of a KEY_OP, of which the host gives a number: 32 to 48 for each AES block, and at most 2,000 for GEN
(R452). -/
def keyTook (c : Cmd) (io : HostIo) : Nat :=
  if Cmd.keyOp c = 1 then min 2000 io.took
  else if Cmd.keyOp c = 0 then io.took
  else max (32 * keyBlocks c) (min (48 * keyBlocks c) io.took)

/-! ### XTS epochs (R442 to R446) -/

/-- Word `w` of KEY_XTS of tenant `t`. -/
def adXts (t w : Nat) : Nat := 0x70100 + 4 * t + w

/-- The present epoch of tenant `t`. -/
def State.xtsEpoch (s : State) (t : Nat) : Nat := s.rf (adXts t 0) 44 44

/-- The key of the other epoch is drawn. -/
def State.xtsReady (s : State) (t : Nat) : Bool := s.rb (adXts t 0) 45

/-- The fill counter. -/
def State.xtsFill (s : State) (t : Nat) : Nat := s.rf (adXts t 0) 7 0 * 2 ^ 48 + (s.raw (adXts t 1)).toNat

/-- Set the fill counter. -/
def State.setXtsFill (s : State) (t n : Nat) : State :=
  (s.setRf (adXts t 0) 7 0 (n / 2 ^ 48)).setReg (adXts t 1) (toWord (n % 2 ^ 48))

/-- A new key of epoch `e` of tenant `t` comes from the random source. -/
def State.drawXts (s : State) (t e : Nat) : State :=
  { s with key := { s.key with xts := smSet (fun _ => 0) s.key.xts (2 * t + e) (s.free + 1) } }.drew

/-- The tenant switches epoch: READY clears, the fill counter starts again, and a refusal ends (R444, R445). -/
def State.switchXts (s : State) (t : Nat) : State :=
  let was := s.xtsEpoch t
  let s := ((s.setRf (adXts t 0) 44 44 (1 - was)).setRf (adXts t 0) 45 45 0).setXtsFill t 0
  let s := s.bump 0x70013 1
  if s.rb (adXts t 0) 46 then (s.setRf (adXts t 0) 46 46 0).alarmClear 8 0x141 t else s

/-- A page allocation of tenant `t` asks for its stamp: the epoch and fill counter; none where it is refused (R444). -/
def State.stampXts (s : State) (t : Nat) : Option (Nat × Nat) × State :=
  if s.xtsFill t = 2 ^ 56 - 1 then
    if s.xtsReady t then
      let s := s.switchXts t
      (some (s.xtsEpoch t, 0), s.setXtsFill t 1)
    else
      let s := s.bump 0x70014 1
      let s := if s.rb (adXts t 0) 46 then s else (s.setRf (adXts t 0) 46 46 1).alarm 8 0x141 t 0
      (none, s)
  else (some (s.xtsEpoch t, s.xtsFill t), s.setXtsFill t (s.xtsFill t + 1))

/-- Change PAGES of an epoch by one up or down (R443). -/
def State.xtsPages (s : State) (t e : Nat) (up : Bool) : State :=
  let a := adXts t (2 + e)
  let n := (s.raw a).toNat
  s.setReg a (toWord (if up then n + 1 else n - 1))

end Sys2Proof.Machine
end

