-- ==== Sys2Proof/Machine/CatOps.lean ====
section
/-! DEFINITION. Catchment: packets as buffers of cells, class partitions, reference counts, bad packets and HBM pages
(R402 to R421). -/

namespace Sys2Proof.Machine

/-! ### Packets -/

/-- Packet `i`, while it is held. -/
def State.pkt (s : State) (i : Nat) : Option Packet := smGet (fun _ => none) s.cat.pkts i

/-- Store or drop packet `i`. -/
def State.setPkt (s : State) (i : Nat) (p : Option Packet) : State :=
  { s with cat := { s.cat with pkts := smSet (fun _ => none) s.cat.pkts i p } }

/-- Change packet `i`. -/
def State.modPkt (s : State) (i : Nat) (f : Packet → Packet) : State :=
  match s.pkt i with
  | some p => s.setPkt i (some (f p))
  | none => s

/-- A new packet; its number is the counter's value. -/
def State.addPkt (s : State) (p : Packet) : State :=
  let s := s.setPkt s.cat.next (some p)
  { s with cat := { s.cat with next := s.cat.next + 1 } }

/-- The core-port copies of packet group `g`. -/
def State.copiesOf (s : State) (g : Nat) : List Nat :=
  s.cat.pkts.filterMap (fun x =>
    match x.2 with
    | some p => if p.grp = g then some x.1 else none
    | none => none)

/-! ### Partitions and cells (R406 to R410) -/

/-- Cells of a bank. -/
def bankCells : Nat := 24576

/-- The word of partition `part`: 8 k + c, or 512 for the punt partition. -/
def adPart (part : Nat) : Nat := 0x1D00000 + part

/-- The bank of a partition. -/
def partBank (part : Nat) : Nat := if part = 512 then 31 else part / 8

/-- USED of a partition as it stood at the start of the tick, with the cells granted in it since: cells freed in the
present tick still count (R410). -/
def State.partUsed (s : State) (part : Nat) : Nat :=
  s.rf (adPart part) 31 17 + (s.cat.released.filter (fun x => x.1 == s.now && x.2 == part)).length

/-- Cell `c` can be granted: no packet holds it and it was not freed in this tick. -/
def State.cellFree (s : State) (c : Nat) : Bool :=
  !s.cat.freed.contains (s.now, c) &&
    s.cat.pkts.all (fun x =>
      match x.2 with
      | some p => !p.cells.contains c
      | none => true)

/-- The cell popped from the free list of a bank: `pick` where it is free in that bank, else the lowest free one. -/
def State.popCell (s : State) (bank pick : Nat) : Nat :=
  if pick / bankCells = bank ∧ s.cellFree pick then pick
  else (((List.range bankCells).map (bank * bankCells + ·)).find? s.cellFree).getD (bank * bankCells)

/-- One request for a cell of partition `part`: the cell, or EMPTY (R408). LIMIT is that of the start of the tick (R21). -/
def State.grantCell (s : State) (part pick : Nat) : Option Nat × State :=
  let bank := partBank part
  if (smGet (fun _ => none) s.cat.rebuild bank).isSome || Nat.ble (s.atStart.rf (adPart part) 14 0) (s.partUsed part) then
    (none, s.monEv 19 bank 2 1)
  else
    let c := s.popCell bank pick
    (some c, (s.setRf (adPart part) 31 17 (s.rf (adPart part) 31 17 + 1)).monEv 19 bank 1 1)

/-- Cells return to their free list, and USED falls, at the end of the tick (R410). -/
def State.freeCells (s : State) (part : Nat) (cells : List Nat) : State :=
  let old {α : Type} (l : List (Nat × α)) := l.filter (fun x => x.1 == s.now)
  let s := s.setRf (adPart part) 31 17 (s.rf (adPart part) 31 17 - cells.length)
  { s with cat := { s.cat with
      freed := cells.map (fun c => (s.now, c)) ++ old s.cat.freed,
      released := cells.map (fun _ => (s.now, part)) ++ old s.cat.released } }

/-! ### Reference counts (R413) -/

/-- A packet that nothing refers to any more goes. -/
def State.sweepPkt (s : State) (i : Nat) : State :=
  match s.pkt i with
  | some p => if p.refs = 0 ∧ p.spills = 0 ∧ p.cells.isEmpty then s.setPkt i none else s
  | none => s

/-- The reference count falls by one; at 0 every cell of the buffer is freed (R413). -/
def State.unref (s : State) (i : Nat) : State :=
  match s.pkt i with
  | none => s
  | some p =>
    let n := p.refs - 1
    if n = 0 then
      ((s.freeCells p.part p.cells).setPkt i (some { p with refs := 0, cells := [] })).sweepPkt i
    else s.setPkt i (some { p with refs := n })

/-- A destination gives the buffer up before it was enqueued. -/
def State.dropDest (s : State) (i : Nat) (d : Dest) : State :=
  (s.modPkt i (fun p => { p with dests := p.dests.erase d })).unref i

/-! ### Bad packets (R403) -/

/-- Every copy of the packet becomes bad; with `cut` it ends after its last cell held. -/
def State.makeBad (s : State) (g : Nat) (cut : Bool) : State :=
  (s.copiesOf g).foldl (fun s i =>
    let s := s.modPkt i (fun p =>
      { p with bad := true, cut := p.cut || cut, ended := p.ended || cut, len := if cut then min p.len (128 * p.cells.length) else p.len })
    s.traceEnds ((s.pkt i).bind (·.trace)) false true false) s

/-- Packet `i` ends after its first `n` cells (R403). -/
def State.cutPkt (s : State) (i n : Nat) : State :=
  s.modPkt i (fun p => { p with ended := true, cut := true, len := min p.len (128 * n) })

/-! ### Queues as Catchment sees them -/

/-- Downstream queue `h`. -/
def State.dq (s : State) (h : Nat) : DsQueue := smGet (fun _ => DsQueue.fresh) s.dsq.queues h

/-- Store downstream queue `h`. -/
def State.setDq (s : State) (h : Nat) (q : DsQueue) : State :=
  { s with dsq := { s.dsq with queues := smSet (fun _ => DsQueue.fresh) s.dsq.queues h q } }

/-! ### HBM pages (R414 to R418) -/

/-- Pages of a pseudo-channel. -/
def pcPages : Nat := 262144

/-- Word of pseudo-channel `c`. -/
def adPc (c : Nat) : Nat := 0x1E00000 + c

/-- Page `p`. -/
def State.page (s : State) (p : Nat) : Option Page := smGet (fun _ => none) s.cat.pages p

/-- Store page `p`. -/
def State.setPage (s : State) (p : Nat) (g : Option Page) : State :=
  { s with cat := { s.cat with pages := smSet (fun _ => none) s.cat.pages p g } }

/-- The pseudo-channel is in service. -/
def State.pcUp (s : State) (c : Nat) : Bool :=
  !s.rb (adPc c) 19 && !s.rb (adPc c) 20 && !smGet (fun _ => false) s.flt.hbmLost (c / 32)

/-- Pages freed in this tick: page and tenant. They count as in use until its end (R418). -/
def State.pagesFreed (s : State) : List (Nat × Nat) := (s.cat.freedPages.filter (fun x => x.1 == s.now)).map (·.2)

/-- Page `p` is on its pseudo-channel's free list. -/
def State.pageFree (s : State) (p : Nat) : Bool :=
  (s.page p).isNone && s.pagesFreed.all (fun x => x.1 != p) &&
    (!smGet (fun _ => false) s.cat.lost (p / pcPages) || smGet (fun _ => false) s.cat.relisted p)

/-- The page popped from a pseudo-channel's free list. -/
def State.popPage (s : State) (c pick : Nat) : Nat :=
  if pick / pcPages = c ∧ s.pageFree pick then pick
  else (((List.range pcPages).map (c * pcPages + ·)).find? s.pageFree).getD (c * pcPages)

/-- The next pseudo-channel in ascending cyclic order that is in service and has a free page. -/
def State.nextPc (s : State) : Option Nat :=
  ((List.range 256).map (fun i => (s.cat.lastPc + 1 + i) % 256)).find? (fun c =>
    s.pcUp c && Nat.blt (s.pagesFreed.filter (fun x => x.1 / pcPages == c)).length (s.rf (adPc c) 18 0))

/-- The pages held by tenant `t`, and its limit. -/
def adPagesUsed (t : Nat) : Nat := 0x1D00301 + 2 * t
def adPagesLimit (t : Nat) : Nat := 0x1D00300 + 2 * t

/-- A page leaves its free list for queue `h` with a stamp; USED and PAGES are the caller's. -/
def State.takePage (s : State) (c p : Nat) (g : Page) : State :=
  let s := s.setRf (adPc c) 18 0 (s.rf (adPc c) 18 0 - 1)
  { s with cat := { s.cat with
      lastPc := c,
      pages := smSet (fun _ => none) s.cat.pages p (some g),
      relisted := smSet (fun _ => false) s.cat.relisted p false } }

/-- A page for queue `h` of tenant `t`, or a refusal (R416). -/
def State.allocPage (s : State) (t h pick : Nat) : Option Nat × State :=
  let used := s.rf (adPagesUsed t) 26 0
  if s.atStart.rf (adPagesLimit t) 26 0 ≤ used + (s.pagesFreed.filter (fun x => x.2 == t)).length then (none, s.bump 0x1D00405 1)
  else
    match s.nextPc with
    | none => (none, s.bump 0x1D00405 1)
    | some c =>
      match s.stampXts t with
      | (none, s) => (none, s.bump 0x1D00405 1)
      | (some (e, fc), s) =>
        let p := s.popPage c pick
        let g : Page :=
          { queue := h, tenant := t, epoch := e == 1, fillctr := fc, fill := 0, pkts := [], segs := [], written := false,
            back := false, bad := false, kept := [] }
        let s := (s.takePage c p g).setRf (adPagesUsed t) 26 0 (used + 1)
        let s := { s with cat := { s.cat with stamped := s.cat.stamped ++ [p] } }
        (some p, (s.xtsPages t e true).monEv 19 0 3 1)

/-- The header of a free page: FREE, NEXT, and CHK over H0[63:16] (Table 12.2). DESIGN CHOICE (entry 117): its other fields are 0. -/
def freeHeader (next : Nat) : List Byte :=
  let h0 := 2 ^ 63 + next * 2 ^ 37
  octetsBE 8 (h0 + crc16 48 (h0 / 2 ^ 16)) ++ octetsBE 8 0

/-- A page behind those of the same and of lower queue handles. -/
def insertPage (x : Nat × Page) : List (Nat × Page) → List (Nat × Page)
  | [] => [x]
  | y :: l => if x.2.queue < y.2.queue then x :: y :: l else y :: insertPage x l

/-- The tick ends for the pages allocated in it: each tenant's stamps, in order of allocation, go to its pages in ascending queue
handle order (R443). -/
def State.stampPages (s : State) : State :=
  let new := s.cat.stamped.filterMap (fun p => (s.page p).map (fun g => (p, g)))
  let put (s : State) (t : Nat) : State :=
    let l := new.filter (fun x => x.2.tenant == t)
    ((l.foldl (fun m x => insertPage x m) []).zip (l.map (fun x => (x.2.epoch, x.2.fillctr)))).foldl (fun s x =>
      s.setPage x.1.1 (some { x.1.2 with epoch := x.2.1, fillctr := x.2.2 })) s
  let s := (sortNat (new.map (·.2.tenant))).foldl put s
  { s with cat := { s.cat with stamped := [] } }

/-- A page returns to its free list, and USED of its tenant falls, at the end of the tick (R418). A pseudo-channel out of service
keeps no free list. -/
def State.freePage (s : State) (p : Nat) : State :=
  match s.page p with
  | none => s
  | some g =>
    let c := p / pcPages
    let s := s.setPage p none
    let s := { s with cat := { s.cat with
      freedPages := (s.now, p, g.tenant) :: s.cat.freedPages.filter (fun x => x.1 == s.now) } }
    let s := s.setRf (adPagesUsed g.tenant) 26 0 (s.rf (adPagesUsed g.tenant) 26 0 - 1)
    let s := (s.xtsPages g.tenant (b2n g.epoch) false).monEv 19 0 4 1
    let q := s.dq g.queue
    let s := if q.openPage = some p then s.setDq g.queue { q with openPage := none } else s
    if s.rb (adPc c) 19 || s.rb (adPc c) 20 then s
    else
      let s := (s.setRf (adPc c) 18 0 (s.rf (adPc c) 18 0 + 1)).emit (.hbmPage p (freeHeader (Config.nextFree s.free).toNat))
      let s := s.drew
      if smGet (fun _ => false) s.cat.lost c then
        { s with cat := { s.cat with relisted := smSet (fun _ => false) s.cat.relisted p true } }
      else s

/-- Octets that a packet of length `len` takes in pages: its record and its octets, padded (R417). -/
def storedOctets (len : Nat) : Nat := 8 + ceilDiv len 8 * 8

/-- Octets that packet `i` takes in pages. -/
def State.storedOf (s : State) (i : Nat) : Nat := ((s.pkt i).map (fun p => storedOctets p.len)).getD 0

/-- What is stored of a packet: its record with L, BAD and DE, and its octets (R417). -/
def Packet.stored (p : Packet) : List Byte :=
  octetsBE 8 (p.len % 2 ^ 14 * 2 ^ 50 + b2n p.bad * 2 ^ 49 + b2n p.de * 2 ^ 48) ++
    takePad (ceilDiv p.len 8 * 8) 0 (p.octets.take p.len)

/-- What a page keeps of the packets `l` that it does not keep yet. -/
def State.keepOf (s : State) (g : Page) (l : List Nat) : List (Nat × List Byte) :=
  (l.filter (fun i => g.kept.all (fun k => k.1 != i))).filterMap (fun i => (s.pkt i).map (fun p => (i, p.stored)))

/-- The data octets of a page: what it keeps, or what is stored of the packets as they stand. -/
def State.pagePlain (s : State) (g : Page) : List Byte :=
  g.segs.flatMap (fun x =>
    match (g.kept ++ s.keepOf g [x.1]).find? (fun k => k.1 == x.1) with
    | some k => (k.2.drop x.2.1).take x.2.2
    | none => List.replicate x.2.2 0)

/-- The octets of packet `i` in page `p` are gone; a page with nothing left is freed. -/
def State.leavePage (s : State) (i p : Nat) : State :=
  match s.page p with
  | none => s
  | some g =>
    let l := g.pkts.filter (· != i)
    let s := s.setPage p (some { g with pkts := l, kept := g.kept ++ s.keepOf g [i] })
    if l.isEmpty then s.freePage p else s

/-- The header of page `p` (Table 12.2): NEXT names the page behind it in its queue's chain, as it stands now. -/
def State.pageHeader (s : State) (p : Nat) (g : Page) : List Byte :=
  let chain := ((s.dq g.queue).entries.flatMap (·.pages)).eraseDups
  let next := ((chain.dropWhile (· != p)).drop 1).head?.getD (2 ^ 26 - 1)
  let h0 := next * 2 ^ 37 + g.tenant * 2 ^ 31 + b2n g.epoch * 2 ^ 30 + g.fill * 2 ^ 19
  let h1 := g.fillctr * 2 ^ 8
  octetsBE 8 (h0 + crc16 112 (h0 / 2 ^ 16 * 2 ^ 64 + h1)) ++ octetsBE 8 h1

/-- The header of a page in HBM is written again: the page behind it in its chain has changed. -/
def State.emitHeader (s : State) (p : Nat) : State :=
  match s.page p with
  | some g => if g.written then s.emit (.hbmPage p (s.pageHeader p g)) else s
  | none => s

/-- The page goes to HBM: its header in plain, its data under its tenant's keys of its epoch (R414, R441). -/
def State.emitPage (s : State) (p : Nat) (g : Page) : State :=
  s.emit (.hbmPage p (s.pageHeader p g ++
    xtsData (smGet (fun _ => 0) s.key.xts (2 * g.tenant + b2n g.epoch)) g.fillctr p (s.pagePlain g)))

/-- The data octets of a page. -/
def pageData : Nat := 2032

/-- Store `n` octets of packet `i` in the open page of queue `h`, with new pages as needed; the answer is the pages
used and whether a page was refused. `picks` names the pages to pop. -/
def State.storeOctets : Nat → State → Nat → Nat → Nat → Nat → List Nat → List Nat × Bool × State
  | 0, s, _, _, _, _, _ => ([], false, s)
  | k + 1, s, t, h, i, n, picks =>
    if n = 0 then ([], false, s)
    else
      match (s.dq h).openPage with
      | none =>
        match s.allocPage t h (nth picks 0 0) with
        | (none, s) => ([], true, s)
        | (some p, s) => storeOctets k (s.setDq h { s.dq h with openPage := some p }) t h i n (picks.drop 1)
      | some p =>
        match s.page p with
        | none => storeOctets k (s.setDq h { s.dq h with openPage := none }) t h i n picks
        | some g =>
          let m := min n (pageData - g.fill)
          let s := s.setPage p (some { g with
            fill := g.fill + m, pkts := if g.pkts.contains i then g.pkts else g.pkts ++ [i],
            segs := g.segs ++ [(i, s.storedOf i - n, m)] })
          let q := s.dq h
          let s := s.setDq h { q with
            lastAdd := s.now, openPage := if g.fill + m = pageData then none else some p }
          let (l, r, s) := storeOctets k s t h i (n - m) picks
          (p :: l, r, s)

/-- A packet in a queue has left its pages and, where its cells are still held for the queue, its buffer. -/
def State.releaseEntry (s : State) (e : QEntry) : State :=
  if e.pages.isEmpty then s.unref e.pkt
  else
    let written := e.pages.all (fun p =>
      match s.page p with
      | some g => g.written
      | none => true)
    let s := e.pages.foldl (fun s p => s.leavePage e.pkt p) s
    let s := if written then s else s.unref e.pkt
    (s.modPkt e.pkt (fun p => { p with spills := p.spills - 1 })).sweepPkt e.pkt

end Sys2Proof.Machine
end

