-- ==== Sys2Proof/Machine/DsqOps.lean ====
section
/-! DEFINITION. Downstream queues: enqueue checks, spilling, candidates and the scheduling hierarchy (R312 to R327). -/

namespace Sys2Proof.Machine

/-! ### Configuration (Table 9.2) -/

/-- The queue's entry is valid. -/
def State.dqValid (s : State) (h : Nat) : Bool := bitOf (s.qw h 3) 47

/-- LANESET, without the lanes that a KIND 0 queue's ONU does not use. -/
def State.dqLanes (s : State) (h : Nat) : Nat :=
  let l := fld (s.qw h 0) 43 42
  if s.dqMulti h then l else l &&& s.onuLanes (s.dqOnu h)

/-- The tenant-on-tree node of a queue. -/
def State.dqTot (s : State) (h : Nat) : Nat :=
  64 * s.dqTree h + (if s.dqMulti h then fld (s.qw h 0) 37 32 else s.onuOwner (s.dqOnu h))

/-- The depth of a queue: L over the packets it holds (R316). -/
def State.dqDepth (s : State) (h : Nat) : Nat := ((s.dq h).entries.map (·.len)).foldl (· + ·) 0

/-- On-die cells of a queue. -/
def State.dqCells (s : State) (h : Nat) : Nat :=
  (((s.dq h).entries.filter (·.pages.isEmpty)).map (fun e =>
    match s.pkt e.pkt with
    | some p => p.cells.length
    | none => 0)).foldl (· + ·) 0

/-! ### Discards -/

/-- Words of a queue's counter set (Table 16.7). -/
def dqEnq : Nat := 0
def dqDeq : Nat := 2
def dqNoTarget : Nat := 4
def dqLaneDown : Nat := 5
def dqDepthDrop : Nat := 6
def dqDe : Nat := 7
def dqBuffer : Nat := 8
def dqDeleted : Nat := 9

/-- How a discarded packet is counted. -/
inductive Counted where
  /-- A word of the queue's counter set. -/
  | set (word : Nat)
  /-- A register counter. -/
  | reg (addr : Nat)
  | none
deriving DecidableEq, Repr

/-- Count one packet of queue `h`. -/
def State.countAs (s : State) (h : Nat) : Counted → State
  | .set w => s.bumpSet 1 h w 1
  | .reg a => s.bump a 1
  | .none => s

/-- Discard one entry of queue `h`, already taken out of the queue. -/
def State.discardEntry (s : State) (h : Nat) (how : Counted) (e : QEntry) : State :=
  let s := s.traceEnds ((s.pkt e.pkt).bind (·.trace)) true false false
  (s.countAs h how).releaseEntry e

/-- Discard every packet of queue `h`; it is ONDIE again. -/
def State.discardQueue (s : State) (how : Counted) (h : Nat) : State :=
  let q := s.dq h
  let s := s.setDq h { q with entries := [], spilled := false }
  q.entries.foldl (fun s e => s.discardEntry h how e) s

/-- Queues that hold packets. -/
def State.dqBusy (s : State) : List Nat :=
  (s.dsq.queues.filter (fun x => !x.2.entries.isEmpty)).map (·.1)

/-- Queues of tree `t` that hold packets. -/
def State.dqBusyOf (s : State) (t : Nat) : List Nat := s.dqBusy.filter (fun h => s.dqTree h == t)

/-! ### Candidates (R325) -/

/-- The first cell of the head packet is on-die and readable (3 ns after its enqueue tick). -/
def State.headReady (s : State) (h : Nat) : Bool :=
  match (s.dq h).entries with
  | [] => false
  | e :: _ =>
    match e.pages with
    | [] => Nat.ble (e.at_ + 3) s.now
    | p :: _ =>
      match s.page p with
      | some g => (!g.written && Nat.ble (e.at_ + 3) s.now) || g.back
      | none => false

/-- Queue `h` is a candidate on lane `l` of its tree (R325, R432). -/
def State.dqCandidate (s : State) (h l : Nat) : Bool :=
  s.dqValid h && s.headReady h && (fld (s.qw h 0) 43 42).testBit l && s.laneUp (s.dqTree h) l &&
    (s.dqMulti h || !s.onuHeld (s.dqOnu h))

/-- Candidate queues on a lane whose ONU also uses it. -/
def State.dqCandidates (s : State) (t l : Nat) : List Nat :=
  (s.dqBusyOf t).filter (fun h => s.dqCandidate h l && (s.dqLanes h).testBit l)

/-- Those of them that were candidates as the tick began, among which a decision chooses (R327). -/
def State.dqOffered (s : State) (t l : Nat) : List Nat :=
  let b := s.atStart
  (s.dqCandidates t l).filter (fun h => b.dqCandidate h l && (b.dqLanes h).testBit l)

/-- A node as a child. -/
def State.nodeChild (s : State) (n : Nat) : Child :=
  let w := (s.ndWords n).1
  { node := n, prio := fld w 42 40, weight := fld w 39 32 }

/-- A queue as a child: its CLASS is its priority. -/
def State.queueChild (s : State) (h : Nat) : Child :=
  { node := ndQueue h, prio := fld (s.qw h 0) 47 45, weight := fld (s.qw h 1) 47 40 }

/-- The children of node `x` that are candidates among queues `qs`, in child order. -/
def State.children (s : State) (x : Nat) (qs : List Nat) : List Child :=
  let i := x % 2 ^ 20
  match x / 2 ^ 20 with
  | 4 => (sortNat (qs.map s.dqTot)).map (fun n => s.nodeChild (ndTot n))
  | 3 =>
    let mine := qs.filter (fun h => s.dqTot h == i)
    (sortNat ((mine.filter (fun h => !s.dqMulti h)).map s.dqOnu)).map (fun h => s.nodeChild (ndOnu h)) ++
      (mine.filter s.dqMulti).map s.queueChild
  | 1 => (qs.filter (fun h => !s.dqMulti h && s.dqOnu h == i)).map s.queueChild
  | _ => []

/-- The descent of dequeue from node `x`: the queue chosen and the path with its rounds (R326). -/
def State.descend : Nat → State → Nat → List Nat → Option (Nat × List (Nat × Nat × Nat)) × State
  | 0, s, _, _ => (none, s)
  | k + 1, s, x, qs =>
    if x / 2 ^ 20 = 2 then (some (x % 2 ^ 20, []), s)
    else
      let cs := s.children x qs
      let inC := cs.filter (fun c => s.eligibleNode c.node 0)
      let inE := cs.filter (fun c => s.eligibleNode c.node 1)
      let (r, l) := if inC.isEmpty then (1, inE) else (0, inC)
      if l.isEmpty then (none, s)
      else
        match s.dwrr x l with
        | (none, s) => (none, s)
        | (some y, s) =>
          match descend k s y qs with
          | (some (q, path), s) => (some (q, (x, y, r) :: path), s)
          | (none, s) => (none, s)

/-- The deficit of a child that is no longer a candidate becomes 0 (R325). -/
def State.settleDeficits (s : State) (t : Nat) : State :=
  let on (l : Nat) : List (Nat × Nat) :=
    let qs := s.dqCandidates t l
    (s.children (ndLane (2 * t + l)) qs).flatMap (fun a =>
      (ndLane (2 * t + l), a.node) :: (s.children a.node qs).flatMap (fun b =>
        (a.node, b.node) :: (s.children b.node qs).map (fun c => (b.node, c.node))))
  let live := (on 0 ++ on 1).map (fun x => dfKey x.1 x.2)
  let mine (k : Nat) : Bool :=
    let parent := k / 2 ^ 24
    (parent / 2 ^ 20 == 1 || parent / 2 ^ 20 == 3 || parent / 2 ^ 20 == 4) && s.ndTree parent == t
  { s with dsq := { s.dsq with deficits := s.dsq.deficits.filter (fun x => !mine x.1 || live.contains x.1) } }

/-- Queue `h` gives up its packets, and what was a candidate through it is none any more (R325). -/
def State.emptyQueue (s : State) (how : Counted) (h : Nat) : State := (s.discardQueue how h).settleDeficits (s.dqTree h)

/-! ### Enqueue (R316, R318) -/

/-- The first check of Table 9.3 that fails before Catchment is asked; the queue's depth is that of the start of the tick. -/
def State.enqueueDrop (s : State) (h : Nat) (de : Bool) : Option Counted :=
  let t := s.dqTree h
  let depth := s.atStart.dqDepth h
  let maxd := fld (s.qw h 1) 39 20
  let frac := fld (s.qw h 1) 19 16
  if !s.dqValid h then some (.reg 0x1000020)
  else if (!s.dqMulti h && !s.onuUsed (s.dqOnu h)) || !s.treeUp t then some (.set dqNoTarget)
  else if s.dqLanes h &&& s.lanesUp t = 0 then some (.set dqLaneDown)
  else if maxd * 2048 ≤ depth then some (.set dqDepthDrop)
  else if de ∧ frac ≠ 0 ∧ maxd * 2048 * frac ≤ 16 * depth then some (.set dqDe)
  else none

/-- Put packet `i` of `p.len` octets for XGEM port `x` into queue `h`, or drop it; where it goes is settled by the queue's state
at the start of the tick (R318). `picks` names pages to pop. -/
def State.enqueue (s : State) (i : Nat) (p : Packet) (h x : Nat) (picks : List Nat) : State :=
  let t := s.dqTree h
  let drop (s : State) (how : Counted) : State :=
    (((s.countAs h how).monEv 15 t 2 1).traceEnds p.trace true false false).dropDest i (.queue h x)
  match s.enqueueDrop h p.de with
  | some how => drop s how
  | none =>
    let b := s.atStart
    let spill := fld (s.qw h 1) 15 0
    let toHbm := spill != 0 && ((b.dq h).spilled || Nat.ble spill (b.dqCells h))
    let add (s : State) (pages : List Nat) : State :=
      let q := s.dq h
      let e : QEntry := { pkt := i, xgem := x, len := p.len, at_ := s.now, pages := pages }
      let s := s.setDq h { q with entries := q.entries ++ [e], spilled := q.spilled || toHbm }
      let s := s.modPkt i (fun p => { p with dests := p.dests.erase (.queue h x) })
      ((s.bumpSet2 1 h dqEnq p.len).monEv 15 t 1 1).traceStage p.trace 5
    if !toHbm then add s []
    else
      let tenant := fld (s.qw h 0) 37 32
      match s.storeOctets 16 tenant h i (storedOctets p.len) picks with
      | ([], _, s) => drop (s.setDq h { s.dq h with spilled := true }) (.set dqBuffer)
      | (pages, refused, s) =>
        let s := s.modPkt i (fun p => { p with spills := p.spills + 1 })
        let last := ((s.dq h).entries.flatMap (·.pages)).getLast?
        let s := add s pages
        let s := if last.isSome && last != pages.getLast? then s.emitHeader (last.getD 0) else s
        if refused then (s.makeBad p.grp false).cutPkt i p.cells.length else s

/-! ### Dequeue (R317, R404) -/

/-- Take the head entry out of queue `h`; the last HBM-held packet to leave ends SPILLED. -/
def State.popHead (s : State) (h : Nat) : State :=
  let q := s.dq h
  let l := q.entries.drop 1
  let inHbm := match q.entries with
    | e :: _ => !e.pages.isEmpty
    | [] => false
  s.setDq h { q with entries := l, spilled := q.spilled && (!inHbm || l.any (fun e => !e.pages.isEmpty)) }

/-- Bad packets that have come to the head of a queue, their first cell still in it, are discarded whole (R404). -/
def State.purgeBad : Nat → State → Nat → State
  | 0, s, _ => s
  | k + 1, s, h =>
    match (s.dq h).entries with
    | [] => s
    | e :: _ =>
      match s.pkt e.pkt with
      | none => s
      | some p =>
        if p.bad then
          purgeBad k ((s.popHead h).discardEntry h (.reg (0x1C00001 + 4 * (s.dqTree h / 4))) e) h
        else s

/-- The decision for a request of lane `l` of tree `t` (R326): the queue, its head entry, its debits done. -/
def State.chooseSdu (s : State) (t l : Nat) : Option (Nat × QEntry) × State :=
  let ln := ndLane (2 * t + l)
  let s := ((s.dqBusyOf t).foldl (fun s h => s.purgeBad (s.dq h).entries.length h) s).settleDeficits t
  if !s.eligibleNode ln 0 then (none, s)
  else
    match s.descend 4 ln (s.dqOffered t l) with
    | (none, s) => (none, s.monEv 10 t 3 1)
    | (some (h, path), s) =>
      match (s.dq h).entries with
      | [] => (none, s)
      | e :: _ =>
        let a := s.adjusted (fld (s.qw h 0) 41 38) e.len
        let s := path.foldl (fun s x =>
          (s.debitNode x.2.1 x.2.2 a).setDeficit x.1 x.2.1 (s.deficit x.1 x.2.1 - (a : Int))) s
        (some (h, e), s.debitNode ln 0 a)

/-- The first cell of the packet leaves its queue. -/
def State.dequeue (s : State) (h : Nat) (e : QEntry) : State :=
  let t := s.dqTree h
  let tr := (s.pkt e.pkt).bind (·.trace)
  let s := (s.modPkt e.pkt (fun p => { p with dequeued := true })).traceStage tr 7
  let s := ((s.popHead h).bumpSet2 1 h dqDeq e.len).monEv 15 t 3 1
  let s := if s.dqMulti h then s else s.bumpSet2 2 (s.dqOnu h) 2 e.len
  s.settleDeficits t

end Sys2Proof.Machine
end

