-- ==== Sys2Proof/Machine/OhmBase.lean ====
section
/-! DEFINITION. Uplink ports and MACs (R186, R187, R194, Table 16.6), and what a ring member sends: Ohmad frames, tokens
and mirror records (R480 to R482, R495, R498). -/

namespace Sys2Proof.Machine

/-! ### Uplink ports (05) -/

/-- UPL_CFG.PORT_MODE of port `p`. -/
def State.portMode (s : State) (p : Nat) : Nat := s.rf (adPort p 0) 2 0

/-- The port's mode uses slot `k`. -/
def State.slotUsed (s : State) (p k : Nat) : Bool := Nat.blt k (2 ^ s.portMode p) && Nat.ble (s.portMode p) 3

/-- UPL_MAC of MAC `m`, 8 p + k. -/
def adMac (m : Nat) : Nat := adPort (m / 8) (0x10 + m % 8)

/-- No signal loss of MAC `m` is in force at the line, and no retry of its port. The stored LINK bits of UPL_STATUS tell
of the line alone. -/
def State.lineUp (s : State) (m : Nat) : Bool :=
  s.rb (adPort (m / 8) 1) (8 + m % 8) && !smGet (fun _ => false) s.flt.portRetry (m / 8)

/-- LINK of MAC `m`: no loss is in force (R528, R535). -/
def State.linkUp (s : State) (m : Nat) : Bool := s.lineUp m && !smGet (fun _ => false) s.flt.portHs (m / 8)

/-- MAC `m` is up (R194). -/
def State.macUp (s : State) (m : Nat) : Bool :=
  s.rb (adMac m) 0 && s.rb (adMac m) 17 && s.linkUp m && s.rb (adPort (m / 8) 0) 3 && !s.rb (adPort (m / 8) 1) 16

/-- The lanes of the port that the slot of MAC `m` uses (R187): kL to kL + L - 1, with 8 lanes over the MACs of the mode. -/
def State.macLanes (s : State) (m : Nat) : List Nat :=
  let n := 8 / 2 ^ s.portMode (m / 8)
  (List.range n).map (m % 8 * n + ·)

/-- When the first bit of a frame that leaves the core now is at the balls, in tenths of a nanosecond: the crossing into the
port island, 1 to 2 ns, and 60 ns of MAC and transmitter (Table 1.5). -/
def macOut (now : Nat) : Nat := 10 * now + 10 + Config.crossing 2 now % 11 + 600

/-- The rate of a MAC in Gbit/s. -/
def State.macRate (s : State) (m : Nat) : Nat := 800 / 2 ^ s.portMode (m / 8)

/-! ### Statistics (Table 16.6) -/

/-- The size bucket of a frame, from 0 to 6. -/
def sizeBucket (n : Nat) : Option Nat :=
  if n < 64 ∨ 9600 < n then none
  else some (if n = 64 then 0 else if n ≤ 127 then 1 else if n ≤ 255 then 2 else if n ≤ 511 then 3
    else if n ≤ 1023 then 4 else if n ≤ 1518 then 5 else 6)

/-- Count a frame in its size bucket, whose first word is `w`. -/
def State.countSize (s : State) (m w n : Nat) : State :=
  match sizeBucket n with
  | some i => s.bump (adMacStat m (w + i)) 1
  | none => s

/-- Count a good frame in five words from `w`: frames, octets, unicast, multicast, broadcast. -/
def State.countGood (s : State) (m w : Nat) (bs : List Byte) : State :=
  let da := beNat (bs.take 6)
  let k := if da = 2 ^ 48 - 1 then 4 else if da.testBit 40 then 3 else 2
  ((s.bump (adMacStat m w) 1).bump (adMacStat m (w + 1)) bs.length).bump (adMacStat m (w + k)) 1

/-- A frame from the host with the FCS that the device appends. -/
def withFcs (bs : List Byte) : List Byte :=
  let f := fcs32 (bs.map (·.toNat))
  bs ++ (octetsBE 4 f).reverse

/-! ### Members and frames (R480, R481) -/

/-- Word `w` of the OHM window. -/
def adOhm (w : Nat) : Nat := 0x90000 + w

/-- The device takes part in the ring. -/
def State.ohmEn (s : State) : Bool := s.rb (adOhm 0) 34

/-- It is the master. -/
def State.ohmMaster (s : State) : Bool := s.ohmEn && s.rb (adOhm 0) 35

/-- MEMBER_ID. -/
def State.memberId (s : State) : Nat := s.rf (adOhm 0) 47 36

/-- The Ohmad ports that have link, as MAC indices. -/
def State.ohmPorts (s : State) : List Nat :=
  ((List.range 32).map (8 * ·)).filter (fun m =>
    s.rb (adPort (m / 8) 0) 7 && s.rb (adPort (m / 8) 0) 3 && s.rb (adMac m) 0 && s.linkUp m &&
      !s.rb (adPort (m / 8) 1) 16)

/-- The octets of an Ohmad frame that leaves by MAC `m` (R481). -/
def State.ohmFrame (s : State) (m : Nat) (ws : List Word) : List Byte :=
  let src := 0x02CAEC * 2 ^ 24 + s.memberId * 2 ^ 12 + m / 8
  let bs := octetsBE 6 0x03CAEC000000 ++ octetsBE 6 src ++ octetsBE 2 (s.rf (adOhm 1) 35 20) ++ wordsOctets ws
  withFcs (bs ++ List.replicate (60 - bs.length) 0)

/-- An Ohmad frame leaves by MAC `m`. -/
def State.sendOhm (s : State) (ws : List Word) (m : Nat) : State :=
  let bs := s.ohmFrame m ws
  let s := s.emit (.macFrame m (s.macLanes m) bs false (macOut s.now))
  let s := ((s.countGood m 20 bs).countSize m 26 bs.length).bwAdd (768 + m) bs.length
  s.monEv 8 (m / 8) 2 1

/-- Word 0 of an Ohmad frame: VERSION, KIND and ORIGIN, with the fields below. -/
def ohmWord0 (kind origin : Nat) (fs : List (Nat × Nat)) : Word :=
  mkWord ([(44, 1), (40, kind), (28, origin)] ++ fs)

/-! ### Mirror frames (R495) -/

/-- OHM_PROT of tree `t`: VALID, and the active role. -/
def State.dualHomed (s : State) (t : Nat) : Bool := s.rb (adOhm (0x100 + 2 * t)) 47
def State.activeRole (s : State) (t : Nat) : Bool := s.dualHomed t && s.rb (adOhm (0x100 + 2 * t)) 46

/-- The tree takes a role. -/
def State.setRole (s : State) (t : Nat) (active : Bool) : State := s.setRf (adOhm (0x100 + 2 * t)) 46 46 (b2n active)

/-- A mirror frame with records for tree `t` goes to its peer on both Ohmad ports. -/
def State.sendMirror (s : State) (t : Nat) (recs : List (List Word)) : State :=
  let seq := (s.ohm.mirSeq + 1) % 2 ^ 32
  let w0 := ohmWord0 1 s.memberId [(16, s.rf (adOhm (0x100 + 2 * t)) 45 34), (8, recs.length)]
  let ws := w0 :: mkWord [(16, seq)] :: recs.flatten
  s.ohmPorts.foldl (fun s m => s.sendOhm ws m) { s with ohm := { s.ohm with mirSeq := seq } }

/-- The header of a record. -/
def mirHeader (rtype t entry : Nat) (fs : List (Nat × Nat)) : Word :=
  mkWord ([(44, rtype), (37, t), (28, entry)] ++ fs)

/-- The payload of an SFC or RELEASED record: the counter and boundary of the present frame. -/
def State.sfcPayload (s : State) (t : Nat) : List Word :=
  let c := s.sfc t
  let b := s.frameStart t s.tickEndNt / 2 ^ 40
  [toWord (c / 2 ^ 48), toWord (c % 2 ^ 48), toWord (b / 10 ^ 9), toWord (b % 10 ^ 9)]

/-- An SFC record of tree `t`. -/
def State.sfcRecord (s : State) (t : Nat) (loss : Bool) : List Word :=
  mirHeader 0 t 0 [(27, b2n loss)] :: s.sfcPayload t

/-- A lane of tree `t` that its line mode uses is lost or retired, or the tree is (R498). -/
def State.treeLostOrOff (s : State) (t : Nat) : Bool :=
  (s.tree t).retired || !s.treeEnable t ||
    [0, 1].any (fun l => s.laneUsed t l && (s.laneLost t l || (s.lane t l).retired))

/-- The active member's LOSS record for a tree that has left service, after which it is standby (R498). -/
def State.sendLoss (s : State) (t : Nat) : State :=
  if s.ohmEn && s.activeRole t && s.traffic && s.treeLostOrOff t && !smGet (fun _ => false) s.ohm.releasing t &&
      !(s.tree t).drained then
    (s.sendMirror t [s.sfcRecord t true]).setRole t false
  else s

/-- The RELEASED record, with the counter and boundary of the first frame not sent, at the stopping boundary of a tree that stops under HANDOVER; the tree is standby from then on
(R498). -/
def State.sendReleased (s : State) (t : Nat) (payload : List Word) : State :=
  if smGet (fun _ => false) s.ohm.releasing t then
    let s := s.sendMirror t [mirHeader 5 t 0 [] :: payload]
    ({ s with ohm := { s.ohm with releasing := smSet (fun _ => false) s.ohm.releasing t false } }).setRole t false
  else s

end Sys2Proof.Machine
end

