-- ==== Sys2Proof/Machine/LineOps.lean ====
section
/-! DEFINITION. The downstream line: message queues (R110 to R112), XGEM frames and fragments (R162 to R171), and what
happens when a lane or tree leaves or enters service (R138, R159, R173 to R179). -/

namespace Sys2Proof.Machine

/-! ### XGEM frames -/

/-- Octets of the FS frame of a lane: 720 codewords in TORRENT (R162), half of that on a 49.7664 Gbit/s lane. -/
def State.fsSize (s : State) (t : Nat) : Nat := if s.torrent t then 1313232 else 656616

/-- The alignment unit (R166). -/
def State.fsUnit (s : State) (t : Nat) : Nat := if s.torrent t then 8 else 4

/-- The FS octet of the first XGEM frame behind header, map and PLOAM messages (R165). -/
def State.fsStart (s : State) (t maps ploams : Nat) : Nat :=
  if s.torrent t then 8 + 8 * maps + 48 * ploams else 4 * (Config.gponHeader maps ploams).toNat

/-- The first FS octet of the present frame, on an alignment unit, whose place on the line (R162) lies `d` tenths of a
nanosecond from now or later. -/
def State.linePos (s : State) (t d : Nat) : Nat :=
  let x := 10 * (s.now - (s.tree t).lastBoundary.getD s.now) + d
  let o := if s.torrent t then ceilDiv (x * 7776) 6250 - 48 else ceilDiv (x * 3888) 6250 - 24
  let u := s.fsUnit t
  min (ceilDiv (o / 2160 * 1824 + min (o % 2160) 1824) u * u) (s.fsSize t)

/-- From a decision of the scheduler to the line, in tenths of a nanosecond: Table 1.4 steps 6 to 10, the crossing at its
upper bound of 4 ns. -/
def State.lineDelay (s : State) (t : Nat) : Nat := if s.torrent t then 2246 else 3982

/-- The payload of a downstream XGEM frame under its key (R435 to R437). -/
def State.dsCipher (s : State) (t l sfc pos : Nat) (c : Carry) (key : Option (Nat × BitVec 128)) (bs : List Byte) :
    List Byte :=
  match key with
  | none => bs
  | some (_, k) =>
    if s.torrent t then ctrOctets k (torrentBlock sfc l 0 (pos / 8)) bs
    else ctrOctets k (gponBlock (Config.gponCounter 0 t sfc pos) (s.lineMode t == 1 && l == 1 && c.twoLane)) bs

/-- The key index and key of a frame for XGEM port `port` whose header is placed now, read at the start of the tick (R435), and
whether the frame can be sent: a multicast frame of a group without a usable key is discarded (R433), and so is what is left of a
held ONU's SDU. -/
def State.frameKey (s : State) (t port : Nat) : KeySrc → Bool × Option (Nat × BitVec 128)
  | .none => (true, none)
  | .onu h => (!s.atStart.onuHeld h, s.atStart.onuKey h)
  | .group =>
    match s.atStart.grpOf t port with
    | none => (true, none)
    | some n =>
      let k := s.atStart.grpKey t n
      (k.isSome, k)

/-- The next BSEQ of a downstream sequence (R168). -/
def State.nextBseq (s : State) (t port : Nat) : Nat := smGet (fun _ => 0) (s.tree t).bseq port

/-! ### Message queues -/

/-- Octets of message `id` have been framed: the MSG_SEND in execution counts them and notes the first frame. -/
def State.noteFramed (s : State) (id n sfc : Nat) : State :=
  match s.findExec (fun w => match w with
    | .message i _ => i == id
    | _ => false) with
  | some (q, e) =>
    let first := match e.wait with
      | .message _ f => f
      | _ => 0
    s.setExec q { e with progress := e.progress + n, wait := .message id (if e.progress = 0 then sfc else first) }
  | none => s

/-- Message `id` waits on some lane of tree `t`. -/
def State.msgWaits (s : State) (t id : Nat) : Bool :=
  ((s.lane t 0).msgs ++ (s.lane t 1).msgs).any (fun m => m.id == id)

/-- The MSG_SEND of message `id` ends: DONE when every copy is framed, else ABORTED or PARTIAL by its octets. -/
def State.endMsg (s : State) (id : Nat) (framed : Bool) : State :=
  match s.findExec (fun w => match w with
    | .message i _ => i == id
    | _ => false) with
  | some (q, e) =>
    let sfc := match e.wait with
      | .message _ f => f
      | _ => 0
    if framed then s.endExec q stDone e.progress (sfc % 2 ^ 48)
    else if e.progress = 0 then s.endExec q stAborted 0 0
    else s.endExec q stPartial e.progress (sfc % 2 ^ 48)
  | none => s

/-- Discard the messages of lane `l` of tree `t` that `p` selects, with what is left of one on its way; `counted` counts
them in MSG_DISCARD. -/
def State.discardMsgs (s : State) (t l : Nat) (counted : Bool) (p : Msg → Bool) : State :=
  let v := s.lane t l
  let gone := v.msgs.filter p
  let stays (c : Carry) : Bool := !gone.any (fun m => c.msg == some m.id)
  let s := s.setLane t l { v with msgs := v.msgs.filter (fun m => !p m), carry := v.carry.filter stays }
  let s := if counted then s.bump (adLaneStat t 0 14) gone.length else s
  gone.foldl (fun s m => s.endMsg m.id false) s

/-- `n` octets of message `id` have been framed on lane `l`; with its last octet it leaves the lane's queue, and its
MSG_SEND ends with the last copy (R112). -/
def State.msgOut (s : State) (t l id n sfc : Nat) (last : Bool) : State :=
  let s := s.noteFramed id n sfc
  if !last then s
  else
    let v := s.lane t l
    let s := s.setLane t l { v with msgs := v.msgs.filter (fun x => x.id != id) }
    if s.msgWaits t id then s else s.endMsg id true

/-! ### Sending XGEM frames -/

/-- Octets of the FS frame that lane `l` of tree `t` sends. -/
def State.pushFs (s : State) (t l : Nat) (bs : List Byte) : State :=
  let v := s.lane t l
  s.setLane t l { v with
    txPos := v.txPos + bs.length, frame := v.frame.map (fun f => { f with octets := f.octets ++ bs }) }

/-- A frame of `n` payload octets of an SDU cannot be sent for want of its key: a multicast one alone is discarded and counted
(R433); what is left of a held ONU's SDU goes. -/
def State.dropFrame (s : State) (t l n : Nat) (c : Carry) (last : Bool) : State :=
  let rest := { c with octets := c.octets.drop n }
  let s := s.setLane t l { s.lane t l with carry := if c.key = .group ∧ !last then some rest else none }
  match c.key, c.msg with
  | .group, _ => s.bump (adTree t 0x110) 1
  | _, some id => s.discardMsgs t l true (fun m => m.id == id)
  | _, none => s

/-- Send one XGEM frame of `n` payload octets from what is left of an SDU on lane `l` of tree `t`. -/
def State.sendFragment (s : State) (t l n : Nat) (c : Carry) (last : Bool) : State :=
  let (can, key) := s.frameKey t c.port c.key
  if !can then s.dropFrame t l n c last
  else
  let pos := (s.lane t l).txPos
  let sfc := s.sfc t
  let unit := s.fsUnit t
  let padded := takePad (ceilDiv n unit * unit) 0 (c.octets.take n)
  let bseq := s.nextBseq t c.port
  let opts := if c.braided then 2 ^ 16 + bseq else 0
  let ki := match key with
    | some (i, _) => i
    | none => 0
  let payload := s.dsCipher t l sfc pos c key padded
  let s := s.emit (.xgem t l sfc pos n c.port ki last opts payload)
  let s := if c.braided then
      let u := s.tree t
      s.setTree t { u with bseq := smSet (fun _ => 0) u.bseq c.port ((bseq + 1) % 2 ^ 16) }
    else s
  let s := s.pushFs t l (structOctets (xgemHeader n ki c.port opts last) ++ payload)
  let s := s.setLane t l { s.lane t l with
    carry := if last then none else some { c with octets := c.octets.drop n } }
  let s := ((s.bump (adLaneStat t l 1) 1).bump (adLaneStat t l 2) n).bwAdd (2 * t + l) (8 + padded.length)
  let s := s.monEv 10 t 1 1
  let s := if ki = 0 then s else s.bump (adLaneStat t l 5) 1
  match c.msg with
  | some id => s.msgOut t l id n sfc last
  | none => s

/-- Send an SDU, or what is left of one, as far as the present FS frame goes (R166). A rest that holds no header and one
unit of payload is left idle. -/
def State.sendSdu (s : State) (t l : Nat) (c : Carry) : State :=
  let v := s.lane t l
  let unit := s.fsUnit t
  let room := s.fsSize t - v.txPos
  let n := c.octets.length
  if 8 + ceilDiv n unit * unit ≤ room then s.sendFragment t l n c true
  else if 8 + unit ≤ room then s.sendFragment t l ((room - 8) / unit * unit) c false
  else s.setLane t l { v with carry := some c }

/-- Idle XGEM frames fill the line (R165, R166): the transmit position is not before FS octet `n`. -/
def State.idleTo (s : State) (t l n : Nat) : State :=
  let v := s.lane t l
  if n ≤ v.txPos then s
  else
    let k := n - v.txPos
    ((s.pushFs t l (idleFrames (k / 8 + 1) k)).bump (adLaneStat t l 3) k).monEv 10 t 2 1

/-- Lane `l` of tree `t` has an SDU on its way whose tail is not yet present. -/
def State.laneBusy (s : State) (t l : Nat) : Bool :=
  s.dsq.going.any (fun g =>
    match g with
    | .lane a b _ _ => a == t && b == l
    | .mac _ _ _ => false)

/-- The lane's transmit side can accept an SDU: it is in service, nothing is left over from an SDU before, and the next
frame would begin on the line within 2,000 octets of the place that the scheduler reaches now. DESIGN CHOICE (entry 88): the
spec gives the bound of R171 and not the depth of the transmit side; 2,000 octets and the longest frame stay below it. -/
def State.laneAccepts (s : State) (t l : Nat) : Bool :=
  let v := s.lane t l
  s.laneUp t l && (s.tree t).sending && v.frame.isSome && v.carry.isNone &&
    Nat.ble (v.txPos + 8 + s.fsUnit t) (s.fsSize t) && Nat.ble v.txPos (s.linePos t (s.lineDelay t) + 2000)

/-- The oldest PLOAM message of lane `l` goes into frame `sfc`. -/
def State.framePloam (s : State) (t l sfc : Nat) : State :=
  match (s.lane t l).msgs.find? (fun m => m.kind != 2) with
  | some m =>
    let s := s.setLane t l { s.lane t l with ploams := (s.lane t l).ploams - 1 }
    ((s.emit (.ploam t l sfc m.octets)).bump (adLaneStat t l 4) 1).msgOut t l m.id m.octets.length sfc true
  | none => s.setLane t l { s.lane t l with ploams := 0 }

/-- The oldest OMCI message of lane `l` goes out on its ONU's OMCI port (R111); it waits while the ONU is held (R432). -/
def State.frameOmci (s : State) (t l : Nat) : State :=
  match (s.lane t l).msgs.find? (fun m => m.kind == 2) with
  | some m =>
    let s := s.idleTo t l (s.linePos t 0)
    if s.laneAccepts t l && !s.laneBusy t l && !s.onuHeld m.handle then
      let h := m.handle
      s.sendSdu t l { port := s.rf (adOnu h 0) 15 0, braided := false, key := .onu h, twoLane := s.onuLanes h == 3,
                      octets := m.octets, msg := some m.id }
    else s
  | none => s

/-- Frame one message of a lane: a PLOAM message while the present frame has room for one (R110, R165), else an OMCI
message. -/
def State.frameMsg (s : State) (t l : Nat) : State :=
  if (s.lane t l).ploams = 0 then s.frameOmci t l else s.framePloam t l (s.sfc t)

/-- The PLOAM messages that the last frame still had to take. -/
def State.flushPloams : Nat → State → Nat → Nat → Nat → State
  | 0, s, _, _, _ => s
  | k + 1, s, t, l, sfc => if (s.lane t l).ploams = 0 then s else flushPloams k (s.framePloam t l sfc) t l sfc

/-! ### Upstream SDUs that end bad (R300) -/

/-- The octets of the parse window of an arrival are present. -/
def State.headPresent (s : State) (a : Arrival) : Bool :=
  a.ended || Nat.ble (min ((s.rf (0x1400000 + a.src) 43 40 + 1) * 16) a.len) a.octets.length

/-- The tick in which the parse of a window that is present now is done: 4 ns, behind the crossing of 2 to 3 ns from an
uplink port (Table 1.4). -/
def State.parseAt (s : State) (src : Nat) : Nat :=
  s.now + 4 + (if src < 256 then ceilDiv (20 + Config.crossing 0 s.now % 11) 10 else 0)

/-- An arrival whose parse window has become present is parsed. -/
def State.noteHead (s : State) (a : Arrival) : Arrival :=
  if a.ready.isNone && s.headPresent a then { a with ready := some (s.parseAt a.src) } else a

/-- Change the arrival of a request. -/
def CellAsk.mapArr (f : Arrival → Arrival) : CellAsk → CellAsk
  | .copies a k i h de sp t r l => .copies (f a) k i h de sp t r l
  | x => x

/-- Change arrivals, wherever they stand in classification. -/
def State.mapArr (s : State) (f : Arrival → Arrival) : State :=
  { s with cls := { s.cls with
    arrivals := s.cls.arrivals.map (fun a => s.noteHead (f a)),
    deciding := s.cls.deciding.map (fun e => { e with arr := f e.arr }),
    oxbow := s.cls.oxbow.map (fun o => { o with arr := f o.arr }),
    floods := s.cls.floods.map (fun o => { o with arr := f o.arr }),
    requests := s.cls.requests.map (fun r => { r with ask := r.ask.mapArr f }) } }

/-- What came in as arrival `id` ends now and is bad, whether it waits for a pipe, is held by the Oxbow or has cells. -/
def State.badArrival (s : State) (id : Nat) : State :=
  let s := s.mapArr (fun a => if a.id = id && !a.ended then { a with bad := true, ended := true } else a)
  let grps : List Nat := (s.cat.pkts.filterMap (fun (x : Nat × Option Packet) =>
    match x.2 with
    | some p => if p.arr = id && !p.ended then some p.grp else none
    | none => none)).eraseDups
  grps.foldl (fun s g => s.makeBad g true) s

/-- A forwarded SDU ends bad and is counted once. DESIGN CHOICE (entry 130): a braided one counts in SDU_BAD of the lane that
carried its last forwarded fragment. -/
def State.endSdu (s : State) (t : Nat) (d : Sdu) : State :=
  let u := s.tree t
  let s := s.setTree t { u with sdus := u.sdus.filter (· != d) }
  ((s.bump (adBrx t d.lane 0x4D) 1).bumpSet 2 d.onu 6 1).badArrival d.arr

/-- The open SDUs of tree `t` that `p` selects end bad. -/
def State.endSdus (s : State) (t : Nat) (p : Sdu → Bool) : State :=
  ((s.tree t).sdus.filter p).foldl (fun s d => s.endSdu t d) s

/-- The grid of tree `t` has changed since state `was`: its present frame goes on, with its counter, until the next boundary of the new
grid; where the counter there is not that counter plus one, the tree's line keys are invalidated (R439, R472, R473). -/
def State.regridded (s was : State) (t : Nat) : State :=
  let s := s.setTree t { s.tree t with held := some (was.sfc t, was.frameBegan t was.tickEndNt, s.nextBoundaryNt t) }
  if s.nextCounter t = (was.sfc t + 1) % 2 ^ 51 then s else s.invalidateKeys t

/-- The grid of tree `t` changes by `f`. -/
def State.regrid (s : State) (t : Nat) (f : State → State) : State := (f s).regridded s t

/-- An off-grid tree takes the grid (R472). -/
def State.gridReturn (s : State) (t : Nat) : State :=
  if (s.tree t).offgrid.isSome then
    s.regrid t (fun s => (s.setTree t { s.tree t with offgrid := none }).setReg (adTree t 0x21) 0)
  else s

/-! ### Leaving and entering service -/

/-- Transmit disable of a lane is asserted (R183). -/
def State.ptxdis (s : State) (t l : Nat) : Bool := !s.laneUp t l

/-- The level of a transmit-disable pin after a change. -/
def State.emitPtxdis (s : State) (t l : Nat) : State := s.emit (.pin 0 (2 * t + l) (s.ptxdis t l) s.now)

/-- The items that the maps to come have for a lane go (R216): the lane sends no map of a run that began before. -/
def Tree.clearMaps (u : Tree) (l : Nat) : Tree :=
  { u with maps := u.maps.map (fun m => if l = 0 then { m with items0 := [] } else { m with items1 := [] }) }

/-- What is left of an expected item when its lane stops: a ranging window still has its record (R268), but a response that has
not left the decoder is lost, and its pins give no pulse any more. -/
def Expect.stops (l : List PloamIn) (e : Expect) : Option Expect :=
  match e.items with
  | i :: _ =>
    if i.kind ≠ 2 then none
    else if e.state = 1 ∧ !l.any (fun m => m.kind == 2 && m.onu == i.onu) then some { e with state := 2, prm := 0 }
    else some { e with prm := 0 }
  | [] => none

/-- A MSG_SEND whose OMCI message for lane `l` of tree `t` still comes from the host (R112, R122). -/
def State.omciOn (s : State) (t l : Nat) : Wait → Bool
  | .work _ (.omci c _ _) => c.arg 15 0 / 512 == t && s.rf (adOnu (c.arg 15 0) 0) 25 25 == l
  | _ => false

/-- Lane `l` of tree `t` stops: its messages go, what is left of an SDU is sent nowhere (R112, R170), and it receives no
burst. Ranging windows whose map has been sent still end with their record (R268). The frame that it sends breaks off. -/
def State.laneStops (s : State) (t l : Nat) : State :=
  let s := s.discardMsgs t l true (fun _ => true)
  let s := s.execs.foldl (fun s x => if s.omciOn t l x.2.wait then s.endExec x.1 stAborted 0 0 else s) s
  let s := (s.endSdus t (fun d => !d.braided && d.lane == l)).pinsLow t l
  let v := s.lane t l
  let s := s.setLane t l { v with
    carry := none, ploams := 0, txPos := 0, frame := none, answers := [], delin := none, released := [],
    expects := v.expects.filterMap (Expect.stops v.ploamIn) }
  (s.setTree t ((s.tree t).clearMaps l)).emitPtxdis t l

/-- Tree `t` stops: packets and messages are discarded and counted, its Sluice engine runs no more (R175, R178). -/
def State.treeStops (s : State) (t : Nat) : State :=
  let held := ((s.dqBusyOf t).map (fun h => (s.dq h).entries.length)).foldl (· + ·) 0
  let s := (s.dqBusyOf t).foldl (fun s h => s.discardQueue .none h) s
  let s := s.bump (adLaneStat t 0 13) held
  let u := s.tree t
  let s := s.setTree t { u with
    stopping := false, sending := false, since := none, run := none, maps := [],
    lane0 := { u.lane0 with returnAt := none, toDeskew := [] }, lane1 := { u.lane1 with returnAt := none, toDeskew := [] } }
  let s := ((s.laneStops t 0).laneStops t 1).endSdus t (fun _ => true)
  ((s.setTree t { s.tree t with dsk := [] }).gridReturn t).settleDeficits t

/-- Tree `t` comes into service: its braided sequences start at 0, and it sends from the first boundary 20,000 ticks
later (R138, R168, R179). -/
def State.treeStarts (s : State) (t : Nat) : State :=
  let u := s.tree t
  let s := s.setTree t { u with
    since := some s.now, sending := false, drained := false, bseq := [], maps := [], run := none,
    lane0 := { u.lane0 with returnAt := none }, lane1 := { u.lane1 with returnAt := none } }
  (s.emitPtxdis t 0).emitPtxdis t 1

/-- What follows for lane `l` of a tree that stays in service: it stops, it waits for its return (R159), or, where the line
mode has come to use it, its transmit disable goes at once (R183). -/
def State.reserviceLane (was : State) (t : Nat) (s : State) (l : Nat) : State :=
  if was.laneUp t l && !(s.laneUsed t l && s.laneUsable t l) then
    ((s.setLane t l { s.lane t l with returnAt := none }).laneStops t l).settleDeficits t
  else if s.laneUsed t l && !was.laneUsable t l && s.laneUsable t l then
    s.setLane t l { s.lane t l with returnAt := some s.now }
  else if !was.laneUp t l && s.laneUp t l then s.emitPtxdis t l
  else s

/-- What follows for tree `t` from a change of the conditions of R159; `was` is the state before the change. -/
def State.reservice (s was : State) (t : Nat) : State :=
  if was.treeUp t && !s.treeUp t then (s.sendLoss t).treeStops t
  else if !was.treeUp t && s.treeUp t then s.treeStarts t
  else if s.treeUp t then [0, 1].foldl (State.reserviceLane was t) s
  else s

/-- What follows for every tree. -/
def State.reserviceAll (s was : State) : State := (List.range 128).foldl (fun s t => s.reservice was t) s

/-- A change of tree `t`'s fields with what follows from it. -/
def State.changeTree (s : State) (t : Nat) (f : Tree → Tree) : State := (s.setTree t (f (s.tree t))).reservice s t

/-- A change of a lane's fields with what follows from it. -/
def State.changeLane (s : State) (t l : Nat) (f : Lane → Lane) : State :=
  (s.setLane t l (f (s.lane t l))).reservice s t

/-- Packets in queues of tree `t` with no lane of their lane set left in service are discarded as LANEDOWN (R174). -/
def State.dropLaneDown (s : State) (t : Nat) : State :=
  let lost := (s.dqBusyOf t).filter (fun h => s.dqLanes h &&& s.lanesUp t == 0)
  (lost.foldl (fun s h => s.discardQueue (.set dqLaneDown) h) s).settleDeficits t

end Sys2Proof.Machine
end

