-- ==== Sys2Proof/Machine/SluiceOps.lean ====
section
/-! DEFINITION. Sluice: banks, lane time, placement, steps of a run and the maps it leaves (06). -/

namespace Sys2Proof.Machine

/-! ### Registers and banks -/

/-- SLU_STATUS of tree `t`. -/
def adSluStatus (t : Nat) : Nat := adTree t 0x1001

/-- Word `w` of SLU_CNT: 0 RUNS, 1 OVERRUN, 2 NOFIT, 3 LATE, 4 BADREF, 5 OMITTED, 6 NOBOUND. -/
def adSluCnt (t w : Nat) : Nat := adTree t (0x1010 + w)

/-- Word `w` of bank `b`. -/
def adBank (t b w : Nat) : Nat := adTree t (0x2000 + 0x1000 * b + w)

/-- The active bank. -/
def State.bankActive (s : State) (t : Nat) : Nat := s.rf (adSluStatus t) 0 0

/-- Bank `b` is valid. -/
def State.bankValid (s : State) (t b : Nat) : Bool := s.rb (adSluStatus t) (1 + b)

/-- Mark bank `b` valid or not. -/
def State.setBankValid (s : State) (t b : Nat) (v : Bool) : State := s.setRf (adSluStatus t) (1 + b) (1 + b) (b2n v)

/-! ### Well-formed banks (R239) -/

/-- Operand words of a Sluice opcode (Table 6.4). -/
def sluOps (op : Nat) : Nat := if op = 0x22 then 1 else if op = 0x25 then 2 else 0

/-- Assigned bits of a Sluice header below its operand count. -/
def sluMask (op : Nat) : Nat :=
  match op with
  | 0x20 => 0xFFF1FFFF
  | 0x21 | 0x22 | 0x25 => 0xF3FFFFFFF
  | 0x23 => 0xE0001FFFF
  | 0x24 => 0x203FFFFFF
  | 0x26 | 0x27 => 0x13FFFFFFF
  | 0x28 => 0x1FFF
  | 0x2A => 0xFFF
  | 0x2B => 0x1FFFFFFFF
  | 0x2C => 0x1FFFFFFFF
  | 0x2D => 0x10000FFFF
  | 0x2E => 0x18003FFFF
  | 0x2F => 0x1FFFF
  | _ => 0

/-- One instruction of a parsed bank: its word, header, operand words and the loop bodies around it, innermost first,
each named by the word of its LOOP. -/
structure SluInstr where
  at_ : Nat
  hdr : Word
  ops : List Word
  body : List Nat
deriving DecidableEq, Repr

/-- Read a bank from word `pc` to the first END: the instructions read, and the word of the first one that is malformed
by its opcode, its operand count, its place in the bank or its loops. DESIGN CHOICE (entry 91): a LOOP word itself belongs to
the body around its loop, an ENDLOOP word to the body that it ends; the spec names the bodies of targets and not the place of
these two words. -/
def sluParse (word : Nat → Word) : Nat → Nat → List Nat → List SluInstr × Option Nat
  | 0, pc, _ => ([], some pc)
  | k + 1, pc, body =>
    let h := word pc
    let op := hdrOpcode h
    if !inRange 0x20 0x30 op || hdrNops h != sluOps op || Nat.blt 4096 (pc + 1 + sluOps op) then ([], some pc)
    else
      let i : SluInstr := { at_ := pc, hdr := h, ops := (List.range (sluOps op)).map (fun j => word (pc + 1 + j)),
                            body := body }
      let next := pc + 1 + sluOps op
      let more (b : List Nat) : List SluInstr × Option Nat :=
        let r := sluParse word k next b
        (i :: r.1, r.2)
      if op = 0x30 then ([i], body.getLast?)
      else if op = 0x28 then (if body.length = 4 then ([], some pc) else more (pc :: body))
      else if op = 0x29 then (if body.isEmpty then ([], some pc) else more (body.drop 1))
      else more body

/-- The word at which an instruction goes on when it skips or jumps. -/
def sluTarget (i : SluInstr) : Option Nat :=
  let op := hdrOpcode i.hdr
  if op = 0x2A then some (fld i.hdr 11 0)
  else if op = 0x26 ∨ op = 0x27 ∨ op = 0x2C then some (i.at_ + 1 + fld i.hdr 7 0) else none

/-- One instruction keeps R239 and R234, among all of its bank. -/
def sluOk (all : List SluInstr) (i : SluInstr) : Bool :=
  let op := hdrOpcode i.hdr
  let small (n : Nat) : Bool := Nat.ble n 97200
  i.hdr.toNat % 2 ^ 36 &&& (2 ^ 36 - 1 - sluMask op) == 0 &&
  i.ops.all (fun w => fld w 47 (if op = 0x22 then 17 else 32) == 0) &&
  ((op == 0x20) == (i.at_ == 0)) &&
  (match sluTarget i with
    | some t => all.any (fun j => j.at_ == t && j.body == i.body)
    | none => true) &&
  (if op = 0x20 ∨ op = 0x23 ∨ op = 0x24 ∨ op = 0x2F then small (fld i.hdr 16 0)
   else if op = 0x22 then small (fld (nth i.ops 0 0) 16 0)
   else if op = 0x2E then small (fld i.hdr 17 1)
   else if op = 0x25 then
     inRange 1000 1000000000 (nth i.ops 0 0).toNat && Nat.blt (nth i.ops 1 0).toNat (nth i.ops 0 0).toNat
   else if op = 0x2B then !bitOf i.hdr 32 || fld i.hdr 23 0 == 0
   else true)

/-- The first malformed word of a bank; none where it is well-formed. DESIGN CHOICE (entry 91): where reading stops early, an
instruction before that word whose target lies beyond it counts as malformed and comes first. -/
def sluBadWord (word : Nat → Word) : Option Nat :=
  let p := sluParse word 4097 0 []
  match p.1.find? (fun i => !sluOk p.1 i) with
  | some i => some i.at_
  | none => p.2

/-! ### What a run sees (R200) -/

/-- The state as the run's snapshot holds it. -/
def Run.view (r : Run) (s : State) : State :=
  { s with regs := r.snap.regs, tbl := { s.tbl with indexed := r.snap.indexed }, allocs := r.snap.allocs,
           buckets := r.snap.buckets, mode := r.snap.mode }

/-- Buckets as they stood at the start of this tick (R200). -/
def State.bucketsAtStart (s : State) : SMap Nat := s.start.buckets

/-- Lane `l` of a run. -/
def Run.ln (r : Run) (l : Nat) : RunLane := if l = 0 then r.l0 else r.l1

/-- Store lane `l`. -/
def Run.setLn (r : Run) (l : Nat) (v : RunLane) : Run := if l = 0 then { r with l0 := v } else { r with l1 := v }

/-! ### Placement (R211 to R214) -/

/-- The lowest reservation that overlaps blocks `a` up to `b`. -/
def lowestResv (resv : List (Nat × Nat)) (a b : Nat) : Option (Nat × Nat) :=
  (resv.filter (fun x => Nat.blt x.1 b && Nat.blt a x.2)).foldl (fun m x =>
    match m with
    | none => some x
    | some y => if x.1 < y.1 then some x else m) none

/-- The loop of place_flowing: the START and whether the item still continues its burst. -/
def flowLoop : Nat → RunLane → Nat → Nat → Nat → Nat → Nat → Option (Nat × Nat)
  | 0, _, _, _, _, _, _ => none
  | k + 1, v, cur, o, ovh, l, fb =>
    if fb < cur + o + l then none
    else
      match lowestResv v.resv cur (cur + o + l) with
      | none => some (cur + o, o)
      | some x => flowLoop k v x.2 ovh ovh l fb

/-- place_flowing (R214): the START, the item's overhead, and the lane after it; none counts NOFIT. -/
def placeFlowing (v : RunLane) (onu l fb ovh : Nat) (grant : Bool) : Option (Nat × Nat × RunLane) :=
  let o := if grant && v.last != some (true, onu, v.cur) then ovh else 0
  match flowLoop (v.resv.length + 1) v v.cur o (if grant then ovh else 0) l fb with
  | none => none
  | some (s, o) =>
    if v.items.length = 1024 then none
    else some (s, o, { v with cur := s + l, last := some (grant, onu, s + l) })

/-- What place_fixed answers. -/
inductive Fixed where
  | late | full
  | placed (v : RunLane)
deriving DecidableEq, Repr

/-- place_fixed (R214) at START `s`. -/
def placeFixed (v : RunLane) (s l fb ovh : Nat) : Fixed :=
  if s < v.cur + ovh || Nat.blt fb (s + l) then .late
  else if v.resv.any (fun x => Nat.blt x.1 (s + l) && Nat.blt (s - ovh) x.2) then .late
  else if v.items.length = 1024 || v.resv.length == 64 then .full
  else .placed { v with resv := v.resv ++ [(s - ovh, s + l)] }

/-! ### Grants (R209, R219) -/

/-- What a granting instruction asks for. -/
structure GrantAsk where
  alloc : Nat
  allocId : Nat
  onu : Nat
  rate : Nat
  l : Nat
  ovh : Nat
  dbru : Bool
  ploamu : Bool
  fwi : Bool
deriving DecidableEq, Repr

/-- The allocation that ALLOC and IDX name: the iteration of the innermost loop is added. -/
def Run.handle (r : Run) (h : Word) : Nat :=
  fld h 29 12 + (if bitOf h 32 then match r.loops with
    | (_, _, i) :: _ => i
    | [] => 0
  else 0)

/-- The allocation is bound to an ONU of the tree: the ONU and Alloc-ID. -/
def State.boundTo (s : State) (t a : Nat) : Option (Nat × Nat) :=
  if 262143 < a then none
  else
    match s.alloc a with
    | some (h, i) => if h / 512 = t then some (h, i) else none
    | none => none

/-- A granting instruction's request, or none where R219 finds its profile or handle bad. -/
def State.grantAsk (v : State) (t : Nat) (r : Run) (h : Word) : Option GrantAsk :=
  let a := r.handle h
  let p := v.entry 0x12 (fld h 11 0)
  match v.boundTo t a with
  | none => none
  | some (onu, id) =>
    if !bitOf (nth p 7 0) 47 then none
    else
      let b := v.bucketOf a
      let w := nth p (b / 2) 0
      let size := if b % 2 = 1 then fld w 33 17 else fld w 16 0
      let rate := v.onuRate onu
      some { alloc := a, allocId := id, onu := onu, rate := rate,
             l := size + (if bitOf h 35 then v.rptBlk t rate else 0) + (if bitOf h 34 then v.plmBlk t rate else 0),
             ovh := v.ovhBlk t rate, dbru := bitOf h 35, ploamu := bitOf h 34, fwi := bitOf h 33 }

/-- The item of a grant at START `s` of a burst whose first block is `first`. -/
def GrantAsk.item (g : GrantAsk) (s first : Nat) (trace : Option Nat) : Item :=
  { start := s, size := g.l, kind := 0, alloc := g.alloc, allocId := g.allocId, onu := g.onu, rate := g.rate,
    ovh := g.ovh, first := first, dbru := g.dbru, ploamu := g.ploamu, fwi := g.fwi, sn := false, rssi := false,
    trace := trace }

/-- The slot for the grant that a MARK with TAGNEXT selected (R232, R521). -/
def State.tagGrant (s : State) (t l alloc : Nat) (r : Run) : Option Nat × State :=
  match r.tagNext with
  | none => (none, s)
  | some m =>
    match s.freeTrace with
    | none => (none, (s.bump 0x40013 1).monEv 3 0 3 1)
    | some i =>
      let tr : TraceSlot :=
        { kind := 1, src := 2 * t + l, len := 0, base := r.bound, stages := List.replicate 8 none,
          dest := mkWord [(32, m), (14, alloc)], ended := none }
      (some i, s.setTrace i (some tr))

/-- Count an item placed or not. -/
def State.notePlaced (s : State) (t : Nat) (placed : Bool) : State := s.monEv 11 t (if placed then 2 else 3) 1

/-- Count an item not placed in word `w` of SLU_CNT. -/
def State.notPlaced (s : State) (t w : Nat) : State := (s.bump (adSluCnt t w) 1).notePlaced t false

/-- A grant stands at START `s` of lane `l`: its item is noted. -/
def State.putGrant (s : State) (t l start first : Nat) (g : GrantAsk) (r : Run) : State × Run :=
  let (tr, s) := s.tagGrant t l g.alloc r
  let v := r.ln l
  (s.notePlaced t true,
    { r.setLn l { v with items := v.items ++ [g.item start first tr] } with lastL := g.l, tagNext := none })

/-- The first block of the burst that a grant continuing the last item belongs to. -/
def RunLane.lastFirst (v : RunLane) (start : Nat) : Nat :=
  match v.items.reverse.find? (fun i => i.kind == 0 && i.start + i.size == start) with
  | some i => i.first
  | none => start

/-- A flowing grant on the current lane (R220). -/
def State.runGrant (s : State) (t : Nat) (r : Run) (h : Word) : State × Run :=
  let v := r.view s
  match v.grantAsk t r h with
  | none => (s.bump (adSluCnt t 4) 1, r)
  | some g =>
    if g.l = 0 then (s, r)
    else
      match placeFlowing (r.ln r.lane) g.onu g.l (v.frameBlocks t) g.ovh true with
      | none => (s.notPlaced t 2, r)
      | some (start, o, ln) =>
        s.putGrant t r.lane start (if o = 0 then ln.lastFirst start else start - o) g (r.setLn r.lane ln)

/-- A fixed grant at block START (R221). -/
def State.runGrantt (s : State) (t : Nat) (r : Run) (h o1 : Word) : State × Run :=
  let v := r.view s
  match v.grantAsk t r h with
  | none => (s.bump (adSluCnt t 4) 1, r)
  | some g =>
    let start := fld o1 16 0
    if g.l = 0 then (s, r)
    else
      match placeFixed (r.ln r.lane) start g.l (v.frameBlocks t) g.ovh with
      | .late => (s.notPlaced t 3, r)
      | .full => (s.notPlaced t 2, r)
      | .placed ln => s.putGrant t r.lane start (start - g.ovh) g (r.setLn r.lane ln)

/-- The loop of ALIGN (R234, R235): `g` is the distance from frame start to the next instant. The answer has the steps
used; `k` is the steps that the budget leaves, and none of the four outcomes is reached where they run out. -/
def State.alignLoop : Nat → State → Nat → Run → GrantAsk → Nat → Nat → Nat → Bool × State × Run
  | 0, s, _, r, _, _, _, _ => (false, s, r)
  | k + 1, s, t, r, a, g, period, fb =>
    let v := r.view s
    let start := ceilDiv (g * v.blockRate t) 625
    let s := s.monEv 11 t 4 1
    let r := { r with steps := r.steps + 1 }
    if fb < start + a.l then (true, s.notPlaced t 3, r)
    else
      match placeFixed (r.ln r.lane) start a.l fb a.ovh with
      | .placed ln =>
        let (s, r) := s.putGrant t r.lane start (start - a.ovh) a (r.setLn r.lane ln)
        (true, s, r)
      | .full => (true, s.notPlaced t 2, r)
      | .late => alignLoop k s t r a (g + period) period fb

/-- ALIGN (R233): whether it came to its end within the budget. DESIGN CHOICE (entry 147): one that examines no instant, for its handle
or profile or because l is 0, costs 1 step; Table 6.4 charges the instants examined and gives no number here. -/
def State.runAlign (s : State) (t : Nat) (r : Run) (h o1 o2 : Word) (left : Nat) : Bool × State × Run :=
  let v := r.view s
  match v.grantAsk t r h with
  | none => (true, s.bump (adSluCnt t 4) 1, { r with steps := r.steps + 1 })
  | some a =>
    if a.l = 0 then (true, s, { r with steps := r.steps + 1 })
    else
      let period := fld o1 31 0
      let start : Nat := r.snap.nt + 250000 + v.rf (adTree t 0x1002) 19 0
      let f := unsigned' (((start : Int) - (fld o2 31 0 : Int))) period
      s.alignLoop left t r a ((period - f) % period) period (v.frameBlocks t)
where
  /-- An integer modulo a number. -/
  unsigned' (z : Int) (p : Nat) : Nat := (z % (p : Int)).toNat

/-! ### Windows (R223, R224, R258, R259) -/

/-- Place a window of `n` blocks on lane `l`. -/
def State.runWindow (s : State) (t l n : Nat) (r : Run) (mk : Nat → Item) : State × Run :=
  let v := r.view s
  match placeFlowing (r.ln l) 0 n (v.frameBlocks t) 0 false with
  | none => (s.notPlaced t 2, r)
  | some (start, _, ln) =>
    (s.notePlaced t true, r.setLn l { ln with items := ln.items ++ [mk start] })

/-- QUIET (R223). DESIGN CHOICE (entry 148): ALT_LANE is the bit as earlier QUIETs of the run left it, not that of the run's snapshot
(R200); the spec says both. -/
def State.runQuiet (s : State) (t : Nat) (r : Run) (h : Word) : State × Run :=
  let v := r.view s
  let alt := bitOf h 35
  let two := v.lineMode t != 0
  let l := if !alt then r.lane else if two then s.rf (adSluStatus t) 33 33 else v.stdLane t
  let rate := if v.torrent t then 3 else v.rf (adTree t 0x4000) 35 34
  let mk (start : Nat) : Item :=
    { start := start, size := fld h 16 0, kind := 1, alloc := 0, allocId := v.rf (adTree t 0x4000) 33 20, onu := 0,
      rate := rate, ovh := v.ovhBlk t rate, first := start, dbru := false, ploamu := bitOf h 34, fwi := false,
      sn := bitOf h 34, rssi := bitOf h 33, trace := none }
  let (s, r) := s.runWindow t l (fld h 16 0) r mk
  (if alt && two then s.setRf (adSluStatus t) 33 33 (1 - l) else s, r)

/-- RANGEW. -/
def State.runRangew (s : State) (t : Nat) (r : Run) (h : Word) : State × Run :=
  let v := r.view s
  let onu := 512 * t + fld h 25 17
  let rate := v.onuRate onu
  let mk (start : Nat) : Item :=
    { start := start, size := fld h 16 0, kind := 2, alloc := 0, allocId := v.rf (adOnu onu 0) 37 28, onu := onu,
      rate := rate, ovh := v.ovhBlk t rate, first := start, dbru := false, ploamu := true, fwi := false,
      sn := false, rssi := bitOf h 33, trace := none }
  s.runWindow t r.lane (fld h 16 0) r mk

/-! ### Omission (R143, R144, R216, R600) -/

/-- R216 keeps the item: what the run observed lets it into the map. -/
def State.itemKept (v : State) (l : Nat) (r : Run) (i : Item) : Bool :=
  r.snap.lanes.testBit l &&
  (if i.kind = 0 then
     bitOf (v.raw (adOnu i.onu (3 + l))) 47 &&
       (r.snap.drainRun == 0 ||
         (v.bucketOf i.alloc != 0 && Nat.ble r.snap.drainRun (v.rf 0x22 7 0)))
   else r.snap.drainRun == 0 && (i.kind == 1 || v.onuUsed i.onu))

/-- The items of a lane in ascending START. -/
def insertItem (i : Item) : List Item → List Item
  | [] => [i]
  | j :: l => if i.start < j.start then i :: j :: l else j :: insertItem i l

/-- Sort by START. -/
def sortItems (l : List Item) : List Item := l.foldl (fun a i => insertItem i a) []

/-- Write the items of a lane in ascending START: `prev` is the last written grant of the present burst (the first block
of the burst as placed, its end, and the first block of the burst as written). The written items and the omitted ones
come back. -/
def writeItems (keep : Item → Bool) : List Item → Option (Nat × Nat × Nat) → List Item × List Item
  | [], _ => ([], [])
  | i :: l, prev =>
    if i.kind ≠ 0 then
      let (w, o) := writeItems keep l none
      if keep i then (i :: w, o) else (w, i :: o)
    else
      let mine := match prev with
        | some (b, e, f) => if b = i.first then some (e, f) else none
        | none => none
      let g := match mine with
        | some (e, _) => i.start - e
        | none => i.start - i.first
      let stays := match mine with
        | some (e, _) => e == i.start
        | none => false
      if keep i && (stays || Nat.ble i.ovh g) then
        let f := match mine with
          | some (_, f) => if stays then f else i.start - i.ovh
          | none => i.start - i.ovh
        let (w, o) := writeItems keep l (some (i.first, i.start + i.size, f))
        ({ i with first := f } :: w, o)
      else
        let (w, o) := writeItems keep l (match mine with
          | some _ => prev
          | none => none)
        (w, i :: o)

/-! ### The end of a run -/

/-- The run ends: its maps are complete, and the status shows it (R199, R228). A lane that has left service since the
boundary sends no map of it (R216). -/
def State.endRun (s : State) (t : Nat) (r : Run) : State :=
  let v := r.view s
  let empty : Bool := r.snap.drainRun != 0 && Nat.blt (v.rf 0x22 7 0) r.snap.drainRun
  let w0 := writeItems (fun i => !empty && v.itemKept 0 r i) (sortItems r.l0.items) none
  let w1 := writeItems (fun i => !empty && v.itemKept 1 r i) (sortItems r.l1.items) none
  let s := s.bump (adSluCnt t 5) (w0.2.length + w1.2.length)
  let blocks (l : List Item) : Nat := (l.map (·.size)).foldl (· + ·) 0
  let s := (s.bump (adLaneStat t 0 12) (blocks w0.1)).bump (adLaneStat t 1 12) (blocks w1.1)
  let s := (w0.1 ++ w1.1 ++ w0.2 ++ w1.2).foldl (fun s i => s.traceStage i.trace 1) s
  let s := (w0.2 ++ w1.2).foldl (fun s i => s.traceEnds i.trace true false false) s
  let s := (s.setRf (adSluStatus t) 32 18 r.steps).setRf (adSluStatus t) 17 6 r.prog
  let m : PendMap :=
    { sfc := (r.sfc + 2) % 2 ^ 51, placed := r.bound, upOffset := v.rf (adTree t 0x1002) 19 0,
      items0 := if s.laneUp t 0 then w0.1 else [], items1 := if s.laneUp t 1 then w1.1 else [] }
  let u := s.tree t
  s.setTree t { u with run := none, maps := u.maps ++ [m] }

/-- The active bank fails: it is not valid, and the other bank follows it or the tree halts (R241, R242). -/
def State.bankFails (s : State) (t : Nat) : State :=
  let a := s.bankActive t
  let s := (s.setBankValid t a false).setRf (adSluStatus t) 5 4 0
  if s.bankValid t (1 - a) then s.setTree t { s.tree t with revert := true }
  else (s.setRf (adSluStatus t) 3 3 1).alarm 7 0x2C2 t 0

/-- The run reaches its budget (R240). -/
def State.overrun (s : State) (t : Nat) (r : Run) : State :=
  let s := ((s.endRun t r).bump (adSluCnt t 1) 1).fault 0x2C0 t r.prog
  let n := s.rf (adSluStatus t) 5 4 + 1
  if n < 3 then s.setRf (adSluStatus t) 5 4 n else s.bankFails t

/-! ### Swaps and reversions at a boundary (R108, R241, R243) -/

/-- The SLUICE_SWAP that waits for tree `t`. -/
def State.swapPending (s : State) (t : Nat) : Option Nat :=
  (s.findExec (fun w => match w with
    | .sluiceSwap x => x == t
    | _ => false)).map (·.1)

/-- A swap of the banks of tree `t` is pending, by SLUICE_SWAP or by a commit (R108, R489). -/
def State.swapDue (s : State) (t : Nat) : Bool :=
  (s.swapPending t).isSome || smGet (fun _ => false) s.ohm.sluSwap t

/-- The pending swap takes effect. -/
def State.swapBanks (s : State) (t : Nat) : State :=
  let q := s.swapPending t
  let s := s.setRf (adSluStatus t) 0 0 (1 - s.bankActive t)
  let s := (s.setRf (adSluStatus t) 5 4 0).setRf (adSluStatus t) 3 3 0
  let s := s.alarmClear 7 0x2C2 t
  let s := { s with ohm := { s.ohm with sluSwap := smSet (fun _ => false) s.ohm.sluSwap t false } }
  let s := s.setTree t { s.tree t with revert := false }
  match q with
  | some n => s.endExec n stDone 0 (s.bankActive t)
  | none => s

/-- The reversion takes effect. DESIGN CHOICE (entry 90): it is made although a SLUICE_LOAD has made the other bank not valid
since the failing run ended; the spec tests that bank at the run's end alone. -/
def State.revertBank (s : State) (t : Nat) : State :=
  let b := 1 - s.bankActive t
  let s := s.setRf (adSluStatus t) 0 0 b
  (s.setTree t { s.tree t with revert := false }).fault 0x2C1 t b

/-- What a frame boundary does to the banks of tree `t`. -/
def State.bankBoundary (s : State) (t : Nat) : State :=
  if s.swapDue t then s.swapBanks t else if (s.tree t).revert then s.revertBank t else s

/-! ### Steps (R199) -/

/-- The tick of the next step of the run of tree `t`, where the word at its program counter has opcode `op` (R199). -/
def State.sluAt (s : State) (t op : Nat) : Nat :=
  match (s.tree t).run with
  | some r => if hdrOpcode (s.raw (adBank t r.bank r.pc)) = op then r.bound + r.steps else s.now
  | none => s.now

/-- Step of the run of tree `t`: the word at its program counter has opcode `op`. `f` gets the header, its first two
operand words and the run with this step counted, its program counter at the next instruction. -/
def State.sluStep (s : State) (t op : Nat) (f : Word → Word → Word → State → Run → State × Run) : State :=
  match (s.tree t).run with
  | none => s
  | some r =>
    let word (i : Nat) : Word := s.raw (adBank t r.bank i)
    let h := word r.pc
    if hdrOpcode h ≠ op || !s.running || Nat.ble ((r.view s).rf (adTree t 0x1000) 14 0) r.steps then s
    else
      let s := s.monEv 11 t 1 1
      let (s, r) := f h (word (r.pc + 1)) (word (r.pc + 2)) s
        { r with steps := r.steps + 1, pc := r.pc + 1 + sluOps op }
      s.setTree t { s.tree t with run := some r }

/-- A cursor stays within the frame (R228). -/
def State.cursor (s : State) (t : Nat) (r : Run) (n : Nat) : Nat := min n ((r.view s).frameBlocks t)

/-- The word after the ENDLOOP that matches the LOOP before word `pc`. -/
def afterLoop (word : Nat → Word) : Nat → Nat → Nat → Nat
  | 0, pc, _ => pc
  | k + 1, pc, depth =>
    let op := hdrOpcode (word pc)
    let next := pc + 1 + sluOps op
    if op = 0x28 then afterLoop word k next (depth + 1)
    else if op = 0x29 then (if depth = 0 then next else afterLoop word k next (depth - 1))
    else afterLoop word k next depth

/-- A skip by `n` words where `c` holds. -/
def Run.skip (r : Run) (c : Bool) (n : Nat) : Run := if c then { r with pc := r.pc + n } else r

/-- The bucket that SKIPLT or SKIPGE compares; a bad handle counts BADREF and reads 0 (R219). -/
def State.skipBucket (s : State) (t : Nat) (r : Run) (h : Word) : Nat × State :=
  let v := r.view s
  match v.boundTo t (r.handle h) with
  | some _ => (v.bucketOf (r.handle h), s)
  | none => (0, s.bump (adSluCnt t 4) 1)

/-- Credit counter `c`. -/
def State.credit (s : State) (t c : Nat) : Int := signed 24 (s.rf (adTree t (0x1100 + c)) 23 0)

/-- Set a credit counter, saturated (R230). -/
def State.setCredit (s : State) (t c : Nat) (v : Int) : State :=
  s.setRf (adTree t (0x1100 + c)) 23 0 (unsigned 24 (saturate 24 v))

end Sys2Proof.Machine
end

