-- ==== Sys2Proof/Machine/FrameOps.lean ====
section
/-! DEFINITION. Frame boundaries: what starts and stops there, the frame that is sent, the bursts that its maps ask for,
and the start of a run (R138, R159, R178, R181, R198, R200, R202, R286). -/

namespace Sys2Proof.Machine

/-! ### Expected bursts -/

/-- Group written items into bursts and windows. -/
def groupBursts : List Item → List (List Item)
  | [] => []
  | i :: l =>
    match groupBursts l with
    | (j :: js) :: gs => if i.kind = 0 ∧ j.kind = 0 ∧ i.first = j.first then (i :: j :: js) :: gs
      else [i] :: (j :: js) :: gs
    | gs => [i] :: gs

/-- The bursts and windows of a map: `proto` with the items of each, and with the end of the written item before it, the first
of them behind position `p`. -/
def State.mkExpects (s : State) (t : Nat) (proto : Expect) : Int → List (List Item) → List Expect
  | _, [] => []
  | p, g :: gs =>
    let e := { proto with items := g, prevEnd := p }
    e :: s.mkExpects t proto (s.nominal t e e.fin : Nat) gs

/-- An expected item of which something is still to be recorded: a burst that no candidate has answered and that has not been
counted as lost (R298), or a ranging window without its record (R268). -/
def Expect.owed (e : Expect) : Bool :=
  match e.items with
  | i :: _ => (i.kind == 0 && e.state == 0) || (i.kind == 2 && e.state != 3)
  | [] => false

/-- The most recent serial-number grant of a lane whose START is nominally due by position `x`. -/
def State.lastSn (s : State) (t l x : Nat) : Option Expect :=
  ((s.lane t l).expects.filter (fun e =>
    (match e.head with
      | some i => i.kind == 1 && i.sn
      | none => false) && Nat.ble (s.nominal t e e.first) x)).getLast?

/-- What a lane still expects from earlier frames; a window or burst is kept for two milliseconds after its frame, and longer
while something is owed for it or it holds the lane's most recent serial-number grant (R291). -/
def State.liveExpects (s : State) (t l : Nat) : List Expect :=
  (s.lane t l).expects.filter (fun e => Nat.ble s.now (e.base / 31104 + 2125000) || e.owed ||
    s.lastSn t l (s.now * tickPos) == some e)

/-- Where the lane time of the last written item of earlier frames ends (R286). -/
def State.prevFin (s : State) (t l : Nat) : Int :=
  match (s.liveExpects t l).getLast? with
  | some e => (s.nominal t e e.fin : Nat)
  | none => -(2 ^ 40 : Nat)

/-! ### Sending a frame -/

/-- An entry of the map on tree `t` (R237, R238). -/
def State.mapStruct (s : State) (t allocId : Nat) (dbru ploamu : Bool) (start size : Nat) (fwi : Bool) : BitVec 64 :=
  if s.torrent t then mapWord allocId dbru ploamu start size fwi
  else Config.gponAlloc allocId dbru ploamu (Config.gponStart start) (Config.gponSize size) fwi

/-- The map entry of a written item; none for a QUIET window without a serial-number grant (R237, R258, R259). DEDUCED (entry 145): SIZE of
a window's entry is PLM_BLK[r], as R258 and R259 say of it, and not LEN, as R237 has it. -/
def State.mapEntry (s : State) (t : Nat) (i : Item) : Option (BitVec 64) :=
  if i.kind = 0 then some (s.mapStruct t i.allocId i.dbru i.ploamu i.start i.size i.fwi)
  else if i.kind = 1 && !i.sn then none
  else some (s.mapStruct t i.allocId false true (i.start + i.ovh) (s.plmBlk t i.rate) false)

/-- EQD_OFF of a dual-homed tree, in u (R497). -/
def State.eqdOff (s : State) (t : Nat) : Int :=
  if s.rb (0x90100 + 2 * t) 47 then signed 32 (s.rf (0x90101 + 2 * t) 31 0) else 0

/-- The SDU that the frame before cut off goes on (R170). -/
def State.resumeSdu (s : State) (t l : Nat) : State :=
  match (s.lane t l).carry with
  | some c => s.sendSdu t l c
  | none => s

/-- The frame that lane `l` sends ends: idle frames have filled what was left free, and its symbols are on the line. -/
def State.closeFrame (s : State) (t l : Nat) : State :=
  match (s.lane t l).frame with
  | none => s
  | some f =>
    let s := s.idleTo t l (s.fsSize t)
    let fs := (((s.lane t l).frame.map (·.octets)).getD [])
    let s := s.emit (if s.torrent t then .pam4 t l f.sfc (levels (torrentOctets l f.sfc f.ponid f.pair fs))
      else .nrz t l f.sfc (Config.gponLine f.sfc f.ponid fs))
    s.setLane t l { s.lane t l with frame := none }

/-- The frame that ends with the boundary of frame `sfc` takes the PLOAM messages left for it, and ends. -/
def State.endLineFrame (s : State) (t l sfc : Nat) : State :=
  (s.flushPloams 16 t l ((sfc + 2 ^ 51 - 1) % 2 ^ 51)).closeFrame t l

/-- What stands in front of the XGEM frames of a lane: FS header, map and PLOAM messages (R165). -/
def State.fsHead (s : State) (t : Nat) (map : List (BitVec 64)) (ploams : List (List Byte)) : List Byte :=
  if s.torrent t then
    structOctets (fsHeader map.length ploams.length) ++ map.flatMap structOctets ++ ploams.flatMap (takePad 48 0)
  else takePad (s.fsStart t map.length ploams.length) 0 (Config.gponHead map ploams)

/-- Lane `l` of tree `t` sends its frame `sfc` with the written items of its map. -/
def State.sendFrame (s : State) (t l sfc : Nat) (items : List Item) (upOffset placed : Nat) : State :=
  let s := s.endLineFrame t l sfc
  let map := items.filterMap (s.mapEntry t)
  let msgs := ((s.lane t l).msgs.filter (fun m => m.kind != 2)).take 16
  let pair := s.laneUp t (1 - l)
  let head := s.fsHead t map (msgs.map (·.octets))
  let s := s.emit (.dsFrame t l sfc (s.tree t).ponid pair map)
  let s := (s.bump (adLaneStat t l 0) 1).bump (adLaneStat t l 6) map.length
  let base := ((((s.now + upOffset) * 31104 : Nat) : Int) + 625 * s.eqdOff t).toNat
  let proto : Expect :=
    { base := base, sfc := sfc, items := [], prevEnd := 0, state := 0, rejected := 0, prm := s.raw (adBrx t l 1),
      lossN := s.rf (adBrx t l 0) 35 32, delim := none, fins := [], delta := 0, next := 0, placed := placed }
  let es := s.mkExpects t proto (s.prevFin t l) (groupBursts items)
  let s := s.setLane t l { s.lane t l with
    txPos := head.length, frame := some { sfc := sfc, ponid := (s.tree t).ponid, pair := pair, octets := head },
    ploams := msgs.length, expects := s.liveExpects t l ++ es }
  (items.foldl (fun s i => s.traceStage i.trace 2) s).resumeSdu t l

/-- The maps due in the frame of counter `sfc`; a drain that is complete leaves them empty (R146). -/
def State.dueMap (s : State) (t sfc : Nat) : PendMap :=
  let none' : PendMap := { sfc := sfc, placed := s.now, upOffset := 0, items0 := [], items1 := [] }
  let stopped := match s.drain with
    | some d => d.done.isSome
    | none => false
  if stopped then none'
  else ((s.tree t).maps.find? (fun m => m.sfc == sfc)).getD none'

/-- Tree `t` sends the frame of this boundary on its lanes in service. -/
def State.sendFrames (s : State) (t : Nat) : State :=
  let sfc := s.sfc t
  let m := s.dueMap t sfc
  let u := s.tree t
  let s := s.setTree t { u with
    maps := u.maps.filter (fun m => m.sfc != sfc),
    ponid := s.rf (adTree t 3) 2 0 * 2 ^ 48 + (s.raw (adTree t 2)).toNat }
  let s := if s.laneUp t 0 then s.sendFrame t 0 sfc m.items0 m.upOffset m.placed else s
  if s.laneUp t 1 then s.sendFrame t 1 sfc m.items1 m.upOffset m.placed else s

/-! ### The start of a run (R198, R200) -/

/-- The tick in which the upstream frame of a run's map has ended at the OLT, counted from the run's boundary; a dual-homed tree
shifts it by `off` u (R146, R202, R497). -/
def runEnds (bound upOffset : Nat) (off : Int) : Nat :=
  (((bound + 250000 + upOffset + 125000 : Nat) : Int) + (625 * off + 31103).fdiv 31104).toNat

/-- An empty lane of a run. -/
def RunLane.fresh : RunLane := { cur := 0, items := [], resv := [], last := none }

/-- The engine starts its run at this boundary. DESIGN CHOICE (entry 89): a run that executes nothing, because the tree is
halted or its bank is not valid, leaves LAST_STEPS and PROG_ID as they are. -/
def State.startRun (s : State) (t : Nat) : State :=
  let s := s.bump (adSluCnt t 0) 1
  let b := s.bankActive t
  let u := s.tree t
  let n := if s.mode = .drain then u.drainRuns + 1 else 0
  let idle := s.rb (adSluStatus t) 3 || !s.bankValid t b
  let grants := if n = 0 then !idle else Nat.ble n (s.rf 0x22 7 0)
  let u := { u with
    drainRuns := n,
    drainEnd := if grants then max u.drainEnd (runEnds s.now (s.rf (adTree t 0x1002) 19 0) (s.eqdOff t)) else u.drainEnd }
  if idle then s.setTree t { u with run := none }
  else
    let snap : Snap :=
      { regs := s.start.regs, indexed := s.start.tbl.indexed, allocs := s.start.allocs, buckets := s.bucketsAtStart,
        mode := s.start.mode, lanes := s.lanesUp t, nt := s.ntNs, drainRun := n }
    let r : Run :=
      { bound := s.now, sfc := s.sfc t, snap := snap, bank := b, pc := 0, steps := 0, lane := 0, l0 := RunLane.fresh,
        l1 := RunLane.fresh, loops := [], prog := 0, lastL := 0, tagNext := none }
    s.setTree t { u with run := some r }

/-! ### What a boundary of tree `t` brings -/

/-- A command in execution that is a SET_TX for the frame that begins on tree `t` switches (R438). -/
def State.txSwitchOf (t : Nat) (s : State) (x : Nat × Exec) : State :=
  match x.2.wait with
  | .setTx n tr f => if tr = t ∧ f = s.sfc t % 2 ^ 48 then s.switchTx x.1 n else s
  | _ => s

/-- SET_TX commands whose target frame begins now (R438). -/
def State.txBoundary (s : State) (t : Nat) : State :=
  s.execs.foldl (State.txSwitchOf t) s

/-- The tree has been asked to stop, by ENABLE or by a complete drain (R146, R178). -/
def State.stopDue (s : State) (t : Nat) : Bool :=
  s.treeUp t && ((s.tree t).stopping ||
    (match s.drain with
      | some d => (match d.done with
        | some x => Nat.blt x s.now
        | none => false)
      | none => false))

/-- The tree stops at its stopping boundary. One whose ENABLE has been set again before it stops there all the same, and
comes back as R179 says, counted from that setting (DEDUCED). -/
def State.stopBoundary (s : State) (t : Nat) : State :=
  if s.stopDue t then
    let since := (s.tree t).since
    let pay := s.sfcPayload t
    let s := (s.endLineFrame t 0 (s.sfc t)).endLineFrame t 1 (s.sfc t)
    let s := s.changeTree t (fun u => { u with stopping := false, drained := s.drain.any (fun d => d.done.isSome) })
    let s := if s.treeUp t then
        let s := (s.treeStops t).treeStarts t
        s.setTree t { s.tree t with since := some (since.getD s.now) }
      else s
    s.sendReleased t pay
  else s

/-- The tree sends from this boundary where it came into service 20,000 ticks ago or earlier (R138, R179). -/
def State.firstBoundary (s : State) (t : Nat) : State :=
  let u := s.tree t
  match u.since with
  | some n => if Nat.ble (n + 20000) s.now && s.treeUp t then s.setTree t { u with sending := true, since := none } else s
  | none => s

/-- Lane `l` comes back into service at this boundary (R159). -/
def State.laneBoundary (s : State) (t l : Nat) : State :=
  let v := s.lane t l
  match v.returnAt with
  | some n =>
    if Nat.ble (n + 20000) s.now && s.laneUsable t l then
      (s.setLane t l { v with returnAt := none }).emitPtxdis t l
    else s
  | none => s

/-- A frame boundary of tree `t` falls in this tick: swaps and switches take effect, the tree and its lanes stop or
start, and a tree that sends begins its frame and its run (R136, R180). -/
def State.boundary (s : State) (t : Nat) : State :=
  let s := ((s.bankBoundary t).stopBoundary t).txBoundary t
  let s := ((s.firstBoundary t).laneBoundary t 0).laneBoundary t 1
  let s := s.setTree t { s.tree t with lastBoundary := some s.now }
  if s.treeUp t && (s.tree t).sending then (s.sendFrames t).startRun t else s

end Sys2Proof.Machine
end

