-- ==== Sys2Proof/Machine/HeldOps.lean ====
section
/-! DEFINITION. What the device holds: egress queues, cells inside Confluence, and the discard of all of it (R146, R147). -/

namespace Sys2Proof.Machine

/-- Egress queue `q`, 8 m + c. -/
def State.egq (s : State) (q : Nat) : List EgEntry := smGet (fun _ => []) s.dsq.egress q

/-- Store egress queue `q`. -/
def State.setEgq (s : State) (q : Nat) (l : List EgEntry) : State :=
  { s with dsq := { s.dsq with egress := smSet (fun _ => []) s.dsq.egress q l } }

/-- An entry taken out of an egress queue is given up: its trace ends as dropped, and its buffer loses a reference. -/
def State.dropEg (s : State) (e : EgEntry) : State :=
  (s.traceEnds ((s.pkt e.pkt).bind (·.trace)) true false false).unref e.pkt

/-- Discard every packet of egress queue `q`. -/
def State.discardEgq (s : State) (q : Nat) : State := (s.egq q).foldl State.dropEg (s.setEgq q [])

/-- Egress queues that hold packets. -/
def State.egBusy (s : State) : List Nat := s.dsq.egress.map (·.1)

/-- Cells inside Confluence. -/
def State.cflCells (s : State) : List FCell :=
  s.cfl.inputs.flatMap (·.2) ++ s.cfl.middles.flatMap (·.2) ++ s.cfl.reseq.flatMap (fun x => x.2.map (·.1))

/-- Packets that have not been enqueued everywhere, or whose cells are still inside Confluence. -/
def State.corePkts (s : State) : List Nat :=
  let inside := (s.cflCells.map (·.pkt)).eraseDups
  s.cat.pkts.filterMap (fun (x : Nat × Option Packet) =>
    match x.2 with
    | some p => if !p.dests.isEmpty || inside.contains x.1 then some x.1 else none
    | none => none)

/-- A lookup pipe, the Oxbow or Confluence holds a packet (CORE_PENDING). -/
def State.coreBusy (s : State) : Bool :=
  !s.cls.arrivals.isEmpty || !s.cls.deciding.isEmpty || !s.cls.oxbow.isEmpty || !s.cls.floods.isEmpty ||
    !s.cls.requests.isEmpty || !s.corePkts.isEmpty

/-- A packet gives up every destination that it has not reached. -/
def State.dropAllDests (s : State) (i : Nat) : State :=
  match s.pkt i with
  | some p => p.dests.foldl (fun s d => s.dropDest i d) (s.traceEnds p.trace true false false)
  | none => s

/-- Confluence without cells; its sequences go on where the outputs stand. -/
def Confluence.emptied (c : Confluence) : Confluence :=
  { c with inputs := [], middles := [], reseq := [], seqOut := c.seqIn }

/-- Packets held in downstream queues, egress queues, pipes, the Oxbow and Confluence. -/
def State.heldCount (s : State) : Nat :=
  let inDsq := s.dqBusy.flatMap (fun h => (s.dq h).entries.map (·.pkt))
  let inEg := s.egBusy.flatMap (fun q => (s.egq q).map (·.pkt))
  (inDsq ++ inEg ++ s.corePkts).eraseDups.length + s.cls.arrivals.length + s.cls.deciding.length + s.cls.oxbow.length +
    s.cls.floods.length + s.cls.requests.length

/-- Discard all of it. -/
def State.discardHeld (s : State) : State :=
  let core := s.corePkts
  let s := s.dqBusy.foldl (fun s h => s.emptyQueue .none h) s
  let s := s.egBusy.foldl State.discardEgq s
  let s := core.foldl State.dropAllDests s
  { s with cls := { s.cls with arrivals := [], deciding := [], oxbow := [], floods := [], requests := [] }, cfl := s.cfl.emptied }

/-! ### Drain status (word 0x0023) -/

/-- A granted burst has not left the receiver of lane `l`: its search is open, or one of its elements has not left the decoder. -/
def State.burstHeld (s : State) (t l : Nat) (e : Expect) : Bool :=
  e.kind == 0 && ((e.state == 0 && decide (((s.now * tickPos : Nat) : Int) ≤ (s.window t l e).2)) ||
    (e.state == 1 && Nat.blt e.next (s.elements t e).length))

/-- The receiver of lane `l` holds a burst, or something that came in with one. -/
def State.laneReceives (s : State) (t l : Nat) : Bool :=
  let v := s.lane t l
  v.expects.any (s.burstHeld t l) || !v.reports.isEmpty || !v.ploamIn.isEmpty || !v.released.isEmpty

/-- The upstream frame of the last granting run of tree `t` has not ended, or a burst of it has not left the receivers (R146). -/
def State.upPendingOf (s : State) (t : Nat) : Bool :=
  let u := s.tree t
  s.treeUp t && (Nat.blt u.drainRuns (s.rf 0x22 7 0) || Nat.blt s.now u.drainEnd || s.laneReceives t 0 || s.laneReceives t 1)

/-- UP_PENDING (R146): it reads 1 from the end of the tick in which DRAIN took effect. -/
def State.upPending (s : State) (d : Drain) (trees : List Nat) : Bool :=
  d.done.isNone && (Nat.ble s.now (d.since + 1) || trees.any s.upPendingOf)

/-- Some lane of tree `t` holds an outgoing message. -/
def State.msgPendingOf (s : State) (t : Nat) : Bool := !(s.lane t 0).msgs.isEmpty || !(s.lane t 1).msgs.isEmpty

/-- The trees. -/
def allTrees : List Nat := List.range 128

/-- Word 0x0023: 0 outside DRAIN (Table 4.3, R134). -/
def State.drainWord (s : State) : Word :=
  match (if s.mode = .drain then s.drain else none) with
  | none => 0
  | some d =>
    mkWord [(5, b2n (d.done.isSome && allTrees.any s.treeUp)), (4, b2n (allTrees.any s.msgPendingOf)),
      (3, b2n (!s.egBusy.isEmpty)), (2, b2n s.coreBusy), (1, b2n (!s.dqBusy.isEmpty)), (0, b2n (s.upPending d allTrees))]

end Sys2Proof.Machine
end

