-- ==== Sys2Proof/Machine/Parse.lean ====
section
/-! DEFINITION. The parser: the window, the headers of Table 10.1, the rule key, the hash fields and the changes that
packets undergo (R338 to R341, R356, R357, R359, R391). Offsets count from the destination MAC address. -/

namespace Sys2Proof.Machine

/-- `n` octets at offset `off` as a number, most significant first. -/
def num (n off : Nat) (bs : List Byte) : Nat := beNat ((bs.drop off).take n)

/-- What the parser reads of a packet. Offsets are 0 where the header is absent. -/
structure Parsed where
  fail : Bool
  trunc : Bool
  frag : Bool
  exth : Bool
  tunnel : Bool
  ptp : Bool
  l3 : Nat
  l4 : Nat
  ntags : Nat
  nlabels : Nat
  /-- TCI of the first and second tag. -/
  tci1 : Nat
  tci2 : Nat
  /-- The IPv4 type of service or the IPv6 traffic class. -/
  tos : Nat
  proto : Nat
  sport : Nat
  dport : Nat
  flags : Nat
  dst : Nat
  src : Nat
  label : Nat
  etype : Nat
  /-- Where the EtherType after the last tag stands. -/
  etOff : Nat
  pppoe : Bool
  l3Off : Nat
  l4Off : Nat
  /-- The end of a GRE header. -/
  greEnd : Nat
  /-- The PTP header. -/
  ptpOff : Nat
deriving DecidableEq, Repr

/-- Nothing read yet. -/
def Parsed.empty : Parsed :=
  { fail := false, trunc := false, frag := false, exth := false, tunnel := false, ptp := false, l3 := 0, l4 := 0,
    ntags := 0, nlabels := 0, tci1 := 0, tci2 := 0, tos := 0, proto := 0, sport := 0, dport := 0, flags := 0, dst := 0,
    src := 0, label := 0, etype := 0, etOff := 0, pppoe := false, l3Off := 0, l4Off := 0, greEnd := 0, ptpOff := 0 }

/-- A packet before the parser: its octets, the end of the window, the end of the packet without its FCS, the extra
TPID where the source knows one, and the UDP port of VXLAN. -/
structure Window where
  bs : List Byte
  win : Nat
  fin : Nat
  tpid : Option Nat
  vxlan : Nat

/-- Go on with `k` where the header of `n` octets at `off` lies wholly inside the window; else parsing stops, with
TRUNC where the packet continues beyond the window, and as a failure where the packet ends inside the header
(R338, R340). -/
def Window.need (w : Window) (p : Parsed) (off n : Nat) (k : Parsed → Parsed) : Parsed :=
  if off + n ≤ min w.win w.fin then k p
  else if w.win < w.fin ∧ w.win < off + n then { p with trunc := true }
  else { p with fail := true }

/-- The TPIDs of a tag. -/
def Window.isTpid (w : Window) (ty : Nat) : Bool := ty == 0x8100 || ty == 0x88A8 || w.tpid == some ty

/-- A PTP header at `off` (messageType 0 to 3 is an event message). -/
def Window.ptp (w : Window) (p : Parsed) (off : Nat) : Parsed :=
  w.need p off 34 (fun p => if num 1 off w.bs % 16 ≤ 3 then { p with ptp := true, ptpOff := off } else p)

/-- The layer 4 header at `off`. -/
def Window.layer4 (w : Window) (p : Parsed) (off : Nat) : Parsed :=
  let two (n : Nat) : Nat := num 2 (off + n) w.bs
  if p.proto = 17 then
    w.need p off 8 (fun p =>
      let p := { p with l4 := 1, l4Off := off, sport := two 0, dport := two 2 }
      if p.dport = w.vxlan then w.need { p with tunnel := true } (off + 8) 8 (fun p => p)
      else if p.dport = 319 then w.ptp p (off + 8)
      else p)
  else if p.proto = 6 then
    w.need p off 20 (fun p =>
      let d := num 1 (off + 12) w.bs / 16
      if d < 5 then { p with fail := true }
      else
        w.need p off (4 * d) (fun p =>
          { p with l4 := 2, l4Off := off, sport := two 0, dport := two 2, flags := num 1 (off + 13) w.bs }))
  else if p.proto = 1 ∨ p.proto = 58 then w.need p off 4 (fun p => { p with l4 := 3, l4Off := off, sport := two 0 })
  else if p.proto = 47 then
    w.need p off 4 (fun p =>
      let f := num 1 off w.bs
      let n := 4 + 4 * b2n (f.testBit 7) + 4 * b2n (f.testBit 5) + 4 * b2n (f.testBit 4)
      w.need p off n (fun p =>
        { p with l4 := 4, l4Off := off, tunnel := true, dport := two 2, greEnd := off + n }))
  else { p with l4 := 5, l4Off := off }

/-- An IPv4 header at `off`. -/
def Window.ipv4 (w : Window) (p : Parsed) (off : Nat) : Parsed :=
  w.need p off 20 (fun p =>
    let ihl := num 1 off w.bs % 16
    let total := num 2 (off + 2) w.bs
    let fr := num 2 (off + 6) w.bs
    if num 1 off w.bs / 16 ≠ 4 ∨ ihl < 5 ∨ total < 4 * ihl ∨ w.fin < off + total then { p with fail := true }
    else
      w.need p off (4 * ihl) (fun p =>
        let p := { p with
          l3 := 1, l3Off := off, tos := num 1 (off + 1) w.bs, proto := num 1 (off + 9) w.bs,
          src := num 4 (off + 12) w.bs, dst := num 4 (off + 16) w.bs, exth := p.exth || Nat.blt 5 ihl,
          frag := fr.testBit 13 || fr % 2 ^ 13 != 0 }
        if fr % 2 ^ 13 = 0 then w.layer4 p (off + 4 * ihl) else p))

/-- The extension headers of IPv6 from `off` on, of which `k` more may be skipped. -/
def Window.ipv6Ext (w : Window) : Nat → Parsed → Nat → Parsed
  | k, p, off =>
    if p.proto = 0 ∨ p.proto = 43 ∨ p.proto = 44 ∨ p.proto = 60 then
      match k with
      | 0 => { p with l4 := 5 }
      | k + 1 =>
        w.need p off 8 (fun p =>
          let n := if p.proto = 44 then 8 else 8 * (num 1 (off + 1) w.bs + 1)
          w.need p off n (fun p =>
            let later := p.proto == 44 && num 2 (off + 2) w.bs / 8 != 0
            let p := { p with exth := true, frag := p.frag || p.proto == 44, proto := num 1 off w.bs }
            if later then p else ipv6Ext w k p (off + n)))
    else w.layer4 p off

/-- An IPv6 header at `off`. -/
def Window.ipv6 (w : Window) (p : Parsed) (off : Nat) : Parsed :=
  w.need p off 40 (fun p =>
    if num 1 off w.bs / 16 ≠ 6 ∨ w.fin < off + 40 + num 2 (off + 4) w.bs then { p with fail := true }
    else
      let p := { p with
        l3 := 2, l3Off := off, tos := num 2 off w.bs / 16 % 256, proto := num 1 (off + 6) w.bs,
        src := num 16 (off + 8) w.bs, dst := num 16 (off + 24) w.bs }
      w.ipv6Ext 2 p (off + 40))

/-- MPLS labels at `off`, of which `k` more may follow. -/
def Window.labels (w : Window) : Nat → Parsed → Nat → Parsed
  | 0, p, _ => { p with fail := true }
  | k + 1, p, off =>
    w.need p off 4 (fun p =>
      let v := num 4 off w.bs
      let p := { p with l3 := 3, nlabels := p.nlabels + 1, label := if p.nlabels = 0 then v else p.label }
      if !v.testBit 8 then labels w k p (off + 4)
      else if off + 4 < min w.win w.fin then
        let nib := num 1 (off + 4) w.bs / 16
        if nib = 4 then w.ipv4 p (off + 4) else if nib = 6 then w.ipv6 p (off + 4) else p
      else if w.win < w.fin then { p with trunc := true }
      else p)

/-- What follows the EtherType at `off`. -/
def Window.ether (w : Window) (p : Parsed) (ty off : Nat) : Parsed :=
  let p := { p with etype := ty, etOff := off }
  if ty = 0x8847 ∨ ty = 0x8848 then w.labels 6 p (off + 2)
  else if ty = 0x8864 then
    w.need p (off + 2) 8 (fun p =>
      let ppp := num 2 (off + 8) w.bs
      if ppp = 0x0021 then w.ipv4 { p with pppoe := true } (off + 10)
      else if ppp = 0x0057 then w.ipv6 { p with pppoe := true } (off + 10)
      else p)
  else if ty = 0x0800 then w.ipv4 p (off + 2)
  else if ty = 0x86DD then w.ipv6 p (off + 2)
  else if ty = 0x88F7 then w.ptp p (off + 2)
  else p

/-- Tags from the type field at `off` on, of which fewer than `k` may follow. -/
def Window.tags (w : Window) : Nat → Parsed → Nat → Parsed
  | 0, p, _ => { p with fail := true }
  | k + 1, p, off =>
    let ty := num 2 off w.bs
    if w.isTpid ty then
      match k with
      | 0 => { p with fail := true }
      | _ =>
        w.need p (off + 2) 4 (fun p =>
          let v := num 2 (off + 2) w.bs
          let p := { p with
            ntags := p.ntags + 1, tci1 := if p.ntags = 0 then v else p.tci1,
            tci2 := if p.ntags = 1 then v else p.tci2 }
          tags w k p (off + 4))
    else w.ether p ty off

/-- Parse a packet. -/
def Window.parse (w : Window) : Parsed := w.need Parsed.empty 0 14 (fun p => w.tags 5 p 12)

/-! ### The rule key (Table 10.2) -/

/-- SRCKIND and SRC of a source index (R337). -/
def srcKind (s : Nat) : Nat := if s < 256 then 0 else if s < 512 then 1 else 2
def srcNum (s : Nat) : Nat := if s < 256 then s else if s < 512 then (s - 256) / 2 else 0

/-- ADDR32: destination or source by KEYSEL. -/
def Parsed.addr32 (p : Parsed) (bySrc : Bool) : Nat :=
  let a := if bySrc then p.src else p.dst
  if p.l3 = 1 then a else if p.l3 = 2 then a / 2 ^ 96 else if p.l3 = 3 then p.label else 0

/-- The four key words of a packet of source `s`. -/
def Parsed.key (p : Parsed) (bs : List Byte) (s xgem : Nat) (second bySrc : Bool) : List Word :=
  let da := num 6 0 bs
  let bc := da == 2 ^ 48 - 1
  [mkWord [(46, srcKind s), (38, srcNum s), (37, if srcKind s = 1 then s % 2 else 0), (36, b2n second),
      (35, b2n p.trunc), (34, b2n p.frag), (33, b2n p.exth), (32, b2n (da.testBit 40 && !bc)), (31, b2n bc),
      (30, b2n p.tunnel), (29, b2n p.ptp), (24, p.l3), (20, p.l4), (0, if srcKind s = 1 then xgem else 0)],
    mkWord [(36, p.tci1 % 4096), (33, p.tci1 / 8192), (32, p.tci1 / 4096 % 2), (20, p.tci2 % 4096), (17, p.tci2 / 8192),
      (16, p.tci2 / 4096 % 2), (13, p.ntags), (10, p.nlabels), (4, p.tos / 4), (2, p.tos % 4)],
    mkWord [(40, p.proto), (24, p.sport), (8, p.dport), (0, p.flags)],
    mkWord [(16, p.addr32 bySrc), (0, p.etype)]]

/-! ### Hashes (R356, R357) -/

/-- A field of `w` bits as octets; the spec does not say how a field that is no whole number of octets enters the
CRC. -/
def fieldOctets (w v : Nat) : List Nat := if w % 8 = 0 then (octetsBE (w / 8) v).map (·.toNat) else Config.hashOctets w v

/-- A pair of fields, in ascending order under SYM. -/
def symPair (sym : Bool) (w a b : Nat) : List Nat :=
  if sym && Nat.blt b a then fieldOctets w b ++ fieldOctets w a else fieldOctets w a ++ fieldOctets w b

/-- The hash of an indirection table whose control word is `c`, with the seed (R356). -/
def Parsed.tableHash (p : Parsed) (bs : List Byte) (s xgem seed : Nat) (c : Word) : Nat :=
  let sym := bitOf c 46
  let f (i : Nat) : Bool := bitOf c (38 + i)
  let ip (a : Nat) : Nat := if p.l3 = 1 ∨ p.l3 = 2 then a else 0
  let part (on : Bool) (l : List Nat) : List Nat := if on then l else []
  hash32c seed (
    part (f 0 && !sym) (fieldOctets 2 (srcKind s) ++ fieldOctets 8 (srcNum s)) ++
    part (f 1) (symPair sym 48 (num 6 0 bs) (num 6 6 bs)) ++
    part (f 2) (fieldOctets 12 (p.tci1 % 4096) ++ fieldOctets 12 (p.tci2 % 4096)) ++
    part (f 3) (fieldOctets 16 p.etype) ++
    part (f 4) (symPair sym 128 (ip p.dst) (ip p.src)) ++
    part (f 5) (fieldOctets 8 p.proto) ++
    part (f 6) (symPair sym 16 p.dport p.sport) ++
    part (f 7 && !sym) (fieldOctets 16 (if srcKind s = 1 then xgem else 0)))

/-- PIN_HASH of a key. -/
def pinHash (key : List Word) : Nat := hash32c 0 ((wordsOctets key).map (·.toNat)) % 2 ^ 16

/-! ### Changes to a packet -/

/-- The octets with `n` of them at `off` replaced. -/
def splice (bs : List Byte) (off n : Nat) (by_ : List Byte) : List Byte := bs.take off ++ by_ ++ bs.drop (off + n)

/-- The Oxbow operations (Table 10.10); none where the packet cannot be acted on. -/
def oxop (op : Nat) (p : Parsed) (bs : List Byte) : Option (List Byte) :=
  if op = 0 then some bs
  else if op = 1 then
    if !p.tunnel then none
    else if p.l4 = 1 then some (bs.drop (p.l4Off + 16))
    else if p.dport = 0x6558 then some (bs.drop p.greEnd)
    else
      let cut := splice bs p.l3Off (p.greEnd - p.l3Off) []
      some (splice cut p.etOff 2 (octetsBE 2 p.dport))
  else if op = 2 then some (if p.ntags = 0 then bs else splice bs 12 4 [])
  else
    let ppp := num 2 (p.etOff + 8) bs
    if p.pppoe ∧ (ppp = 0x0021 ∨ ppp = 0x0057) then
      let cut := splice bs (p.etOff + 2) 8 []
      some (splice cut p.etOff 2 (octetsBE 2 (if ppp = 0x0021 then 0x0800 else 0x86DD)))
    else none

/-- The one's complement sum of 16-bit numbers. -/
def fold16 (n : Nat) : Nat :=
  let a := n % 65536 + n / 65536
  a % 65536 + a / 65536

/-- The time to live or hop limit of an IP packet, and its reduction by one with the checksum updated (RFC 1624). -/
def Parsed.ttl (p : Parsed) (bs : List Byte) : Nat := num 1 (p.l3Off + (if p.l3 = 1 then 8 else 7)) bs

def Parsed.decTtl (p : Parsed) (bs : List Byte) : List Byte :=
  let t := p.ttl bs
  if p.l3 = 1 then
    let old := num 2 (p.l3Off + 8) bs
    let sum := num 2 (p.l3Off + 10) bs
    let bs := splice bs (p.l3Off + 8) 1 (octetsBE 1 (t - 1))
    let new := 65535 - fold16 ((65535 - sum) + (65535 - old) + (old - 256))
    splice bs (p.l3Off + 10) 2 (octetsBE 2 new)
  else splice bs (p.l3Off + 7) 1 (octetsBE 1 (t - 1))

/-- The first tag's VID becomes `vid`; a packet without tags gets an 802.1Q tag. -/
def Parsed.setVid (p : Parsed) (vid : Nat) (bs : List Byte) : List Byte :=
  if p.ntags = 0 then splice bs 12 0 (octetsBE 4 (0x8100 * 65536 + vid))
  else splice bs 14 2 (octetsBE 2 (p.tci1 / 4096 * 4096 + vid))

end Sys2Proof.Machine
end

