-- ==== Sys2Proof/Machine/TableOps.lean ====
section
/-! DEFINITION. The keyed tables: slots, hashing, insertion by relocation, walks, longest-prefix match, and the counts
that go with entries (R365 to R378, R386, R389, R390); the generational tables (R362, R363). -/

namespace Sys2Proof.Machine

/-! ### Geometry (Tables 11.1 and 11.2) -/

/-- Slots of the short region, rows of a way, and slots of keyed table `t`. -/
def tblShort (t : Nat) : Nat := if t = 2 then 32768 else if t = 3 then 16384 else 0
def tblRows (t : Nat) : Nat := if t = 1 then 1048576 else if t = 2 then 516096 else if t = 3 then 126976 else 262144
def tblSlots (t : Nat) : Nat := tblShort t + 4 * tblRows t

/-- Where a slot of a keyed table is held. -/
def kdKey (t slot : Nat) : Nat := t * 2 ^ 24 + slot

/-- The key words of an entry. -/
def entryKey (t : Nat) (ws : List Word) : List Word := ws.take (keyWords t)

/-- The VALID bit of an entry: bit 47 of its last word. -/
def entryValid (t : Nat) (ws : List Word) : Bool := bitOf (nth ws (entryWords t - 1) 0) 47

/-- LEN of a route entry. -/
def routeLen (t : Nat) (ws : List Word) : Nat :=
  if t = 2 then fld (nth ws 0 0) 15 10 else if t = 3 then fld (nth ws 2 0) 15 8 else 0

/-- The prefix of a route entry. -/
def routePrefix (t : Nat) (ws : List Word) : Nat :=
  if t = 2 then fld (nth ws 0 0) 47 16
  else (nth ws 0 0).toNat * 2 ^ 80 + (nth ws 1 0).toNat * 2 ^ 32 + fld (nth ws 2 0) 47 16

/-- Address bits of a route table. -/
def routeBits (t : Nat) : Nat := if t = 2 then 32 else 128

/-- The entry lives in the short region. -/
def isShort (t : Nat) (ws : List Word) : Bool :=
  (t == 2 && Nat.ble (routeLen t ws) 16) || (t == 3 && Nat.ble (routeLen t ws) 32)

/-- The hash key octets of an entry. -/
def hashOctetsOf (t : Nat) (ws : List Word) : List Nat :=
  let l (n v : Nat) : List Nat := (octetsBE n v).map (·.toNat)
  if t = 1 then l 8 (fld (nth ws 1 0) 47 34 * 2 ^ 50 + (nth ws 0 0).toNat)
  else if t = 2 then routeLen t ws :: l 4 (routePrefix t ws)
  else if t = 3 then routeLen t ws :: l 16 (routePrefix t ws)
  else l 6 (nth ws 0 0).toNat

/-- The initial value of way `w` (R366). -/
def wayInit (w : Nat) : Nat :=
  if w = 0 then 0 else if w = 1 then 0x5BD1E995 else if w = 2 then 0x9E3779B9 else 0xC2B2AE35

/-- The slot of an entry in way `w`. -/
def hashSlot (t w : Nat) (ws : List Word) : Nat :=
  tblShort t + w * tblRows t + hash32c (wayInit w) (hashOctetsOf t ws) % tblRows t

/-- The way of a hashed slot. -/
def wayOf (t slot : Nat) : Nat := (slot - tblShort t) / tblRows t

/-! ### Slots -/

/-- A slot with an uncorrectable word. -/
def State.slotBad (s : State) (t slot : Nat) : Bool :=
  smGet (fun _ => 0) s.tbl.bad (kdKey t slot) != 0

/-- The words of a slot as stored; none where it is empty. -/
def State.slotRaw (s : State) (t slot : Nat) : List Word := smGet (fun _ => []) s.tbl.keyed (kdKey t slot)

/-- The valid entry of a slot, as lookups, walks, searches and scans read it (R378). -/
def State.slotEntry (s : State) (t slot : Nat) : Option (List Word) :=
  let ws := s.slotRaw t slot
  if entryValid t ws && !s.slotBad t slot then some ws else none

/-- Store the words of a slot; a write puts good words in place of bad ones. -/
def State.storeSlot (s : State) (t slot : Nat) (ws : List Word) : State :=
  { s with tbl := { s.tbl with
      keyed := smSet (fun _ => []) s.tbl.keyed (kdKey t slot) ws,
      bad := smSet (fun _ => 0) s.tbl.bad (kdKey t slot) 0 } }

/-- The same as a step of a table's sequencer; those of table 0x01 are noted until the end of the tick (R388). -/
def State.putSlot (s : State) (t slot : Nat) (ws : List Word) : State :=
  let s := s.storeSlot t slot ws
  if t = 1 then { s with tbl := { s.tbl with cmdSlots := slot :: s.tbl.cmdSlots } } else s

/-- A command works in table `t` in this tick. -/
def State.stepsOn (s : State) (t : Nat) : State := { s with tbl := { s.tbl with stepped := t :: s.tbl.stepped } }

/-- Clear VALID, bit 47 of the last word of an entry of `n` words. -/
def clearValid (n : Nat) (ws : List Word) : List Word := updAt ws (n - 1) (fun w => w &&& ~~~(maskOf 47 47))

/-- The valid entries of a table in ascending slots. -/
def State.keyedAll (s : State) (t : Nat) : List (Nat × List Word) :=
  s.tbl.keyed.filterMap (fun (x : Nat × List Word) =>
    if x.1 / 2 ^ 24 = t then
      let slot := x.1 % 2 ^ 24
      if entryValid t x.2 && !s.slotBad t slot then some (slot, x.2) else none
    else none)

/-- The lowest slot that holds a key, with its entry. -/
def State.findEntry (s : State) (t : Nat) (key : List Word) : Option (Nat × List Word) :=
  (s.keyedAll t).find? (fun x => entryKey t x.2 == key)

/-- Every valid copy of a key becomes what `f` makes of it (R372). -/
def State.eachCopy (s : State) (t : Nat) (key : List Word) (f : List Word → List Word) : State :=
  ((s.keyedAll t).filter (fun x => entryKey t x.2 == key)).foldl (fun s x => s.putSlot t x.1 (f x.2)) s

/-- The entry of a key as commands of this tick find it: as it stood at the start of the tick (R21), but for slots that an
uncorrectable error has struck (R378). -/
def State.foundEntry (s : State) (t : Nat) (key : List Word) : Option (Nat × List Word) :=
  (s.atStart.keyedAll t).find? (fun x => entryKey t x.2 == key && !s.slotBad t x.1)

/-- Change COUNT of a table by what `f` does to it. -/
def State.countEntries (s : State) (t : Nat) (f : Nat → Nat) : State :=
  s.setRf (0x1800020 + t - 1) 22 0 (f (s.rf (0x1800020 + t - 1) 22 0))

/-! ### The aging scanner's place (R387) -/

/-- Slots of the MAC table. -/
def macSlots : Nat := 4194304

/-- The time between two visits, in 2^-22 ticks: PERIOD_S over the number of slots. -/
def State.ageStep (s : State) : Nat := s.rf 0x1800000 15 0 * 10 ^ 9

/-- The aging scanner runs. -/
def State.aging (s : State) : Bool := s.traffic && s.rb 0x1800000 16

/-- The slots that a visit may change, ascending. -/
def State.ageable (s : State) : List Nat :=
  ((s.keyedAll 1).filter (fun x => !bitOf (nth x.2 2 0) 46)).map (·.1)

/-- How many visits lie before the next one that can change something. -/
def State.ageGap (s : State) : Option Nat :=
  match s.ageable with
  | [] => none
  | a :: l =>
    some (match (a :: l).find? (fun x => Nat.ble s.tbl.ageSlot x) with
      | some x => x - s.tbl.ageSlot
      | none => a + macSlots - s.tbl.ageSlot)

/-- The scanner moves on over `n` slots. -/
def State.ageSkip (s : State) (n : Nat) : State :=
  { s with tbl := { s.tbl with
      ageSlot := (s.tbl.ageSlot + n) % macSlots, ageAt := s.tbl.ageAt + n * s.ageStep } }

/-- Visits whose time has come and that change nothing are past. -/
def State.ageSync (s : State) : State :=
  if !s.aging || s.ageStep == 0 || Nat.blt (s.now * 2 ^ 22) s.tbl.ageAt then s
  else
    let due := (s.now * 2 ^ 22 - s.tbl.ageAt) / s.ageStep + 1
    s.ageSkip (match s.ageGap with
      | some g => min g due
      | none => due)

/-- Word `w` of bridge port `n`, of next hop `n`. -/
def adBport (n w : Nat) : Nat := 0x1840000 + 4 * n + w
def adNh (n w : Nat) : Nat := 0x1880000 + 4 * n + w

/-- LEARNED of a bridge port goes up or down by one. -/
def State.learnedUp (s : State) (p : Nat) : State := s.setRf (adBport p 2) 22 0 (s.rf (adBport p 2) 22 0 + 1)
def State.learnedDown (s : State) (p : Nat) : State := s.setRf (adBport p 2) 22 0 (s.rf (adBport p 2) 22 0 - 1)

/-- STATIC, and the bridge port, of a MAC entry. -/
def macStatic (ws : List Word) : Bool := bitOf (nth ws 2 0) 46
def macPort (ws : List Word) : Nat := fld (nth ws 2 0) 15 0

/-- An entry counts in LEARNED of its port. -/
def macLearned (t : Nat) (ws : List Word) : Bool := t == 1 && !macStatic ws

/-- Write a new entry to a free slot, with its counts. -/
def State.addEntry (s : State) (t slot : Nat) (ws : List Word) : State :=
  ((if t = 1 then s.ageSync else s).putSlot t slot ws).countEntries t (· + 1)

/-- Remove the entry of a slot, with its counts where it was the last copy of its key (R372). A slot of a short region stays in
its zone (R373): it keeps the words, no longer valid. -/
def State.removeSlot (s : State) (t slot : Nat) : State :=
  match s.slotEntry t slot with
  | none => s
  | some ws =>
    let s := s.putSlot t slot (if slot < tblShort t then clearValid (entryWords t) ws else [])
    if (s.findEntry t (entryKey t ws)).isSome then s
    else
      let s := s.countEntries t (· - 1)
      if macLearned t ws then s.learnedDown (macPort ws) else s

/-- Single-bit errors of `n` words of the keyed tables are corrected on read (R378, R543). -/
def State.wordsFixed (s : State) (n : Nat) : State := (s.bump (0x300 + 2 * 17) n).bump 0x1800018 n

/-- The same where no row tells how many: a free value (entry 142). -/
def State.someFixed (s : State) : State := (s.wordsFixed (Config.fixedWords s.free)).drew

/-! ### Walk records (R374) -/

/-- What the walks of table `t` record when an entry moves from slot `a` to slot `b`. -/
def Walk.moved (w : Walk) (t a b : Nat) (key : List Word) : Walk :=
  if w.table ≠ t then w
  else if w.slot ≤ a ∧ b < w.slot then { w with late := w.late ++ [key] }
  else if a < w.slot ∧ w.slot ≤ b then { w with dup := w.dup ++ [key] }
  else w

/-- A walk's records have room for the move. -/
def Walk.roomFor (w : Walk) (t a b : Nat) : Bool :=
  w.table != t || (!(Nat.ble w.slot a && Nat.blt b w.slot) || Nat.blt w.late.length 4096) &&
    (!(Nat.blt a w.slot && Nat.ble w.slot b) || Nat.blt w.dup.length 4096)

/-- Slot `b` is usable for a move from slot `a`. -/
def State.slotUsable (s : State) (t a b : Nat) : Bool := s.cmd.walks.all (fun x => x.2.roomFor t a b)

/-- What the walks record of the relocations whose first tick was this one, which take effect at its end, behind what the walks
examine in it (R374). -/
def State.walksMoved (s : State) : State :=
  let m := s.tbl.moved.reverse
  { s with
    tbl := { s.tbl with moved := [] },
    cmd := { s.cmd with walks := s.cmd.walks.map (fun x =>
      (x.1, m.foldl (fun w y => w.moved y.1 y.2.1 y.2.2.1 y.2.2.2) x.2)) } }

/-! ### The search for room in a hashed region (R370) -/

/-- The lowest-way free alternate slot of the occupant of slot `x` that is usable. -/
def State.freeAlt (s : State) (t x : Nat) (ws : List Word) : Option Nat :=
  ((List.range 4).map (fun w => hashSlot t w ws)).find? (fun b =>
    b != x && (s.slotEntry t b).isNone && s.slotUsable t x b)

/-- The four candidate slots of an entry, by way. -/
def candidates (t : Nat) (ws : List Word) : List Nat := (List.range 4).map (fun w => hashSlot t w ws)

/-- The relocations along a path, its last slot first, in the order in which they are made: from its end to its first
slot. -/
def State.pathMoves (s : State) (t : Nat) : List Nat → List Move
  | b :: a :: l => { from_ := a, to_ := b, key := entryKey t ((s.slotEntry t a).getD []) } :: pathMoves s t (a :: l)
  | _ => []

/-! ### Insertion into a short region (R373) -/

/-- The slots of the zones of the short region of table `t`, with their lengths, ascending: those that hold entries and those
that a deletion has left free (R373). -/
def State.shortUsed (s : State) (t : Nat) : List (Nat × Nat) :=
  s.tbl.keyed.filterMap (fun (x : Nat × List Word) =>
    if x.1 / 2 ^ 24 = t ∧ x.1 % 2 ^ 24 < tblShort t then some (x.1 % 2 ^ 24, routeLen t x.2) else none)

/-- The lowest free slot from `a` to below `b`. -/
def State.freeBetween (s : State) (t a b : Nat) : Option Nat :=
  ((List.range (b - a)).map (a + ·)).find? (fun x => (s.slotEntry t x).isNone)

/-- The moves that free slot `p`: the first entry of each zone from there on goes to the slot after its own last, from
the shortest zone upwards. -/
def State.shiftDown (s : State) (t : Nat) : Nat → Nat → Option (List (Nat × Nat))
  | 0, _ => none
  | k + 1, p =>
    if tblShort t ≤ p then none
    else
      match s.slotEntry t p with
      | none => some []
      | some ws =>
        let zone := (s.shortUsed t).filter (fun x => x.2 == routeLen t ws)
        let last := (zone.map (·.1)).foldl max p
        match shiftDown s t k (last + 1) with
        | some l => some (l ++ [(p, last + 1)])
        | none => (s.freeBetween t p last).map (fun h => [(p, h)])

/-- The same towards lower slots, each zone moving its last entry to the slot before its own first. -/
def State.shiftUp (s : State) (t : Nat) : Nat → Nat → Option (List (Nat × Nat))
  | 0, _ => none
  | k + 1, p =>
    match s.slotEntry t p with
    | none => some []
    | some ws =>
      let zone := (s.shortUsed t).filter (fun x => x.2 == routeLen t ws)
      let first := (zone.map (·.1)).foldl min p
      match (if first = 0 then none else shiftUp s t k (first - 1)) with
      | some l => some (l ++ [(p, first - 1)])
      | none => (s.freeBetween t first p).map (fun h => [(p, h)])

/-- A slot of the short region for a route of length `len`, and the relocations that make it free. -/
def State.makeShort (s : State) (t len : Nat) : Option (Nat × List (Nat × Nat)) :=
  let used := s.shortUsed t
  let zone := (used.filter (fun x => x.2 == len)).map (·.1)
  let before := (used.filter (fun x => Nat.ble len x.2)).map (fun x => x.1 + 1)
  let p := before.foldl max 0
  let inside := match zone with
    | [] => none
    | a :: l => s.freeBetween t a (l.foldl max a)
  match inside with
  | some b => some (b, [])
  | none =>
    match s.shiftDown t 40 p with
    | some l => some (p, l)
    | none =>
      let after := ((used.filter (fun x => Nat.ble x.2 len)).map (·.1)).foldl min (tblShort t)
      if after = 0 then none
      else (s.shiftUp t 40 (after - 1)).map (fun l => (after - 1, l))

/-- The length filter of table 0x03 lets the entry in: at most 8 flagged lengths by address bits 127:112 (R390). -/
def State.filterOk (s : State) (t : Nat) (ws : List Word) : Bool :=
  if t = 3 ∧ !isShort t ws then
    let same := (s.keyedAll 3).filter (fun x =>
      !isShort 3 x.2 && routePrefix 3 x.2 / 2 ^ 112 == routePrefix 3 ws / 2 ^ 112)
    let lens := sortNat (same.map (fun x => routeLen 3 x.2))
    lens.contains (routeLen 3 ws) || Nat.blt lens.length 8
  else true

/-! ### The steps of an insertion (R369 to R371, R373) -/

/-- A TBL_FLUSH_PORT for bridge port `p` has been admitted and has not retired (R104). -/
def State.flushing (s : State) (p : Nat) : Bool :=
  s.cmd.queues.any (fun x => x.2.exec.any (fun e => hdrOpcode e.header == 0x0A && fld e.header 15 0 == p))

/-- A new insertion, with its first search. -/
def Insertion.fresh (t : Nat) (ws : List Word) : Insertion :=
  { table := t, words := ws, phase := .read, moves := 0, searches := 1 }

/-- A check has failed: the search begins again from the candidate slots (R371). -/
def Insertion.again (i : Insertion) : Insertion := { i with phase := .read, searches := i.searches + 1 }

/-- What one tick of an insertion comes to. -/
inductive InsOut where
  /-- It goes on in the next tick. -/
  | more (i : Insertion) (s : State)
  /-- Its slot is free now. -/
  | room (slot : Nat)
  /-- No slot can be made free. -/
  | full

/-- HIT of a relocated entry is that of either copy, and AGE the lesser (R370). -/
def mergeAge (t : Nat) (old new : List Word) : List Word :=
  if t = 1 then
    let a := nth old 2 0
    let b := nth new 2 0
    updAt new 2 (fun w => setFld (setFld w 45 45 (b2n (bitOf a 45 || bitOf b 45))) 44 43 (min (fld a 44 43) (fld b 44 43)))
  else new

/-- The first tick of relocation `m`: the entry is written to its new slot, or removed where it is an entry of a bridge
port under TBL_FLUSH_PORT (R104). Answers true where a copy has been made. -/
def State.moveCopy (s : State) (t : Nat) (m : Move) (ws : List Word) : Bool × State :=
  if t = 1 ∧ s.flushing (macPort ws) then (false, s.removeSlot t m.from_)
  else
    let s := (if t = 1 then s.ageSync else s).putSlot t m.to_ ws
    (true, ({ s with tbl := { s.tbl with moved := (t, m.from_, m.to_, m.key) :: s.tbl.moved } }).monEv 17 (t - 1) 2 1)

/-- The second tick of relocation `m`: the old slot is invalidated. -/
def State.moveClear (s : State) (t : Nat) (m : Move) (old new : List Word) : State :=
  (s.putSlot t m.to_ (mergeAge t old new)).putSlot t m.from_ []

/-- Slot `x` holds the entry of a key. -/
def State.holdsKey (s : State) (t x : Nat) (key : List Word) : Option (List Word) :=
  match s.slotEntry t x with
  | some ws => if entryKey t ws == key then some ws else none
  | none => none

/-- One tick of an insertion. `touched` tells which slots a command step has written in this tick, for an insertion of the
learn engine (R369). -/
def State.insertStep (s : State) (i : Insertion) (touched : Nat → Bool) : InsOut :=
  let t := i.table
  match i.phase with
  | .read =>
    if isShort t i.words then
      match s.makeShort t (routeLen t i.words) with
      | none => .full
      | some (slot, []) => .room slot
      | some (slot, l) =>
        .more { i with phase := .move (l.map (fun x =>
          { from_ := x.1, to_ := x.2, key := entryKey t ((s.slotEntry t x.1).getD []) })) false slot } s
    else
      let c := candidates t i.words
      match c.find? (fun b => (s.slotEntry t b).isNone) with
      | some b => if touched b then .more i.again s else .room b
      | none => .more { i with phase := .search [nth c 0 0] 64 } s
  | .search path left =>
    let x := nth path 0 0
    let first := nth (candidates t i.words) 0 0
    (match left, s.slotEntry t x with
      | 0, _ => .full
      | _, none => .more { i with phase := .move (s.pathMoves t path) false first } s
      | k + 1, some ws =>
        match s.freeAlt t x ws with
        | some f => .more { i with phase := .move (s.pathMoves t (f :: path)) false first } s
        | none =>
          let y := hashSlot t ((wayOf t x + 1) % 4) ws
          if path.contains y || !s.slotUsable t x y then .full
          else .more { i with phase := .search (y :: path) k } s)
  | .move [] _ slot => if (s.slotEntry t slot).isNone && !touched slot then .room slot else .more i.again s
  | .move (m :: l) false slot =>
    if 64 ≤ i.moves then .full
    else
      match s.holdsKey t m.from_ m.key with
      | some ws =>
        if (s.slotEntry t m.to_).isSome || !s.slotUsable t m.from_ m.to_ || touched m.from_ || touched m.to_ then
          .more i.again s
        else
          let r := s.moveCopy t m ws
          .more { i with phase := if r.1 then .move (m :: l) true slot else .move l false slot } r.2
      | none => .more i.again s
  | .move (m :: l) true slot =>
    match s.holdsKey t m.from_ m.key, s.holdsKey t m.to_ m.key with
    | some old, some new =>
      if touched m.from_ || touched m.to_ then .more i.again s
      else .more { i with phase := .move l false slot, moves := i.moves + 1 } (s.moveClear t m old new)
    | _, _ => .more i.again s

/-! ### Lookups -/

/-- The longest matching route (R389). -/
def State.route (s : State) (t addr : Nat) : Option (List Word) :=
  let hit (ws : List Word) : Bool :=
    let d := 2 ^ (routeBits t - routeLen t ws)
    routePrefix t ws / d == addr / d
  ((s.keyedAll t).filter (fun x => hit x.2)).foldl (fun best x =>
    match best with
    | some b => if routeLen t b < routeLen t x.2 then some x.2 else best
    | none => some x.2) none

/-- HIT is set in slot `slot`. -/
def State.setHit (s : State) (slot : Nat) (ws : List Word) : State :=
  s.storeSlot 1 slot [nth ws 0 0, nth ws 1 0, nth ws 2 0 ||| toWord (2 ^ 45)]

/-- The key of a MAC entry. -/
def macKey (bd mac : Nat) : List Word := [toWord mac, mkWord [(34, bd)]]

/-- The entry of a MAC address in a bridge domain. -/
def State.findMac (s : State) (bd mac : Nat) : Option (Nat × List Word) := s.findEntry 1 (macKey bd mac)

/-! ### Generations (R362, R363) -/

/-- Words of an entry of a generational table in copy `c`. -/
def State.genEntry (s : State) (c : Bool) (t idx : Nat) : List Word :=
  smGet (fun _ => []) s.tbl.gen ((b2n c * 4 + (t - 0x20)) * 2 ^ 24 + idx)

/-- Store an entry of copy `c`. -/
def State.setGen (s : State) (c : Bool) (t idx : Nat) (ws : List Word) : State :=
  { s with tbl := { s.tbl with
      gen := smSet (fun _ => []) s.tbl.gen ((b2n c * 4 + (t - 0x20)) * 2 ^ 24 + idx) ws } }

/-- The copy now active. -/
def State.activeCopy (s : State) : Bool := s.rb 0x1400408 16

/-- A retiring copy exists. -/
def State.retiring (s : State) : Bool := s.rb 0x1400408 17

/-- The copy stamped on a packet that enters a pipe now (R362). -/
def State.stampCopy (s : State) : Bool := s.activeCopy

/-- Copy `c` holds what `l` lists and nothing else. -/
def State.setCopy (s : State) (c : Bool) (l : SMap (List Word)) : State :=
  let mine (k : Nat) : Bool := k / 2 ^ 26 == b2n c
  let rest := s.tbl.gen.filter (fun x => !mine x.1)
  { s with tbl := { s.tbl with gen := if c then rest ++ l else l ++ rest } }

/-- What copy `c` holds, as the other copy would list it. -/
def State.copyFor (s : State) (c : Bool) : SMap (List Word) :=
  (s.tbl.gen.filter (fun x => x.1 / 2 ^ 26 == b2n c)).map (fun x =>
    (if c then x.1 - 2 ^ 26 else x.1 + 2 ^ 26, x.2))

/-! ### Masked rules (R348) -/

/-- The rule of entry words `ws` matches the key. -/
def ruleMatch (ws key : List Word) : Bool :=
  (List.range 4).all (fun i => nth key i 0 &&& nth ws (4 + i) 0 == nth ws i 0)

/-- The lowest-index valid rule of copy `c` that matches. -/
def State.findRule (s : State) (c : Bool) (key : List Word) : Option (Nat × List Word) :=
  (s.tbl.gen.filterMap (fun (x : Nat × List Word) =>
    if x.1 / 2 ^ 24 = b2n c * 4 && bitOf (nth x.2 10 0) 47 && ruleMatch x.2 key then some (x.1 % 2 ^ 24, x.2)
    else none)).head?

end Sys2Proof.Machine
end

