-- ==== Sys2Proof/Machine/ModeOps.lean ====
section
/-! DEFINITION. Mode changes, the drain and the fatal stop (04, R548 to R551). -/

namespace Sys2Proof.Machine

/-- The level that the service processor drives on GPIO 0 and 1 in a mode (R582); in DRY the outputs hold their last
level, but for GPIO 0, which is low there. -/
def gpioIn (m : Mode) (g : Nat) : Bool :=
  if g = 0 then m != .dry else m == .flow || m == .weir || m == .drain

/-- The level on GPIO 0 or 1 now. -/
def State.gpioUp (s : State) (g : Nat) : Bool :=
  if s.board.inReset then false
  else if s.mode = .dry ∧ g = 1 then gpioIn s.prevMode 1 else gpioIn s.mode g

/-- Enter mode `m`: the NOTICE, GLB_MODE and GLB_MODE_TICK (R132). Triggers: 0 MODE, 1 SPRING end, 2 drain end, 3 drain
limit, 4 fatal, 5 over-temperature. -/
def State.enterMode (s : State) (m : Mode) (trigger : Nat) : State :=
  let s := s.notice 0x000 0 (s.mode.code * 64 + m.code * 8 + trigger)
  let s := if s.gpioUp 0 == gpioIn m 0 then s else s.emit (.pin 5 0 (gpioIn m 0) (s.now + 1))
  let s := if m == .dry || s.gpioUp 1 == gpioIn m 1 then s else s.emit (.pin 5 1 (gpioIn m 1) (s.now + 1))
  { s with mode := m, prevMode := s.mode, modeTick := s.now + 1 }

/-- A command in execution is not legal in the present mode (Table 4.6, R153). -/
def State.waitIllegal (s : State) (w : Wait) : Bool :=
  match w with
  | .pps _ _ _ => s.mode != .still && s.mode != .flow
  | .message _ _ => s.mode == .still
  | .epoch => s.mode != .still && s.mode != .weir
  | .inject _ => s.mode != .flow && s.mode != .weir
  | .work _ (.defaults _) => s.mode != .still
  | .work _ (.omci _ _ _) => s.mode == .still
  | .work _ (.inject _ _ _ _) => s.mode != .flow && s.mode != .weir
  | _ => false

/-- Commands that the present mode does not permit stop (R122, R153). -/
def State.stopIllegal (s : State) : State :=
  s.execs.foldl (fun s x => if s.waitIllegal x.2.wait then s.stopExec x.1 else s) s

/-- Change the fields of every tree that has any. -/
def State.eachTree (s : State) (f : Tree → Tree) : State :=
  s.trees.foldl (fun s x => s.setTree x.1 (f (s.tree x.1))) s

/-- A mode other than DRY takes effect, with what follows for commands, trees and lanes (R129, R138, R139, R142). -/
def State.changeMode (s : State) (m : Mode) (trigger : Nat) : State :=
  let was := s
  let s := s.ageSync.enterMode m trigger
  let s := if was.mode = .still then { s with tbl := { s.tbl with ageAt := (s.now + 1) * 2 ^ 22 } } else s
  let s := if m = .drain then
      { s.eachTree (fun u => { u with drainRuns := 0 }) with
        drain := some { since := s.now, done := none }, drainLimited := false }
    else { s with drain := none }
  let s := if m = .still then s.eachTree (fun u => { u with drained := false }) else s
  let s := s.stopIllegal.reserviceAll was
  if was.mode = .still ∧ m = .flow then
    allTrees.foldl (fun s t =>
      if s.treeUp t && !s.bankValid t (s.bankActive t) then s.fault 0x281 t 0 else s) s
  else s

/-- Lanes whose transmit disable is deasserted. -/
def State.litLanes (s : State) : List Nat :=
  (List.range 256).filter (fun i => s.laneUp (i / 2) (i % 2))

/-- An automatic mode change of this tick yields: its NOTICE, not yet in the stream, is withdrawn (R130). -/
def State.withdrawNotice (s : State) : State :=
  { s with evt := { s.evt with staged := s.evt.staged.filter (fun r => !(r.code == 0 && r.tick == s.now)) } }

/-- A fatal cause (R548): the first takes the device to DRY, where the host area, if there is one and the link is up,
or else the flash slot gets the dump (R551); later ones are counted. No write of levels 6 to 11 of its tick takes effect
(R478). -/
def State.fatal (s : State) (cause src detail : Nat) : State :=
  if s.board.inReset then s
  else if s.mode = .dry then
    { s with flt := { s.flt with dump := { s.flt.dump with further := s.flt.dump.further + 1 } } }
  else
    let lit := s.litLanes
    let s := s.withdrawNotice.unretired.undone
    let s := s.setReg 0x221 (mkWord [(40, cause), (24, src % 2 ^ 16), (0, detail % 2 ^ 24)])
    let s := (s.setReg 0x222 (toWord s.tick48)).alarm 0 0x001 0 0
    let s := s.enterMode .dry (if cause ≤ 2 then 0 else if cause = 4 then 5 else 4)
    let s := lit.foldl (fun s i => s.emit (.pin 0 i true s.now)) s
    let s := s.msix 0 12
    let s := if s.sp.held then s.setRf 0x220 47 45 5
      else (s.setRf 0x220 47 45 1).setRf 0x220 31 0 (s.rf 0x220 31 0 + 1)
    let toFlash := s.flt.dump.area.isNone || s.board.perst
    { s with
      flt := { s.flt with dump := { s.flt.dump with fatal := true, further := 0, toFlash := toFlash } },
      img := { s.img with op := none } }

/-- Tick X of a drain: all of bits 4:0 of word 0x0023 read 0 (R146). -/
def State.drainReady (s : State) : Bool :=
  match s.drain with
  | some d => d.done.isNone && fld s.drainWord 4 0 == 0
  | none => false

/-- The drain has come to tick X. -/
def State.drainDone (s : State) : State :=
  match s.drain with
  | some d => { s with drain := some { d with done := some s.now } }
  | none => s

/-- The drain ends at its limit (R147). -/
def State.drainLimit (s : State) : State :=
  let n := s.heldCount
  let s := s.discardHeld
  let s := allTrees.foldl (fun s t =>
    if s.msgPendingOf t then (s.discardMsgs t 0 false (fun _ => true)).discardMsgs t 1 false (fun _ => true) else s) s
  let s := (s.bump 0x24 n).fault 0x002 0 (min n (2 ^ 24 - 1))
  { s with drainLimited := true }.drainDone

/-- The tick at which the drain limit acts (R147). -/
def State.limitTick (s : State) : Option Nat :=
  match s.drain with
  | some d =>
    let ms := s.rf 0x22 31 16
    if d.done.isSome || ms == 0 then none else some (d.since + ms * 1000000)
  | none => none

end Sys2Proof.Machine
end

