-- ==== Sys2Proof/Machine/Rings.lean ====
section
/-! DEFINITION. The device's own rings in host memory: message, punt, timestamp and trace rings (R266, R269, R270, R424,
R470, R522), and the retries of their writes (R599).

Ring numbers: 0 to 127 the message ring of a tree, 128 the punt ring, 129 the timestamp ring, 130 the trace ring, 131 the
counter-dump area, which has a budget only. -/

namespace Sys2Proof.Machine

def ringPunt : Nat := 128
def ringTs : Nat := 129
def ringTrace : Nat := 130
def ringDump : Nat := 131

/-- Word of BASE; SIZE, HEAD and TAIL follow it. -/
def ringBase (r : Nat) : Nat :=
  if r = 128 then 0x1D00204 else if r = 129 then 0x80020 else if r = 130 then 0x40018 else adTree r 0x4008

/-- Octets of a record. -/
def ringSlot (r : Nat) : Nat := if r = 128 then 16384 else if r = 129 then 32 else if r = 130 then 64 else 80

/-- Its counter of discarded records. -/
def ringDrop (r : Nat) : Nat :=
  if r = 128 then 0x1D00404 else if r = 129 then 0x80024 else if r = 130 then 0x4001C else if r = 131 then 0x40033
  else adTree r 0x4016

/-- Ring `r` beside its registers. -/
def State.ring (s : State) (r : Nat) : RingUnit := smGet (fun _ => RingUnit.fresh) s.cmd.rings r

/-- Store ring `r`. -/
def State.setRing (s : State) (r : Nat) (u : RingUnit) : State :=
  { s with cmd := { s.cmd with rings := smSet (fun _ => RingUnit.fresh) s.cmd.rings r u } }

/-- PHASE of the next record. -/
def State.ringPhase (s : State) (r : Nat) : Bool := !(s.ring r).low

/-- Records that the ring holds. -/
def State.ringLevel (s : State) (r : Nat) : Nat :=
  let n := 2 ^ s.rf (ringBase r + 1) 3 0
  ((s.raw (ringBase r + 3)).toNat + n - (s.raw (ringBase r + 2)).toNat % n) % n

/-- The ring takes a further record beside those that it holds and those that wait (R269). -/
def State.ringOpen (s : State) (r : Nat) : Bool :=
  let k := s.rf (ringBase r + 1) 3 0
  k != 0 && Nat.blt (s.ringLevel r + (s.ring r).waiting.length) (2 ^ k - 1)

/-- The octet address of record `i` of ring `r`. -/
def State.ringAddr (s : State) (r i : Nat) : Nat := (s.raw (ringBase r)).toNat * 16 + i * ringSlot r

/-- Write a record: words 1 onward, with the octets behind them, then word 0 with PHASE. -/
def State.ringWrite (s : State) (r : Nat) (x : RingRec) : State :=
  let b := ringBase r
  let i := (s.raw (b + 3)).toNat
  let a := s.ringAddr r i
  let w := x.w0 ||| mkWord [(47, b2n (s.ringPhase r))]
  let s := if x.tail.isEmpty then s else s.emit (.hostOctets (a + 8 * (1 + x.rest.length)) x.tail)
  let s := (s.emit (.hostWords (a + 8) x.rest)).emit (.hostWords a [w])
  let j := (i + 1) % 2 ^ s.rf (b + 1) 3 0
  let u := s.ring r
  (s.setReg (b + 3) (toWord j)).setRing r { u with low := if j = 0 then !u.low else u.low, last := some x }

/-- A new record of ring `r`: it is written, or waits behind those that wait for a retry; one that finds no room, or PERST_N
low (R581), is discarded and counted. -/
def State.ringPut (s : State) (r : Nat) (w0 : Word) (rest : List Word) (tail : List Byte) : State :=
  let x : RingRec := { w0 := w0, rest := rest, tail := tail }
  let u := s.ring r
  if s.ringOpen r && !s.board.perst then
    if u.waiting.isEmpty then s.ringWrite r x else s.setRing r { u with waiting := u.waiting ++ [x] }
  else s.bump (ringDrop r) 1

/-- The oldest waiting record of ring `r`, whose time has come, is written (R599). -/
def State.ringAgain (s : State) (r : Nat) : State :=
  let u := s.ring r
  match u.waiting with
  | x :: l => if u.retryAt ≤ s.now ∧ !s.board.perst then (s.setRing r { u with waiting := l }).ringWrite r x else s
  | [] => s

/-- Records that wait are discarded and counted. -/
def State.ringFlush (s : State) (r : Nat) : State :=
  let u := s.ring r
  (s.bump (ringDrop r) u.waiting.length).setRing r { u with waiting := [], last := none }

/-- A write of BASE or SIZE resets the ring (R270). -/
def State.ringReset (s : State) (r : Nat) : State :=
  let s := ((s.setReg (ringBase r + 2) 0).setReg (ringBase r + 3) 0).ringFlush r
  s.setRing r { s.ring r with low := false }

/-- A retry of ring `r` at this tick is within its budget: CMD_RETRY.MAX within CMD_RETRY.WINDOW_MS (R80, R599). -/
def State.ringBudget (s : State) (r : Nat) : Bool :=
  let w := s.rf 0x11003 23 8 * 1000000
  Nat.blt (((s.ring r).retries).filter (fun t => Nat.blt s.now (t + w))).length (s.rf 0x11003 3 0)

/-- Charge a retry. -/
def State.ringCharge (s : State) (r : Nat) : State :=
  s.setRing r { s.ring r with retries := s.now :: (s.ring r).retries }

/-- The record `x` written last on ring `r` is taken back, because its write has failed. -/
def State.ringUnwrite (s : State) (r : Nat) (x : RingRec) : State :=
  let b := ringBase r
  let n := 2 ^ s.rf (b + 1) 3 0
  let i := ((s.raw (b + 3)).toNat + n - 1) % n
  let u := s.ring r
  ({ s with out := dropNewest (s.ringAddr r i) (ringSlot r) (if x.tail.isEmpty then 2 else 3) s.out }.setReg (b + 3) (toWord i)).setRing r
    { u with low := if i + 1 = n then !u.low else u.low, last := none }

/-- The write made last on ring `r` has failed: its record waits 10 microseconds and is written again, ahead of newer ones,
or, with no retry left, it is discarded and counted (R269, R599). -/
def State.ringFails (s : State) (r : Nat) : State :=
  match (s.ring r).last with
  | none => s
  | some x =>
    let t := s.ringUnwrite r x
    if s.ringBudget r then
      let t := t.ringCharge r
      t.setRing r { t.ring r with waiting := x :: (t.ring r).waiting, retryAt := s.now + 10000 }
    else t.bump (ringDrop r) 1

end Sys2Proof.Machine
end

