-- ==== Sys2Proof/Machine/BurstOps.lean ====
section
/-! DEFINITION. Burst reception: positions in lane time, the search window, measurement, lost bursts, reports and
message-ring records (07, 08). Line positions are in units of 1/31,104 ns, which is u / 625. -/

namespace Sys2Proof.Machine

/-- Change the first expected item that `p` selects. -/
def modFirst (p : Expect → Bool) (f : Expect → Expect) : List Expect → List Expect
  | [] => []
  | e :: l => if p e then f e :: l else e :: modFirst p f l

/-- Store a changed expected item of lane `l`. -/
def State.setExpect (s : State) (t l : Nat) (e : Expect) (f : Expect → Expect) : State :=
  let v := s.lane t l
  s.setLane t l { v with expects := modFirst (fun x => x.base == e.base && x.items == e.items) f v.expects }

/-! ### Measurements (R248, R249, R271) -/

/-- MEAS for an answer with delay `used` that arrived `delta` late, both in u; none where it is out of range. -/
def measOf (used : Nat) (delta : Int) : Option Nat :=
  let m : Int := (used : Int) - delta
  if 0 ≤ m ∧ m ≤ ((2 ^ 26 - 1 : Nat) : Int) then some m.toNat else none

/-- Write MEAS and DELTA of lane `l` of entry `h`. -/
def State.putMeas (s : State) (h l meas : Nat) (delta : Int) : State :=
  let a := adOnu h (5 + l)
  let s := s.setRf a 25 0 meas
  s.setRf a 45 26 (unsigned 20 (saturate 20 delta))

/-- Where what concerns lane `l` of entry `h` is kept beside its tree. -/
def lossKey (h l : Nat) : Nat := h % 512 * 2 + l

/-- A measurement of lane `l` of entry `h` has been written in this tick (R257). -/
def State.noteMeasured (s : State) (h l : Nat) : State :=
  let u := s.tree (h / 512)
  s.setTree (h / 512) { u with measured := smSet (fun _ => 0) u.measured (lossKey h l) (s.now + 1) }

/-- Track a burst of an entry whose lane has EQV = 1: its measurement, unless it is out of range (R249), and its drift
(R271). DESIGN CHOICE (entry 128): a burst granted before its entry was removed is tracked like any other while EQV is 1; the
spec settles windows alone (R256, R268). -/
def State.track (s : State) (t l h : Nat) (delta : Int) : State :=
  if s.rb (adOnu h (3 + l)) 47 then
    let s := match measOf (s.rf (adOnu h (3 + l)) 25 0) delta with
      | none => s.bump (adTree t 0x4015) 1
      | some m => ((s.putMeas h l m delta).noteMeasured h l).monEv 12 t 1 1
    if s.rf (adTree t 0x4002) 15 0 < delta.natAbs ∧ !s.rb (adOnu h (5 + l)) 46 then
      ((((s.setRf (adOnu h (5 + l)) 46 46 1).bump (adTree t 0x4017) 1).monEv 12 t 2 1).notice 0x300 h
        (l * 2 ^ 23 + unsigned 20 (saturate 20 delta)))
    else s
  else s

/-! ### Lost bursts (R298, R299) -/

/-- Consecutive lost bursts; 2^17 is added once their NOTICE is due, and is 2^16 once it has been given. -/
def State.lossCount (s : State) (h l : Nat) : Nat := smGet (fun _ => 0) (s.tree (h / 512)).losses (lossKey h l)

/-- Set that count. -/
def State.setLoss (s : State) (h l n : Nat) : State :=
  let u := s.tree (h / 512)
  s.setTree (h / 512) { u with losses := smSet (fun _ => 0) u.losses (lossKey h l) n }

/-- A further consecutive burst of the entry of `e` is lost: with LOSS_N of them, as it stands for that burst (R310), a NOTICE is
due, once (R299). -/
def State.countLoss (s : State) (l : Nat) (e : Expect) : State :=
  let n := s.lossCount e.onu l + 1
  (s.setLoss e.onu l (if n < 2 ^ 16 ∧ e.lossN ≤ n then n + 2 ^ 17 else n)).bumpSet 2 e.onu 5 1

/-- A written burst is lost: `w` is the word of BRX_CNT that counts it. -/
def State.loseBurst (s : State) (t l : Nat) (e : Expect) (w : Nat) : State :=
  let s := ((s.setExpect t l e (fun e => { e with state := 2 })).bump (adBrx t l w) 1).countLoss l e
  (s.endSdus t (fun d => d.onu == e.onu)).traceEnds e.trace true false false

/-! ### Message ring (R266) -/

/-- Write a record of the message ring of tree `t`, with the octets of its message. -/
def State.ringMsg (s : State) (t kind lane entry : Nat) (oor miss : Bool) (meas tick : Nat) (msg : List Byte) : State :=
  let w0 := mkWord [(45, kind), (44, lane), (37, t), (28, entry), (27, b2n oor), (26, b2n miss), (0, meas)]
  s.ringPut t w0 (toWord (tick % 2 ^ 48) :: octetsWords 8 (takePad 48 0 msg)) []

/-- The tick of a record made of the PLOAM codeword that arrives at position `p`: reception, decoding, delineation and
decryption, as Table 7.9 counts it. -/
def ploamTick (p r : Nat) : Nat := (decodedAt p r + 14 * 311040) / 311040

/-! ### Reports (R203 to R206) -/

/-- The bucket of occupancy `occ` under a bucket-boundary entry. -/
def bucketFor (ws : List Word) (occ : Nat) : Nat :=
  let b (i : Nat) : Nat := if i % 2 = 1 then fld (nth ws ((i - 1) / 2) 0) 23 0 else fld (nth ws (i / 2 - 1) 0) 47 24
  ((List.range 15).filter (fun i => Nat.ble (b (i + 1)) occ)).length

/-- Write a report's bucket in this tick, noting what it was. -/
def State.reportBucket (s : State) (a v lane : Nat) : State :=
  let old := s.bucketWas.filter (fun x => x.1 == s.now)
  if lane = 1 ∧ old.any (fun x => x.2.1 == a && x.2.2.2 == 0) then s
  else
    let was := if old.any (fun x => x.2.1 == a) then old.filter (fun x => x.2.1 != a) ++
        (old.filter (fun x => x.2.1 == a)).map (fun x => (x.1, x.2.1, x.2.2.1, lane))
      else (s.now, a, s.bucketOf a, lane) :: old
    { s.setBucket a v with bucketWas := was }

/-- A report of allocation `a` with occupancy `occ` is stamped now; its burst came in on lane `l` of tree `t`. -/
def State.report (s : State) (t l a occ : Nat) : State :=
  let s := s.bump (adLaneStat t l 10) 1
  match s.alloc a with
  | none => s.bump (adSluCnt t 6) 1
  | some (h, _) =>
    let ws := s.entry 0x13 a
    if bitOf (nth ws 7 0) 47 then s.reportBucket a (bucketFor ws occ) l
    else (s.reportBucket a 0 l).bump (adSluCnt (h / 512) 6) 1

/-! ### SDUs and arrivals (R300) -/

/-- What came in as arrival `id` gets more octets, wherever it stands, and ends with `ended`; `bad` marks it bad. -/
def State.feed (s : State) (id : Nat) (bs : List Byte) (ended bad : Bool) : State :=
  let s := s.mapArr (fun a =>
    if a.id = id && !a.ended then { a with octets := a.octets ++ bs, ended := ended, bad := a.bad || bad } else a)
  let live : List Nat := s.cat.pkts.filterMap (fun (x : Nat × Option Packet) =>
    match x.2 with
    | some p => if p.arr = id && !p.ended then some x.1 else none
    | none => none)
  let s := live.foldl (fun s i => s.modPkt i (fun p => { p with octets := p.octets ++ bs, ended := ended })) s
  if bad then (live.filterMap (fun i => (s.pkt i).map (·.grp))).eraseDups.foldl (fun s g => s.makeBad g false) s else s

/-- The last four octets of a frame are its FCS (IEEE 802.3). -/
def fcsOk (bs : List Byte) : Bool :=
  let n := bs.length - 4
  Nat.ble 4 bs.length && leNat (bs.drop n) == fcs32 ((bs.take n).map (·.toNat))

/-- A new packet waits for a pipe; its number is the counter's value. -/
def State.arrive (s : State) (a : Arrival) : State :=
  { s with cls := { s.cls with arrivals := s.cls.arrivals ++ [s.noteHead { a with id := s.cls.arrNext }],
                               arrNext := s.cls.arrNext + 1 } }

/-- An upstream fragment is forwarded (R300): it opens an SDU, continues one or ends one. DESIGN CHOICE (entry 131): fragments of an
SDU that come after it has ended bad, up to its LF = 1, open a new one; the spec is silent on them. -/
def State.forwardFragment (s : State) (t l onu port : Nat) (braided lf : Bool) (bs : List Byte) (len : Nat)
    (burst : Option Nat) : State :=
  let s := s.traceStage burst 6
  let s := ((s.bump (adLaneStat t l 8) bs.length).bwAdd (256 + 2 * t + l) bs.length)
  let mine (d : Sdu) : Bool := d.port == port && d.onu == onu && d.braided == braided && (braided || d.lane == l)
  let s := if lf then s.bumpSet2 2 onu 0 len else s
  if s.mode = .drain ∧ s.drainLimited then s
  else
    match (s.tree t).sdus.find? mine with
    | some d =>
      let u := s.tree t
      let rest := u.sdus.filter (· != d)
      let s := s.setTree t { u with sdus := if lf then rest else rest ++ [{ d with lane := l, at_ := s.now }] }
      s.feed d.arr bs lf false
    | none =>
      let id := s.cls.arrNext
      let s := s.arrive
        { id := id, src := 256 + 2 * t + l, octets := bs, len := len, ended := lf, bad := false, xgem := port, onu := onu,
          reqClass := 1, reqIndex := 2 * t + l, slow := false, burst := burst, ready := none }
      if lf then s
      else
        let u := s.tree t
        s.setTree t { u with
          sdus := u.sdus ++ [{ lane := l, port := port, braided := braided, onu := onu, arr := id, at_ := s.now }] }

/-! ### Braid deskew (R302 to R309) -/

/-- P_r (R304). -/
def deskewP (r : Nat) : Nat := if r = 3 then 400 else if r = 2 then 750 else if r = 1 then 1000 else 1800

/-- DSK of entry `h` (R303). -/
def State.dskOf (s : State) (h : Nat) : Nat :=
  let w := s.raw (adOnu h 7)
  if bitOf w 47 then ceilDiv ((signed 16 (fld w 41 26)).natAbs * 625) 31104 else 0

/-- The sequence of an XGEM port. -/
def State.dskSeq (s : State) (t port : Nat) : DskSeq :=
  smGet (fun _ => { last := none, onu := 0, held := [] }) (s.tree t).dsk port

/-- Store a sequence. -/
def State.setDskSeq (s : State) (t port : Nat) (q : DskSeq) : State :=
  let u := s.tree t
  s.setTree t { u with dsk := smSet (fun _ => { last := none, onu := 0, held := [] }) u.dsk port q }

/-- How far `b` lies behind `last` in 16-bit serial arithmetic; 0 to 32,767 is behind or equal. -/
def bseqBehind (last b : Nat) : Nat := (last + 2 ^ 16 - b) % 2 ^ 16

/-- Release one held frame of a sequence, counting the BSEQ values skipped before it; an SDU that spans a gap ends bad. -/
def State.releaseDsk (s : State) (t port : Nat) (f : DskFrame) : State :=
  let q := s.dskSeq t port
  let gap := match q.last with
    | some b => if f.bseq = b then 0 else (f.bseq + 2 ^ 16 - b - 1) % 2 ^ 16
    | none => 0
  let s := if gap = 0 then s else
    (s.bump (adTree t 0x6001) gap).endSdus t (fun d => d.braided && d.port == port)
  let s := s.setDskSeq t port { q with last := some f.bseq, onu := f.onu, held := q.held.filter (· != f) }
  (s.bump (adTree t 0x6000) 1).forwardFragment t f.lane f.onu port true f.lf f.octets f.len f.burst

/-- Held frames in BSEQ order, counted from `last`. -/
def insertDsk (last : Nat) (f : DskFrame) : List DskFrame → List DskFrame
  | [] => [f]
  | g :: l =>
    if (f.bseq + 2 ^ 16 - last) % 2 ^ 16 < (g.bseq + 2 ^ 16 - last) % 2 ^ 16 then f :: g :: l
    else g :: insertDsk last f l

/-- The held frames of a sequence in BSEQ order. -/
def DskSeq.sorted (q : DskSeq) : List DskFrame :=
  let last := match q.last with
    | some b => b
    | none => (q.held.head?.map (·.bseq)).getD 0
  q.held.foldl (fun a f => insertDsk last f a) []

/-- Release every held frame of a sequence (R306, R307). -/
def State.flushDsk (s : State) (t port : Nat) : State :=
  (s.dskSeq t port).sorted.foldl (fun s f => s.releaseDsk t port f) s

/-- The sequences last delivered by entry `h` are released and lose their state (R307). -/
def State.clearDsk (s : State) (h : Nat) : State :=
  let t := h / 512
  ((s.tree t).dsk.filter (fun x => x.2.onu == h)).foldl (fun s x =>
    (s.flushDsk t x.1).setDskSeq t x.1 { last := none, onu := 0, held := [] }) s

/-- Every sequence of tree `t` is released and loses its state: R185 has invalidated the delays of all its entries (R307). -/
def State.clearDskAll (s : State) (t : Nat) : State :=
  (s.tree t).dsk.foldl (fun s x => (s.flushDsk t x.1).setDskSeq t x.1 { last := none, onu := 0, held := [] }) s

/-- Octets held by the deskew buffer of tree `t`. -/
def State.dskOcc (s : State) (t : Nat) : Nat :=
  ((s.tree t).dsk.map (fun x => (x.2.held.map (fun f => 8 + ceilDiv f.octets.length (s.fsUnit t) * s.fsUnit t)).foldl
    (· + ·) 0)).foldl (· + ·) 0

/-- A braided frame enters the deskew buffer (R306); its hold is fixed with the entry's DSK as it is now (R304, R307). DESIGN CHOICE (entry 94): a frame of another entry than the one that
last delivered to the sequence is a new base even where its BSEQ lies 0 to 1,023 behind. -/
def State.enterDsk (s : State) (t port : Nat) (f : DskFrame) : State :=
  let f := { f with expires := f.expires + s.dskOf f.onu }
  let s := s.monEv 14 t 1 1
  let q := s.dskSeq t port
  let hold (s : State) : State :=
    let q := s.dskSeq t port
    let s := s.setDskSeq t port { q with onu := f.onu, held := q.held ++ [f] }
    let occ := s.dskOcc t
    if s.rf (adTree t 0x6005) 16 0 < occ then s.setRf (adTree t 0x6005) 16 0 (min occ (2 ^ 17 - 1)) else s
  let base (s : State) : State :=
    let s := (s.flushDsk t port).bump (adTree t 0x6003) 1
    let q := s.dskSeq t port
    hold (s.setDskSeq t port { q with last := some f.bseq })
  match q.last with
  | none => base s
  | some b =>
    let d := bseqBehind b f.bseq
    if q.onu ≠ f.onu then base s
    else if d ≤ 1023 then (s.bump (adTree t 0x6002) 1).endSdus t (fun x => x.onu == f.onu)
    else if d < 2 ^ 15 then base s
    else hold s

/-- Frames of a sequence whose release is due: those up to the highest BSEQ whose hold has expired (R305). -/
def State.expireDsk (s : State) (t port : Nat) : State :=
  let l := (s.dskSeq t port).sorted
  let n := (List.range l.length).foldl (fun m i =>
    match l[i]? with
    | some f => if f.expires ≤ s.now then i + 1 else m
    | none => m) 0
  (l.take n).foldl (fun s f => s.releaseDsk t port f) s

end Sys2Proof.Machine
end

