-- ==== Sys2Proof/Machine/ClassOps.lean ====
section
/-! DEFINITION. The decision of a lookup pipe: ports and LAGs (R186, R187, R194), action selection (R344), destinations
(R345, R346, R355), bridging and learning (R380 to R384), routing (R391), meters (R347) and tagging (R520). -/

namespace Sys2Proof.Machine

/-! ### LAGs (05) -/

/-- MAC `m` belongs to a port in Ohmad ring mode. -/
def State.macOhmad (s : State) (m : Nat) : Bool := s.rb (adPort (m / 8) 0) 7

/-- The members of LAG `g` in ascending MAC index; an Ohmad port's MAC is never one (R194, R197). -/
def State.lagMembers (s : State) (g : Nat) : List Nat :=
  (List.range 256).filter (fun m => s.rf (adMac m) 14 8 == g && s.slotUsed (m / 8) (m % 8) && !s.macOhmad m)

/-- The member that a hash selects, or the next one that is up (R194). -/
def State.lagPick (s : State) (g h : Nat) : Option Nat :=
  let l := s.lagMembers g
  let i := h % l.length
  if g = 0 then none else (l.drop i ++ l.take i).find? s.macUp

/-- The core port of a source (R186): its Confluence input. -/
def inputOf (src : Nat) : Nat := if src < 256 then 32 + src / 8 else if src < 512 then (src - 256) / 8 else 31

/-- The core port of a destination. -/
def State.outputOf (s : State) : Dest → Nat
  | .queue h _ => s.dqTree h / 4
  | .mac m _ => 32 + m / 8
  | .punt => 31

/-! ### Actions (R344, R346) -/

/-- An action with what it came from: AKIND (0 default, 1 rule, 2 flow), its index and its counter set family. -/
structure Action where
  akind : Nat
  index : Nat
  family : Nat
  fwd : Nat
  spread : Bool
  de : Bool
  cls : Nat
  meter : Option Nat
  dkind : Nat
  dest : Nat
  xgem : Nat
  bd : Nat
  learn : Bool
  oxop : Nat
  override : Bool
deriving DecidableEq, Repr

/-- The fields of A0. -/
def actionOf (akind index family : Nat) (a0 : Word) : Action :=
  { akind := akind, index := index, family := family, fwd := fld a0 47 45, spread := bitOf a0 44, de := bitOf a0 43,
    cls := fld a0 42 40, meter := if bitOf a0 39 then some (fld a0 38 21) else none, dkind := fld a0 20 19,
    dest := fld a0 18 0, xgem := 0, bd := 0, learn := false, oxop := 0, override := false }

/-- An action of a rule or default entry. -/
def actionA1 (akind index family : Nat) (a0 a1 : Word) : Action :=
  { actionOf akind index family a0 with
    xgem := fld a1 47 32, bd := fld a1 31 18, learn := bitOf a1 17, oxop := fld a1 16 15, override := bitOf a1 14 }

/-- An action of an exact flow (Table 10.8). -/
def actionFlow (ws : List Word) : Action :=
  let w := nth ws 2 0
  { actionOf 2 (fld w 40 21) 0 (nth ws 1 0) with
    xgem := fld w 20 5, bd := fld w 18 5, learn := bitOf w 4, oxop := fld w 3 2 }

/-- The exact-flow key of a packet under its source's profile (Table 10.7). -/
def flowKey (profile : Nat) (p : Parsed) (src xgem : Nat) : Option (List Word) :=
  if profile = 1 then some [mkWord [(46, 1), (39, if srcKind src = 1 then srcNum src else 0),
    (23, if srcKind src = 1 then xgem else 0)]]
  else if profile = 2 then some [mkWord [(46, 2), (34, p.tci1 % 4096), (22, p.tci2 % 4096)]]
  else if profile = 3 ∧ p.l3 = 1 then some [mkWord [(46, 3), (14, p.dst), (2, p.tci1 % 4096)]]
  else none

/-- A monitor event of the lookup pipes. -/
def State.pipeEv (s : State) (pipe ev : Nat) : State := s.monEv 16 pipe ev 1

/-- Action selection by the tables and registers of `v`; no answer where the default entry is not valid. -/
def State.select (s v : State) (pipe : Nat) (copy : Bool) (src xgem : Nat) (p : Parsed) (key : List Word) :
    Option Action × State :=
  let d := v.genEntry copy 0x21 src
  let useDefault (s : State) : Option Action × State :=
    let s := (s.bump 0x1400413 1).pipeEv pipe 5
    if bitOf (nth d 2 0) 47 then (some { actionA1 0 src 5 (nth d 0 0) (nth d 1 0) with override := false }, s)
    else (none, s.bump 0x1400412 1)
  if p.fail then useDefault s
  else
    let r := v.findRule copy key
    let f := match flowKey (v.rf (0x1400000 + src) 39 38) p src xgem with
      | some k => v.findEntry 4 k
      | none => none
    let s := if r.isSome then s.pipeEv pipe 3 else s
    let s := if f.isSome then s.pipeEv pipe 4 else s
    let ra := r.map (fun x => actionA1 1 x.1 4 (nth x.2 8 0) (nth x.2 9 0))
    match ra, f with
    | some a, some x => (some (if a.override then a else actionFlow x.2), s)
    | some a, none => (some a, s)
    | none, some x => (some (actionFlow x.2), s)
    | none, none => useDefault s

/-! ### Destinations (R346, R355) -/

/-- What a packet is, as far as a destination needs it. -/
structure Seen where
  src : Nat
  xgem : Nat
  octets : List Byte
  parsed : Parsed

/-- The frame is a PTP message, event or general. -/
def isPtp (bs : List Byte) : Bool :=
  let p := Window.parse { bs := bs, win := 256, fin := bs.length, tpid := none, vxlan := 0 }
  p.etype == 0x88F7 || (p.l4 == 1 && (p.dport == 319 || p.dport == 320))

/-- The destination of (DKIND, DEST, XGEMPORT) in class `cls`; none where it is down, dropping or not valid. An Ohmad port
takes PTP messages only (R197); DESIGN CHOICE (entry 92): another packet for it counts as one for a destination that is down. -/
def State.resolve (s : State) (copy : Bool) (v : Seen) (dkind dest xgem cls : Nat) : Option Dest :=
  let up (m : Nat) : Option Dest := if s.macUp m && (!s.macOhmad m || isPtp v.octets) then some (.mac m cls) else none
  if dkind = 0 then some (.queue dest xgem)
  else if dkind = 1 then up (dest % 256)
  else if dkind = 3 then
    let ws := s.genEntry copy 0x22 (dest % 1024)
    let c := nth ws 64 0
    if !bitOf c 47 then none
    else
      let h := v.parsed.tableHash v.octets v.src v.xgem (s.rf 0x1400401 31 0) c
      let i := h % 256
      let slot := fld (nth ws (i / 4) 0) (12 * (i % 4) + 11) (12 * (i % 4))
      if slot / 1024 = 0 then up (slot % 256)
      else if slot / 1024 = 1 then (s.lagPick (slot % 1024) (h / 2 ^ 16)).map (fun m => .mac m cls)
      else none
  else none

/-- A drop at a down, dropping or invalid destination is counted. -/
def State.destDown (s : State) : State := s.bump 0x1400415 1

/-! ### Verdicts -/

/-- Where a decision sends a packet. -/
inductive Verdict where
  | drop
  | oxbow (op : Nat)
  | one (d : Dest)
  /-- The flood list of a bridge domain, and the ingress bridge port. -/
  | flood (bd : Nat) (ingress : Option Nat)
  /-- The management punt path, with its REASON. -/
  | punt (reason : Nat)
deriving DecidableEq, Repr

/-! ### Bridging and learning (R380 to R384) -/

/-- The ingress bridge port of an arrival (R380). -/
def State.ingressOf (s : State) (a : Arrival) : Option Nat :=
  let w := if srcKind a.src = 1 then s.raw (0x18C0000 + a.onu) else s.raw (0x1801000 + a.src)
  if bitOf w 16 then some (fld w 15 0) else none

/-- What learning makes of a packet: it goes on, is flooded, or is dropped. -/
inductive Learnt where
  | on | flood | drop
deriving DecidableEq, Repr

/-- USRC of a bridge domain. -/
def State.usrc (s : State) (bd : Nat) : Learnt :=
  let u := s.rf (0x1810000 + bd) 46 45
  if u = 1 then .flood else if u = 2 then .drop else .on

/-- A request joins the learn queue. -/
def State.askLearn (s : State) (r : LearnReq) : State :=
  { s with tbl := { s.tbl with learn := s.tbl.learn ++ [r] } }.monEv 17 0 3 1

/-- The entry `ws` of table 0x01 has been hit: its HIT bit is set at the end of the tick (R388). -/
def State.hitMac (s : State) (ws : List Word) : State :=
  { s with tbl := { s.tbl with hits := s.tbl.hits ++ [entryKey 1 ws] } }

/-- The outcome of learning `mac` in `bd` from bridge port `p` (Table 11.6), by the tables of `v`. Nothing is learned on a
port that a TBL_FLUSH_PORT clears (R104). DEDUCED (entry 124): a request that the learn engine has taken and not finished still
matches. DESIGN CHOICE (entry 144): a request of a tick in which the queue has become full is not made, as in the next tick. -/
def State.learnFrom (s v : State) (bd mac p : Nat) : Learnt × State :=
  let queued := (s.tbl.learn ++ (s.tbl.going.map (·.1)).toList).any (fun r => r.bd == bd && r.mac == mac)
  let may := v.rb (adBport p 0) 46 && Nat.blt s.start.tbl.learn.length 4096 && Nat.blt s.tbl.learn.length 4096 &&
    !s.flushing p
  let room := Nat.blt (s.rf (adBport p 2) 22 0) (v.rf (adBport p 1) 22 0)
  let refuse (s : State) : Learnt × State :=
    if !may then (v.usrc bd, s.bump 0x1800013 1)
    else (if v.rb (adBport p 0) 45 then .flood else .drop, s.bump 0x1800012 1)
  match v.findMac bd mac with
  | some (_, ws) =>
    if macPort ws = p then (.on, s.hitMac ws)
    else if macStatic ws then (.drop, s.bump 0x1800015 1)
    else if may && room && queued then (.on, s)
    else if may && room then
      (.on, ((((s.askLearn { bd := bd, mac := mac, port := p, move := true }).learnedUp p).learnedDown
        (macPort ws)).bump 0x1800011 1))
    else refuse s
  | none =>
    if may && room && queued then (.on, s)
    else if may && room then
      (.on, (s.askLearn { bd := bd, mac := mac, port := p, move := false }).learnedUp p)
    else refuse s

/-- A BRIDGE decision (R381). -/
def State.bridge (s v : State) (copy : Bool) (x : Seen) (a : Arrival) (c : Action) : Verdict × State :=
  let da := num 6 0 x.octets
  let sa := num 6 6 x.octets
  let ingress := v.ingressOf a
  let (l, s) := match ingress with
    | some p =>
      if c.learn && !sa.testBit 40 && sa != 0 then s.learnFrom v c.bd sa p else (.on, s)
    | none => (.on, s)
  if l = .drop then (.drop, s)
  else if !v.rb (0x1810000 + c.bd) 47 then (.drop, s.destDown)
  else if l = .flood || da.testBit 40 then (.flood c.bd ingress, s)
  else
    let s := s.monEv 17 0 1 1
    match v.findMac c.bd da with
    | none => (.flood c.bd ingress, s)
    | some (_, ws) =>
      let s := if v.rb 0x1800000 17 then s.hitMac ws else s
      let p := macPort ws
      let w := v.raw (adBport p 0)
      if ingress = some p then (.drop, s.bump 0x1800016 1)
      else if !bitOf w 47 then (.drop, s.destDown)
      else
        match v.resolve copy x (fld w 44 43) (fld w 42 24) (fld w 23 8) c.cls with
        | some d => (.one d, s)
        | none => (.drop, s.destDown)

/-- A ROUTE decision (R389, R391), with the packet's new octets. -/
def State.routeTo (s v : State) (copy : Bool) (x : Seen) (c : Action) : Verdict × List Byte × State :=
  let p := x.parsed
  let bs := x.octets
  let r := if p.l3 = 1 then v.route 2 p.dst else if p.l3 = 2 then v.route 3 p.dst else none
  let s := if p.l3 = 1 then s.monEv 17 1 1 1 else if p.l3 = 2 then s.monEv 17 2 1 1 else s
  match r with
  | none => (.drop, bs, s.bump 0x1400414 1)
  | some ws =>
    let n := if p.l3 = 1 then fld (nth ws 1 0) 15 0 else fld (nth ws 3 0) 15 0
    let w := v.raw (adNh n 0)
    let tag := v.raw (adNh n 3)
    if !bitOf w 47 then (.drop, bs, s.destDown)
    else if bitOf w 46 && Nat.ble (p.ttl bs) 1 then (.punt 1, bs, s.bump 0x180001B 1)
    else
      match v.resolve copy x (fld w 45 44) (fld w 43 25) (fld w 24 9) c.cls with
      | none => (.drop, bs, s.destDown)
      | some d =>
        let y := if bitOf w 46 then p.decTtl bs else bs
        let y := if bitOf tag 47 then p.setVid (fld tag 43 32) y else y
        let y := splice y 0 12 (octetsBE 6 (v.raw (adNh n 1)).toNat ++ octetsBE 6 (v.raw (adNh n 2)).toNat)
        (.one d, y, s)

/-! ### The decision (R342) -/

/-- A decision: the verdict, the packet with its changes, and what else the packet takes along. -/
structure Decision where
  verdict : Verdict
  arr : Arrival
  action : Option Action
  hash : Nat
  de : Bool
  spread : Bool
  cls : Nat

/-- The packet as the parser of its source sees it. -/
def State.see (s : State) (a : Arrival) : Seen :=
  let w := s.raw (0x1400000 + a.src)
  { src := a.src, xgem := a.xgem, octets := a.octets,
    parsed := Window.parse
      { bs := a.octets, win := (fld w 43 40 + 1) * 16, fin := a.len - 4,
        tpid := if bitOf w 36 then some (s.rf 0x1400400 47 32) else none, vxlan := s.rf 0x1400400 31 16 } }

/-- The meter of a decision (R347), whose entry is that of the tables `v` (R22): whether the packet goes on, and whether it leaves
drop-eligible. -/
def State.meterOf (s v : State) (c : Action) (len : Nat) : Bool × Bool × State :=
  match c.meter with
  | none => (true, c.de, s)
  | some i =>
    let ws := v.entry 0x10 i
    if !bitOf (nth ws 3 0) 47 then (true, c.de, s.bump 0x1000021 1)
    else
      let (col, s) := s.meter i len c.de
      let act := match col with
        | .green => 0
        | .yellow => fld (nth ws 0 0) 45 44
        | .red => fld (nth ws 0 0) 43 42
      (act != 2, c.de || act == 1, s)

/-- Decide an arrival on a pipe under generation copy `copy`, by the tables and registers of `v`. -/
def State.decidePkt (s v : State) (pipe : Nat) (copy second : Bool) (a : Arrival) : Decision × State :=
  let x := v.see a
  let key := x.parsed.key a.octets a.src a.xgem second (v.rb (0x1400000 + a.src) 37)
  let s := s.pipeEv pipe (if second then 2 else 1)
  let s := if second then s.bump 0x1400419 1 else s
  let s := if x.parsed.fail then (s.bump 0x1400410 1).pipeEv pipe 6 else s
  let s := if x.parsed.trunc then s.bump 0x1400411 1 else s
  let answer (verdict : Verdict) (a : Arrival) (c : Option Action) (de spread : Bool) (cls : Nat) : Decision :=
    { verdict := verdict, arr := a, action := c, hash := pinHash key, de := de, spread := spread, cls := cls }
  if a.slow then (answer (.punt 2) a none false false 0, s)
  else
    match s.select v pipe copy a.src a.xgem x.parsed key with
    | (none, s) => (answer .drop a none false false 0, s)
    | (some c, s) =>
      let s := s.bumpSet2 c.family c.index 0 a.len
      let (verdict, bs, s) : Verdict × List Byte × State :=
        if c.fwd = 0 then
          match v.resolve copy x c.dkind c.dest c.xgem c.cls with
          | some d => (.one d, a.octets, s)
          | none => (.drop, a.octets, s.destDown)
        else if c.fwd = 1 then
          let (y, s) := s.bridge v copy x a c
          (y, a.octets, s)
        else if c.fwd = 2 then s.routeTo v copy x c
        else if c.fwd = 4 then (.punt 0, a.octets, s)
        else if c.fwd = 5 then (.oxbow c.oxop, a.octets, s)
        else (.drop, a.octets, s.bumpSet c.family c.index 2 1)
      let (on, de, s) := s.meterOf v c a.len
      let a' : Arrival := { a with octets := bs, len := a.len + bs.length - a.octets.length }
      (answer (if on then verdict else .drop) a' (some c) de c.spread c.cls, s)

/-! ### Tagging (R520) -/

/-- The LFSR of pipe `p` as MON_TAG.SEED loads it; a state of 0 is replaced by 1. -/
def lfsrSeed (seed p : Nat) : Nat := if seed ^^^ p = 0 then 1 else seed ^^^ p

/-- One step of an LFSR. -/
def lfsrStep (x : Nat) : Nat :=
  let b := (x.testBit 47 != x.testBit 46) != (x.testBit 20 != x.testBit 19)
  x * 2 % 2 ^ 48 + b2n b

/-- The LFSR of a pipe. -/
def State.lfsr (s : State) (p : Nat) : Nat := smGet (lfsrSeed 1) s.mon.lfsr p

/-- The distributor admits a packet's first pass to a pipe: its LFSR steps, and the packet may be tagged. -/
def State.tag (s : State) (pipe : Nat) (a : Arrival) : Option Nat × State :=
  let x := lfsrStep (s.lfsr pipe)
  let s := { s with mon := { s.mon with lfsr := smSet (lfsrSeed 1) s.mon.lfsr pipe x } }
  if s.rb 0x40010 47 && s.rb 0x40010 (44 + srcKind a.src) && x % 2 ^ s.rf 0x40010 5 0 == 0 then
    match s.freeTrace with
    | none => (none, (s.bump 0x40013 1).monEv 3 0 3 1)
    | some i =>
      let t : TraceSlot :=
        { kind := 0, src := a.src, len := a.len, base := s.now, stages := List.replicate 8 none, dest := 0,
          ended := none }
      (some i, (s.setTrace i (some t)).monEv 3 0 2 1)
  else (none, s)

/-- The action of a decision stands in word 6 of its trace record. -/
def State.traceDest (s : State) (slot : Option Nat) (c : Option Action) : State :=
  match slot, c with
  | some i, some c =>
    match s.traceSlot i with
    | some t =>
      s.setTrace i (some { t with dest := mkWord [(45, c.fwd), (43, c.dkind), (24, c.dest), (21, c.cls)] })
    | none => s
  | _, _ => s

end Sys2Proof.Machine
end

