-- ==== Sys2Proof/Machine/PathOps.lean ====
section
/-! DEFINITION. From a decision to the outputs of Confluence: core-port copies and their cells, the Oxbow, flooding, the
cyclic pattern and the resequencers (R358 to R363, R394 to R413, R423). -/

namespace Sys2Proof.Machine

/-! ### Copies and cells -/

/-- Packet `i` goes as a whole before it was enqueued anywhere: its cells are freed. -/
def State.killPkt (s : State) (i : Nat) : State :=
  match s.pkt i with
  | none => s
  | some p => ((s.traceEnds p.trace true false false).freeCells p.part p.cells).setPkt i none

/-- An INJECT without classification retires with the octets taken (R427). -/
def State.injected (s : State) (i : Nat) : State :=
  match s.findExec (fun w => w == .inject i) with
  | some (q, e) => s.endExec q stDone e.progress 0
  | none => s

/-- Confluence's input `k` and its cells. -/
def State.cflIn (s : State) (k : Nat) : List FCell := smGet (fun _ => []) s.cfl.inputs k

/-- Store input `k`. -/
def State.setCflIn (s : State) (k : Nat) (l : List FCell) : State :=
  { s with cfl := { s.cfl with inputs := smSet (fun _ => []) s.cfl.inputs k l } }

/-- Cell `n` of packet `i`, granted now, comes to its input (R395, R396, R398). -/
def State.enterInput (s : State) (i n : Nat) : State :=
  match s.pkt i with
  | none => s
  | some p =>
    let l := s.cflIn p.input
    if 1024 ≤ l.length then
      if n = 0 then ((s.killPkt i).bump (0x1C00002 + 4 * p.input) 1).injected i
      else
        let s := (s.freeCells p.part (p.cells.drop n)).makeBad p.grp false
        let s := (s.modPkt i (fun p => { p with cells := p.cells.take n })).cutPkt i n
        if l.any (fun x => x.pkt == i) then s else s.injected i
    else
      let k := 64 * p.input + p.output
      let seq := smGet (fun _ => 0) s.cfl.seqIn k
      let cell : FCell :=
        { pkt := i, n := n, input := p.input, output := p.output, middle := (p.hash % 64 + p.output) % 64,
          spread := p.spread, seq := if p.spread then seq else 0, age := s.now }
      let s := if p.spread then
          { s with cfl := { s.cfl with seqIn := smSet (fun _ => 0) s.cfl.seqIn k ((seq + 1) % 4096) } }
        else s
      (s.setCflIn p.input (l ++ [cell])).monEv 18 p.input 1 1

/-- The class partition of a destination (R407). -/
def State.partOf (s : State) (d : Dest) : Nat :=
  match d with
  | .queue h _ => 8 * s.outputOf d + fld (s.qw h 0) 47 45
  | .mac _ c => 8 * s.outputOf d + c
  | .punt => 512

/-- A first cell was refused: the packet or copy is dropped and counted, also in its queue (R408, R423). -/
def State.refuseFirst (s : State) (dests : List Dest) : State :=
  dests.foldl (fun s d =>
    match d with
    | .queue h _ => s.bumpSet 1 h dqBuffer 1
    | .punt => s.bump 0x1D00404 1
    | .mac m c => s.bumpSet 6 (8 * m + c) 1 1) (s.bump 0x1D00400 1)

/-- One core-port copy of a decided packet: where its first cell is granted, it enters Confluence (R408, R413). -/
def State.makeCopy (s : State) (a : Arrival) (akind index hash : Nat) (de spread : Bool) (trace : Option Nat)
    (reason grp : Nat) (dests : List Dest) (pick : Nat) : State :=
  match dests with
  | [] => s
  | first :: _ =>
    let part := s.partOf first
    match s.grantCell part pick with
    | (none, s) => (s.refuseFirst dests).traceEnds trace true false false
    | (some c, s) =>
      let punted := first == .punt
      let held := punted && s.rb 0x1D00200 32
      let p : Packet :=
        { grp := grp, octets := a.octets, len := a.len, ended := a.ended, input := inputOf a.src,
          output := s.outputOf first, part := part, cells := [c], arrived := 0, dests := dests,
          refs := dests.length + b2n held, held := held, bad := a.bad, cut := a.bad, dequeued := false, spread := spread,
          hash := hash, de := de, src := a.src, decided := s.now, reason := reason, akind := akind, index := index, spills := 0,
          punted := punted, arr := a.id, reqClass := a.reqClass, reqIndex := a.reqIndex, trace := trace, inject := none }
      let i := s.cat.next
      ((s.addPkt p).traceStage trace 3).enterInput i 0

/-- A request for cells is made. -/
def State.ask (s : State) (cls index : Nat) (x : CellAsk) : State :=
  { s with cls := { s.cls with requests := s.cls.requests ++ [{ cls := cls, index := index, ask := x }] } }

/-- The first cells of the core-port copies of a decided packet are requested (R408). -/
def State.askCopies (s : State) (d : Decision) (spread : Bool) (trace : Option Nat) (reason : Nat)
    (copies : List (List Dest × Nat)) : State :=
  s.ask d.arr.reqClass d.arr.reqIndex (.copies d.arr ((d.action.map (·.akind)).getD 3) ((d.action.map (·.index)).getD 0) d.hash
    d.de spread trace reason copies)

/-- Packets that entered the Oxbow in this tick. -/
def State.oxEntered (s : State) : Nat := (s.cls.oxbow.filter (fun o => o.at_ == s.now)).length

/-- Carry out a decision in the tick in which it is delivered (R345, R358, R360). -/
def State.deliver (s : State) (d : Decision) (e : PipeDec) : State :=
  let s := (s.traceStage e.trace (if e.second then 2 else 1)).traceDest e.trace d.action
  let dropped (s : State) : State := s.traceEnds e.trace true false false
  match d.verdict with
  | .drop => dropped s
  | .oxbow op =>
    if e.second then dropped (s.bump 0x1400417 1)
    else if 8 ≤ s.oxEntered then dropped (s.bump 0x1400416 1)
    else
      let o : OxPacket :=
        { arr := d.arr, copy := e.copy, oxop := op, entered := e.entered, at_ := s.now, trace := e.trace }
      { s with cls := { s.cls with oxbow := s.cls.oxbow ++ [o] } }
  | .one x => s.askCopies d d.spread e.trace 0 [([x], e.pick)]
  | .punt r => s.askCopies d false e.trace r [([.punt], e.pick)]
  | .flood bd ingress =>
    let w := smGet regFactory e.regs (0x1810000 + bd)
    let f : Flood :=
      { arr := d.arr, base := fld w 43 24, len := fld w 23 12, ingress := ingress, cls := d.cls, de := d.de,
        hash := d.hash, copy := e.copy, trace := e.trace, next := 0, got := [] }
    { s.bump 0x180001C 1 with cls := { s.cls with floods := s.cls.floods ++ [f] } }

/-- The state as a decision sees it: registers, tables and port losses of its entry tick (R22, R195, R361). -/
def State.decView (s : State) (e : PipeDec) : State :=
  { s with regs := e.regs, tbl := e.tbl, flt := { s.flt with portHs := e.portHs, portRetry := e.portRetry } }

/-- A decision is delivered: 5 ticks after the packet entered a pipe, and 9 after it re-entered one, its second parse among
them (R6, Table 1.4). -/
def State.decided (s : State) (e : PipeDec) : State :=
  let (d, s) := s.decidePkt (s.decView e) e.pipe e.copy e.second e.arr
  s.deliver d e

/-- The first of some decisions in ascending pipe order, and of one pipe the one that entered first. -/
def insertDec (e : PipeDec) : List PipeDec → List PipeDec
  | [] => [e]
  | x :: l => if e.pipe < x.pipe then e :: x :: l else x :: insertDec e l

/-- The decisions due in this tick are delivered, in ascending pipe order (R358). -/
def State.decisionsDue (s : State) : State :=
  let due := (s.cls.deciding.filter (fun e => Nat.ble e.due s.now)).foldl (fun l e => insertDec e l) []
  due.foldl State.decided { s with cls := { s.cls with deciding := s.cls.deciding.filter (fun e => !Nat.ble e.due s.now) } }

/-! ### The distributor (R343) -/

/-- A lookup pipe takes packets. -/
def State.pipeUp (s : State) (p : Nat) : Bool :=
  !smGet (fun _ => false) s.flt.pipes p && !smGet (fun _ => false) s.flt.pipeRetry p

/-- The oldest arrival of a source, where it is parsed by tick `n`. -/
def State.headOf (s : State) (n src : Nat) : Option Arrival :=
  (s.cls.arrivals.find? (fun a => a.src == src)).filter (fun a => a.ready.any (fun r => Nat.ble r n))

/-- The arrival that the distributor admits at tick `n`: sources round-robin, each in order of arrival. -/
def State.nextArrival (s : State) (n : Nat) : Option Arrival :=
  let l := sortNat (s.cls.arrivals.map (·.src))
  ((l.filter (Nat.blt s.cls.rr ·)) ++ (l.filter (fun x => Nat.ble x s.cls.rr))).findSome? (s.headOf n)

/-- The tick at which the next packet head can enter a pipe: the present one, or that in which the first head is parsed. -/
def State.headAt (s : State) : Option Nat :=
  match (sortNat (s.cls.arrivals.map (·.src))).filterMap (fun src =>
      (s.cls.arrivals.find? (fun a => a.src == src)).bind (·.ready)) with
  | [] => none
  | r :: l => some (max s.now (l.foldl min r))

/-- A packet enters a pipe; its decision will be delivered after `n` ticks. -/
def State.enterPipe (s : State) (pipe n : Nat) (a : Arrival) (copy second : Bool) (entered : Nat) (trace : Option Nat)
    (pick : Nat) : State :=
  let e : PipeDec :=
    { pipe := pipe, entered := entered, due := s.now + n, arr := a, copy := copy, second := second, trace := trace,
      pick := pick, regs := s.start.regs, tbl := s.start.tbl, portHs := s.start.flt.portHs,
      portRetry := s.start.flt.portRetry }
  { s with cls := { s.cls with deciding := s.cls.deciding ++ [e] } }

/-- Arrival `a` enters a pipe for its first decision, stamped with the copy active at the start of the tick (R362). -/
def State.firstPass (s : State) (pipe : Nat) (a : Arrival) (pick : Nat) : State :=
  let s := { s with cls := { s.cls with
    arrivals := s.cls.arrivals.filter (fun x => x.id != a.id), rr := a.src } }
  let s := s.traceStage a.burst 7
  let (trace, s) := s.tag pipe a
  s.enterPipe pipe 5 a s.atStart.stampCopy false s.now trace pick

/-- The Oxbow packet that re-enters first: 20 ns after its first decision. -/
def State.nextOx (s : State) : Option OxPacket :=
  s.cls.oxbow.foldl (fun (m : Option OxPacket) o =>
    match m with
    | some x => if o.at_ < x.at_ then some o else m
    | none => some o) none

/-- An Oxbow packet re-enters a pipe, changed by its OXOP, for a second parse and decision (R359, R360). DEDUCED (entry 93):
its second entry tick is that of the re-entry. -/
def State.secondPass (s : State) (pipe : Nat) (o : OxPacket) (pick : Nat) : State :=
  let s := { s with cls := { s.cls with oxbow := s.cls.oxbow.filter (fun x => x.arr.id != o.arr.id) } }
  let v := s.atStart.see o.arr
  match oxop o.oxop v.parsed o.arr.octets with
  | none => (s.bump 0x1400418 1).traceEnds o.trace true false false
  | some bs =>
    let a := { o.arr with
      octets := bs, len := o.arr.len + bs.length - o.arr.octets.length, reqClass := 2, reqIndex := pipe }
    s.enterPipe pipe 9 a o.copy true o.entered o.trace pick

/-- The Oxbow packets that are due re-enter, ahead of arriving packets; where no row has named its pipe, one takes the lowest that is
in service, and its packet the first free cell. DESIGN CHOICE (entry 141). -/
def State.oxDue (s : State) : State :=
  match (if s.traffic then (List.range 32).find? s.pipeUp else none) with
  | none => s
  | some p =>
    (s.cls.oxbow.filter (fun o => Nat.ble (o.at_ + 20) s.now)).foldl (fun s o => s.secondPass p o 0) s

/-- Re-entries to come, by tick. -/
def State.oxDues (s : State) : List Nat :=
  if s.traffic && (List.range 32).any s.pipeUp then s.cls.oxbow.map (fun o => o.at_ + 20) else []

/-! ### Replication (R401) -/

/-- Slot `i` of the flood lists. -/
def State.floodSlot (s : State) (i : Nat) : Nat :=
  let w := s.raw (0x1900000 + i / 3)
  if i % 3 = 0 then fld w 47 32 else if i % 3 = 1 then fld w 31 16 else fld w 15 0

/-- Entry `i` of the list of a flooded packet is read, as it and its LAG state stood at the start of the tick; a destination that
is down is counted (R382, R401). -/
def State.floodEntry (s : State) (f : Flood) (i : Nat) : Flood × State :=
  let b := s.atStart
  let p := b.floodSlot (f.base + i)
  let w := b.raw (adBport p 0)
  let f := { f with next := i + 1 }
  if !bitOf w 47 || f.ingress == some p then (f, s)
  else
    match b.resolve f.copy (b.see f.arr) (fld w 44 43) (fld w 42 24) (fld w 23 8) f.cls with
    | some d => ({ f with got := f.got ++ [d] }, s)
    | none => (f, s.destDown)

/-- The next 3 entries of the list of a flooded packet are read. -/
def State.floodRead (s : State) (f : Flood) : State :=
  let r := (List.range (min 3 (f.len - f.next))).foldl (fun (r : Flood × State) _ => r.2.floodEntry r.1 r.1.next) (f, s)
  { r.2 with cls := { r.2.cls with floods := r.2.cls.floods.map (fun x => if x.arr.id = f.arr.id then r.1 else x) } }

/-- The floods whose lists are being read: of each input the oldest that is not complete (R401). -/
def State.floodsRead (s : State) : List Flood :=
  let open_ := s.cls.floods.filter (fun f => Nat.blt f.next f.len)
  (sortNat (open_.map (fun f => inputOf f.arr.src))).filterMap (fun k => open_.find? (fun f => inputOf f.arr.src == k))

/-- The core-port copies of a flooded packet are made in ascending core port; only the first is traced (R521). -/
def State.replicate (s : State) (f : Flood) (picks : List Nat) : State :=
  let s := { s with cls := { s.cls with floods := s.cls.floods.filter (fun x => x.arr.id != f.arr.id) } }
  let outs := sortNat (f.got.map s.outputOf)
  let d : Decision :=
    { verdict := .drop, arr := f.arr, action := none, hash := f.hash, de := f.de, spread := false, cls := f.cls }
  if f.got.isEmpty then s.traceEnds f.trace true false false
  else s.askCopies d false f.trace 0 ((outs.zip (List.range outs.length)).map (fun x =>
    (f.got.filter (fun y => s.outputOf y == x.1), nth picks x.2 0)))

/-! ### Later cells (R408) -/

/-- The octets of cell `n` of the packet, a later one, are present: those of a whole cell, or its last ones. -/
def Packet.cellHere (p : Packet) (n : Nat) : Bool :=
  !p.cells.isEmpty && Nat.blt (128 * n) p.len && Nat.ble (min (128 * (n + 1)) p.len) p.octets.length

/-- Later cells of packet `i` requested in this tick. -/
def State.cellsAsked (s : State) (i : Nat) : Nat :=
  (s.cls.requests.filter (fun r => match r.ask with
    | .later k _ => k == i
    | _ => false)).length

/-- The next cell of packet `i` is requested. -/
def State.laterCell (s : State) (i pick : Nat) : State :=
  match s.pkt i with
  | none => s
  | some p =>
    if p.cellHere (p.cells.length + s.cellsAsked i) then s.ask p.reqClass p.reqIndex (.later i pick) else s

/-- A later cell of packet `i` is granted and enters Confluence, or the packet is cut. -/
def State.giveLater (s : State) (i pick : Nat) : State :=
  match s.pkt i with
  | none => s
  | some p =>
    if !p.cellHere p.cells.length then s
    else
      match s.grantCell p.part pick with
      | (some c, s) =>
        (s.modPkt i (fun p => { p with cells := p.cells ++ [c] })).enterInput i p.cells.length
      | (none, s) =>
        ((s.bump 0x1D00401 1).makeBad p.grp false).cutPkt i p.cells.length

/-! ### Grants (R409) -/

/-- The host's reference to a held buffer is released. -/
def State.releaseHeld (s : State) (i : Nat) : State := (s.modPkt i (fun p => { p with held := false })).unref i

/-- Request one cell for each of `n` cells of packet `i`, all in this tick; none where one is refused. -/
def State.grantAll (s : State) (i part : Nat) : Nat → List Nat → Option State
  | 0, _ => some s
  | n + 1, picks =>
    match s.grantCell part (nth picks 0 0) with
    | (none, _) => none
    | (some c, s) => grantAll (s.modPkt i (fun p => { p with cells := p.cells ++ [c] })) i part n (picks.drop 1)

/-- The cells of an injected frame: all are granted and it enters Confluence, or none and its command ends (R427). -/
def State.giveWhole (s : State) (i : Nat) (held : Option Nat) (picks : List Nat) : State :=
  match s.pkt i with
  | none => s
  | some p =>
    let n := ceilDiv p.len 128
    match s.grantAll i p.part n picks with
    | none =>
      let s := s.setPkt i none
      (match s.findExec (fun w => w == .inject i) with
        | some (q, _) => s.endExec q stRejectFull 0 0
        | none => s)
    | some s =>
      let s := (List.range n).foldl (fun s k =>
        if (s.pkt i).any (fun p => Nat.blt k p.cells.length) then s.enterInput i k else s) s
      match held with
      | some j => s.releaseHeld j
      | none => s

/-- A request is answered; all copies of one packet are one group. -/
def State.answer (s : State) (r : CellReq) : State :=
  match r.ask with
  | .later i pick => s.giveLater i pick
  | .whole i held picks => s.giveWhole i held picks
  | .copies a akind index hash de spread trace reason l =>
    let g := s.cat.next
    let outs := l.zip (List.range l.length)
    outs.foldl (fun s x =>
      s.makeCopy a akind index hash de spread (if x.2 = 0 then trace else none) reason g x.1.1 x.1.2) s

/-- A request behind those that come before it in the order of R409, and behind its requester's earlier ones. -/
def insertReq (r : CellReq) : List CellReq → List CellReq
  | [] => [r]
  | x :: l =>
    if r.cls < x.cls ∨ (r.cls = x.cls ∧ r.index < x.index) then r :: x :: l else x :: insertReq r l

/-- The requests of a tick are answered, in requester order (R409). -/
def State.grants (s : State) : State :=
  (s.cls.requests.foldl (fun l r => insertReq r l) []).foldl State.answer { s with cls := { s.cls with requests := [] } }

/-! ### The cyclic pattern (R394 to R398) -/

/-- A middle queue, by middle, output and whether it is the spread one. -/
def midKey (m o : Nat) (spread : Bool) : Nat := (64 * m + o) * 2 + b2n spread

/-- What waits in a middle queue. -/
def Confluence.mid (c : Confluence) (m o : Nat) (spread : Bool) : List FCell :=
  smGet (fun _ => []) c.middles (midKey m o spread)

/-- A middle queue has room: 6 pinned or 2 spread cells. -/
def Confluence.midRoom (c : Confluence) (m o : Nat) (spread : Bool) : Bool :=
  Nat.blt (c.mid m o spread).length (if spread then 2 else 6)

/-- The first of each kind of cell that an input may send to middle `m`: the head of its pinned queue for `m` and the
head of each spread queue, where there is room. -/
def Confluence.heads (c : Confluence) (m : Nat) (l : List FCell) : List FCell :=
  let pin := (l.find? (fun x => !x.spread && x.middle == m)).toList
  let outs := (l.filter (·.spread)).map (·.output)
  let spr := (sortNat outs).filterMap (fun o => l.find? (fun x => x.spread && x.output == o))
  (pin ++ spr).filter (fun x => c.midRoom m x.output x.spread)

/-- The oldest cell, and of equally old ones that of the lower output. -/
def oldestCell (l : List FCell) : Option FCell :=
  l.foldl (fun (m : Option FCell) x =>
    match m with
    | some y => if x.age < y.age ∨ (x.age = y.age ∧ x.output < y.output) then some x else m
    | none => some x) none

/-- What input `i` sends to the middle that it meets in slot `t`. -/
def Confluence.inputSends (c : Confluence) (i t : Nat) : Option FCell :=
  oldestCell (c.heads ((i + t) % 64) (smGet (fun _ => []) c.inputs i))

/-- What middle `m` sends to the output that it meets in slot `t`. -/
def Confluence.midSends (c : Confluence) (m t : Nat) : Option FCell :=
  let o := (m + t) % 64
  (c.mid m o true).head?.or (c.mid m o false).head?

/-- A cell moves from its input to middle `m`. -/
def Confluence.toMiddle (c : Confluence) (i m : Nat) (x : FCell) : Confluence :=
  let k := midKey m x.output x.spread
  { c with
    inputs := smSet (fun _ => []) c.inputs i ((smGet (fun _ => []) c.inputs i).filter (· != x)),
    middles := smSet (fun _ => []) c.middles k (smGet (fun _ => []) c.middles k ++ [x]) }

/-- A cell leaves middle `m`. -/
def Confluence.fromMiddle (c : Confluence) (m : Nat) (x : FCell) : Confluence :=
  let k := midKey m x.output x.spread
  { c with middles := smSet (fun _ => []) c.middles k ((smGet (fun _ => []) c.middles k).drop 1) }

/-- Octets of packet `i` come to the open page that it is stored in (R417). -/
def State.pageGrows (s : State) (i : Nat) : State :=
  s.dqBusy.foldl (fun s h =>
    let q := s.dq h
    if (q.openPage.bind s.page).any (fun g => g.pkts.contains i) then s.setDq h { q with lastAdd := s.now } else s) s

/-- A cell comes out at its output. -/
def State.cellOut (s : State) (x : FCell) : State :=
  let s := s.monEv 18 x.output 2 1
  match s.pkt x.pkt with
  | none => s
  | some p =>
    let s := (s.modPkt x.pkt (fun p => { p with arrived := p.arrived + 1 })).pageGrows x.pkt
    if x.n = 0 then s.traceStage p.trace 4 else s

/-- The held cell whose number comes next in its pair, if any. -/
def Confluence.nextInSeq (c : Confluence) (o : Nat) : Option (FCell × Nat) :=
  (smGet (fun _ => []) c.reseq o).find? (fun x =>
    x.1.seq == smGet (fun _ => 0) c.seqOut (64 * x.1.input + o))

/-- The resequencer of output `o` releases what is in sequence. -/
def State.releaseSeq : Nat → State → Nat → State
  | 0, s, _ => s
  | k + 1, s, o =>
    match s.cfl.nextInSeq o with
    | none => s
    | some x =>
      let key := 64 * x.1.input + o
      let c := s.cfl
      let s := { s with cfl := { c with
        reseq := smSet (fun _ => []) c.reseq o ((smGet (fun _ => []) c.reseq o).filter (· != x)),
        seqOut := smSet (fun _ => 0) c.seqOut key ((x.1.seq + 1) % 4096) } }
      releaseSeq k ((s.cellOut x.1).monEv 18 o 3 1) o

/-- A cell reaches its output stage at the end of the slot. -/
def State.atOutput (s : State) (x : FCell) : State :=
  if x.spread then
    let c := s.cfl
    let l := smGet (fun _ => []) c.reseq x.output ++ [(x, s.now)]
    { s with cfl := { c with reseq := smSet (fun _ => []) c.reseq x.output l } }.releaseSeq l.length x.output
  else s.cellOut x

/-- A cell of packet `i` has not been granted yet. -/
def State.cellsToCome (s : State) (i : Nat) : Bool :=
  (s.pkt i).any (fun p => !p.cells.isEmpty && Nat.blt (128 * p.cells.length) p.len)

/-- A cell has left its input: with the last cell of an injected packet its INJECT retires, whatever has become of the
packet (R427). -/
def State.leftInput (s : State) (x : FCell) : State :=
  if (s.cflIn x.input).any (fun y => y.pkt == x.pkt) || s.cellsToCome x.pkt then s else s.injected x.pkt

/-- One slot of Confluence: every input and every middle sends by the state at its start. -/
def State.cflSlot (s : State) : State :=
  let t := s.now % 64
  let c := s.cfl
  let ins := (c.inputs.map (·.1)).filterMap (fun i => (c.inputSends i t).map (fun x => (i, x)))
  let outs := (sortNat (c.middles.map (fun (x : Nat × List FCell) => x.1 / 128))).filterMap (fun m =>
    (c.midSends m t).map (fun x => (m, x)))
  let c := outs.foldl (fun c x => c.fromMiddle x.1 x.2) c
  let c := ins.foldl (fun c x => c.toMiddle x.1 ((x.1 + t) % 64) x.2) c
  let s := { s with cfl := { c with lastSlot := some s.now } }
  let s := outs.foldl (fun s x => s.atOutput x.2) s
  ins.foldl (fun s x => s.leftInput x.2) s

/-- The cells of a stage without cell `n` of packet `i`; the packet's later cells move up by one. -/
def cellsWithout (i n : Nat) (l : List FCell) : List FCell :=
  (l.filter (fun x => !(x.pkt == i && x.n == n))).map (fun x =>
    if x.pkt = i ∧ n < x.n then { x with n := x.n - 1 } else x)

/-- Confluence without cell `n` of packet `i`. -/
def Confluence.without (c : Confluence) (i n : Nat) : Confluence :=
  let stage (m : SMap (List FCell)) : SMap (List FCell) :=
    (m.map (fun (x : Nat × List FCell) => (x.1, cellsWithout i n x.2))).filter (fun x => !x.2.isEmpty)
  let held (l : List (FCell × Nat)) : List (FCell × Nat) :=
    (l.filter (fun x => !(x.1.pkt == i && x.1.n == n))).map (fun x =>
      if x.1.pkt = i ∧ n < x.1.n then ({ x.1 with n := x.1.n - 1 }, x.2) else x)
  { c with
    inputs := stage c.inputs, middles := stage c.middles,
    reseq := (c.reseq.map (fun (x : Nat × List (FCell × Nat)) => (x.1, held x.2))).filter (fun x => !x.2.isEmpty) }

/-- The packet without the octets of cell `n`. -/
def Packet.without (p : Packet) (n : Nat) : Packet :=
  { p with
    cells := p.cells.eraseIdx n, octets := p.octets.take (128 * n) ++ p.octets.drop (128 * (n + 1)),
    len := p.len - (min (128 * (n + 1)) p.len - min (128 * n) p.len) }

/-- Cell `n` of packet `i` is lost inside Confluence and its Catchment cell freed: the packet is bad and lacks its octets
(R400, R403). One that has no cell left is gone. -/
def State.loseCell (s : State) (i n : Nat) : State :=
  match s.cflCells.find? (fun x => x.pkt == i && x.n == n), s.pkt i with
  | some x, some p =>
    let s := (s.makeBad p.grp false).freeCells p.part ((p.cells[n]?).toList)
    let s := { s.modPkt i (fun p => p.without n) with cfl := s.cfl.without i n }
    let s := if p.cells.length ≤ 1 then s.killPkt i else s
    s.leftInput x
  | _, _ => s

/-- The resequencer of output `o` skips the missing numbers below its longest-held cell (R399). -/
def State.reseqSkip (s : State) (o : Nat) (x : FCell) : State :=
  let key := 64 * x.input + o
  let c := s.cfl
  let next := smGet (fun _ => 0) c.seqOut key
  let l := (smGet (fun _ => []) c.reseq o).filter (fun y => y.1.input == x.input)
  let d (n : Nat) : Nat := (n + 4096 - next) % 4096
  let below := (l.filter (fun y => decide (d y.1.seq < d x.seq))).length
  let s := s.bump (0x1C00003 + 4 * o) (d x.seq - below)
  let goes := l.filter (fun y => decide (d y.1.seq ≤ d x.seq))
  let s := (List.range (d x.seq + 1)).foldl (fun s k =>
    match goes.find? (fun y => d y.1.seq == k) with
    | some y =>
      let c := s.cfl
      ({ s with cfl := { c with
        reseq := smSet (fun _ => []) c.reseq o ((smGet (fun _ => []) c.reseq o).filter (· != y)) } }.cellOut
          y.1).monEv 18 o 3 1
    | none => s) s
  let c := s.cfl
  { s with cfl := { c with seqOut := smSet (fun _ => 0) c.seqOut key ((x.seq + 1) % 4096) } }.releaseSeq 128 o

end Sys2Proof.Machine
end

