-- ==== Sys2Proof/Machine/BufCmds.lean ====
section
/-! DEFINITION. The rules of BUF_OP: INJECT and RETURN (R121, R412, R413, R425 to R427). -/

namespace Sys2Proof.Machine

/-- OP of a BUF_OP. -/
def bufOp (c : Cmd) : Nat := c.arg 31 28

/-- A buffer pointer fails the range or alignment check (R406). -/
def pointerBad (w : Word) : Bool := fld w 6 0 != 0 || Nat.ble 201326592 (fld w 27 0)

/-- The buffer held for the host whose head cell a pointer names: the packet's number. -/
def State.heldAt (s : State) (w : Word) : Option Nat :=
  (s.cat.pkts.find? (fun x => x.2.any (fun p => p.held && p.cells.head? == some (fld w 27 0 / 128)))).map (·.1)

/-- The references of a buffer. -/
def State.refsOf (s : State) (i : Nat) : Nat :=
  match s.pkt i with
  | some p => p.refs
  | none => 0

/-- The row RETURN of BUF_OP; it also takes the reserved sub-operations. -/
def bufReturnRow (c : Cmd) : Option CmdRule :=
  let op := bufOp c
  if op = 0 then none
  else some
    { opcode := 0x1D,
      form := formCheck c 0xF0000000 0 (c.ops.length == 1 || (op != 1 && c.ops.length == 3)) (if op = 1 then [maskOf 47 28] else []),
      priv := privOper, spMay := false, legal := legalUp, args := fun _ _ => op == 1,
      run := fun s _ _ =>
        if pointerBad (c.op 0) then .viol 0x09 (c.op 0) (c.op 0) s
        else
          match s.heldAt (c.op 0) with
          | none => .fin stNotFound 0 0 s
          | some i => .done (s.releaseHeld i) 0 (s.refsOf i - 1) }

/-! ### INJECT -/

/-- Fields of the directive (Table 12.4). -/
def dirFromPtr (d : Word) : Bool := bitOf d 47
def dirClassify (d : Word) : Bool := bitOf d 46

/-- The arguments of an INJECT are in range. DESIGN CHOICE (entry 100): a reserved bit of the directive that is set ends the
command with REJECT_ARG, as R426 says, although R14 would make the header malformed. -/
def injectArgs (c : Cmd) : Bool :=
  let d := c.op 2
  (if dirFromPtr d then c.op 1 == 0 else inRange 60 9596 (c.op 1).toNat) && fld d 42 41 != 2 && fld d 5 0 == 0 &&
    (!dirClassify d || fld d 45 0 == 0)

/-- The arrival that an injected frame is classified as. -/
def injectArrival (q : Nat) (bs : List Byte) : Arrival :=
  { id := 0, src := 512, octets := bs, len := bs.length, ended := true, bad := false, xgem := 0, onu := 0, reqClass := 0,
    reqIndex := q, slow := false, burst := none, ready := none }

/-- A frame goes unclassified to its destination: every cell of it is requested in this tick (R409, R427). -/
def State.injectTo (s : State) (q : Nat) (d : Word) (bs : List Byte) (taken : Nat) (held : Option Nat)
    (picks : List Nat) : Ran :=
  let copied (s : State) : State :=
    match held with
    | some i => s.releaseHeld i
    | none => s
  match s.resolve s.activeCopy (s.see (injectArrival q bs)) (fld d 42 41) (fld d 40 22) (fld d 21 6) (fld d 45 43) with
  | none => .done (copied s.destDown) taken 0
  | some dest =>
    let part := s.partOf dest
    let i := s.cat.next
    let p : Packet :=
      { grp := i, octets := bs, len := bs.length, ended := true, input := 31, output := s.outputOf dest, part := part,
        cells := [], arrived := 0, dests := [dest], refs := 1, held := false, bad := false, cut := false,
        dequeued := false, spread := false, hash := q, de := false, src := 512, decided := s.now, reason := 0, akind := 3,
        index := 0, spills := 0, punted := false, arr := 0, reqClass := 0, reqIndex := q,
        trace := none, inject := some q }
    .wait taken (.inject i) ((s.addPkt p).ask 0 q (.whole i held picks))

/-- Carry out an INJECT of a frame. -/
def State.injectFrame (s : State) (q : Nat) (d : Word) (bs : List Byte) (taken : Nat) (held : Option Nat)
    (picks : List Nat) : Ran :=
  if dirClassify d then
    let s := s.arrive (injectArrival q bs)
    .done (match held with
      | some i => s.releaseHeld i
      | none => s) taken 0
  else s.injectTo q d bs taken held picks

/-- What INJECT does (R425 to R427). -/
def injectWork (c : Cmd) (octets : List Byte) (picks : List Nat) (s : State) : Ran :=
  let d := c.op 2
  let q := c.port.num
  if dirFromPtr d then
    if pointerBad (c.op 0) then .viol 0x09 (c.op 0) (c.op 0) s
    else
      match s.heldAt (c.op 0) with
      | none => .fin stNotFound 0 0 s
      | some i =>
        match s.pkt i with
        | none => .fin stNotFound 0 0 s
        | some p => s.injectFrame q d p.octets p.len (some i) picks
  else
    let n := (c.op 1).toNat
    s.injectFrame q d (withFcs (takePad n 0 octets)) n none picks

/-- One tick of the transfer of the frame of an INJECT from the host, `left` being to come with it; then it is injected. -/
def injectTick (c : Cmd) (octets : List Byte) (picks : List Nat) (left : Nat) (s : State) : Ran :=
  if left ≤ 1 then injectWork c octets picks s else .wait 0 (.work 0 (.inject c octets picks (left - 1))) s

/-- The row INJECT of BUF_OP. -/
def injectRow (c : Cmd) (io : HostIo) (picks : List Nat) : Option CmdRule :=
  if bufOp c ≠ 0 then none
  else some
    { opcode := 0x1D,
      form := formCheck c 0xF0000000 0 (c.ops.length == 3) (if dirFromPtr (c.op 2) then [maskOf 47 28] else []),
      priv := privOper, spMay := false, legal := fun s => s.mode == .flow || s.mode == .weir,
      args := fun _ _ => injectArgs c,
      run := fun s _ _ =>
        if io.took = 0 ∨ dirFromPtr (c.op 2) then injectWork c io.octets picks s
        else .wait 0 (.work 0 (.inject c io.octets picks io.took)) s }

end Sys2Proof.Machine
end

