-- ==== Sys2Proof/Machine/BurstRx.lean ====
section
/-! DEFINITION. The burst receiver: candidates and headers (R275, R276, R282, R287 to R292), the decoding of the elements of a
burst (R280, R281, R293, R294), delineation (R295 to R297), decryption and forwarding (R301, R302). -/

namespace Sys2Proof.Machine

/-! ### Candidates (R275, R288) -/

/-- The fields of a burst header (Table 8.2); a G.9804.2 header gives the ONU-ID alone (R290). -/
structure BurstHdr where
  onuId : Nat
  lane : Nat
  version : Nat
  first : Nat
  len : Nat
  dg : Bool
deriving DecidableEq, Repr

/-- The burst header that two structures spell, where they check (R276, R282, R288). -/
def State.readHdr (s : State) (t : Nat) (h1 h2 : BitVec 64) : Option BurstHdr :=
  if s.torrent t then
    match hecFix h1, hecFix h2 with
    | some a, some b =>
      some { onuId := bitsOf a.toNat 63 54, lane := bitsOf a.toNat 53 53, version := bitsOf a.toNat 52 49,
             first := bitsOf a.toNat 48 32, len := bitsOf b.toNat 63 47, dg := b.getLsbD 46 }
    | _, _ => none
  else
    (Config.gponOnuId h1).map (fun i => { onuId := i.toNat, lane := 0, version := 0, first := 0, len := 0, dg := false })

/-- The bit that a symbol is compared by: its first Gray bit in TORRENT. -/
def State.symBit (s : State) (t : Nat) (x : BitVec 2) : Bool := if s.torrent t then x.getLsbD 1 else x.getLsbD 0

/-- Symbols of a candidate that differ from the delimiter pattern of rate `r` (R275, R288). -/
def State.mismatches (s : State) (t l r : Nat) (symbols : List (BitVec 2)) : Nat :=
  let n := s.dlmLen t l r
  let pat := fld (s.prof t l r) 15 0 * 2 ^ 48 + (s.raw (adBrx t l (0x10 + 2 * r))).toNat
  ((List.range n).filter (fun i => pat.testBit (n - 1 - i) != s.symBit t (nth symbols i 0))).length

/-- The response last accepted on lane `l` keeps the search closed at position `p`: its lane time holds it (R287, R291). -/
def State.answering (s : State) (t l p : Nat) : Bool :=
  (s.lane t l).answers.any (fun x => Nat.ble (x.begins - s.blkPos t (s.dhBlk t l x.rate)) p && Nat.blt p x.fin)

/-- The expected item of lane `l` for which the search is open at position `p` (R286, R287). -/
def State.findExpect (s : State) (t l p : Nat) : Option Expect :=
  (s.lane t l).expects.find? (fun e =>
    e.state == 0 && s.inWindow t l e p && s.dlmLen t l e.rate != 0 && !(e.kind == 1 && s.answering t l p))

/-- The header of a burst is as R290 asks. -/
def State.hdrOk (s : State) (t l : Nat) (e : Expect) (h : BurstHdr) : Bool :=
  let own := h.onuId == s.rf (adOnu e.onu 0) 37 28
  let len := if e.kind = 0 then e.fin - e.first else s.plmBlk t e.rate
  if s.torrent t then own && h.lane == l && h.version == 1 && h.first == e.first && h.len == len else own

/-- The first delimiter accepted in a window begins at position `p`: PRSSI counts from it (R284). -/
def State.noteDelim (s : State) (t l : Nat) (e : Expect) (p : Nat) : State :=
  s.setExpect t l e (fun e => { e with delim := some (e.delim.getD p) })

/-- The burst clock of lane `l` is recovered at `rate` (Table 1.2). -/
def State.recoverClock (s : State) (t l rate : Nat) : State :=
  let x := s.lane t l
  if x.clocks.head?.map (·.2) = some rate then s else s.setLane t l { x with clocks := (s.now, rate) :: x.clocks }

/-- A burst accepted at position `p` in a granted burst or a ranging window (R289, R292, R299). -/
def State.acceptBurst (s : State) (t l : Nat) (e : Expect) (p : Nat) (h : BurstHdr) : State :=
  let delta : Int := ((p + s.blkPos t (s.dhBlk t l e.rate) : Nat) : Int) - (s.nominal t e e.first : Nat)
  let s := (s.setExpect t l e (fun e => { e with state := 1, delta := delta })).recoverClock t l e.rate
  let s := (s.bump (adBrx t l 0x40) 1).monEv 13 (2 * t + l) 2 1
  let s := if s.torrent t && h.dg then s.notice 0x341 e.onu (l * 2 ^ 23) else s
  let s := s.setLoss e.onu l 0
  if e.kind = 0 then
    ((s.bumpSet 2 e.onu 4 1).track t l e.onu (roundDiv delta uPos)).traceStage e.trace 3
  else s

/-! ### Responses in QUIET windows (R260, R263, R291) -/

/-- How far the lane time of written QUIET windows reaches from position `x` on without a gap. -/
def State.quietEnd (s : State) (t l : Nat) : Nat → Nat → Nat
  | 0, x => x
  | k + 1, x =>
    let y := ((s.lane t l).expects.filter (fun e => e.kind == 1 && decide ((s.window t l e).1 ≤ (x : Int)))).foldl
      (fun m e => max m (s.window t l e).2.toNat) x
    if y ≤ x then x else quietEnd s t l k y

/-- A burst in QUIET lane time that is no serial-number response (R260). -/
def State.snBad (s : State) (t : Nat) : State := s.bump (adTree t 0x4011) 1

/-- The values that the header of a response must carry (R291); FIRST is compared where the lane has had a serial-number
grant. -/
def State.snHdrOk (s : State) (t l : Nat) (g : Option Expect) (h : BurstHdr) : Bool :=
  h.onuId == 1023 && (!s.torrent t ||
    (h.lane == l && h.version == 1 && g.all (fun e => h.first == e.first) && h.len == s.plmBlk t 3))

/-- A response to grant `g` is accepted: its lane time begins at position `begins`. -/
def State.takeAnswer (s : State) (t l : Nat) (e g : Expect) (p begins : Nat) : State :=
  let s := ((s.bump (adBrx t l 0x40) 1).monEv 13 (2 * t + l) 2 1).noteDelim t l e p
  let x : Answer :=
    { begins := begins, fin := begins + s.blkPos t (s.plmBlk t g.rate), rate := g.rate, sfc := g.sfc,
      delta := (begins : Int) - (s.nominal t g g.first : Nat) }
  let s := (s.setLane t l { s.lane t l with answers := (s.lane t l).answers ++ [x] }).recoverClock t l g.rate
  s.setExpect t l e (fun e => { e with fins := e.fins ++ [x.fin] })

/-- A header that checks, at position `p` in QUIET window `e`. The response is accepted where it follows its grant within SPAN
and lies wholly inside QUIET lane time. DESIGN CHOICE (entry 95): its DG gives no NOTICE, which would have no ONU handle to
carry. -/
def State.acceptQuiet (s : State) (t l : Nat) (e : Expect) (p : Nat) (h : BurstHdr) : State :=
  let begins := p + s.blkPos t (s.dhBlk t l e.rate)
  let g := s.lastSn t l begins
  if !s.snHdrOk t l g h then (s.bump (adBrx t l 0x44) 1).snBad t
  else
    match g with
    | none => s.snBad t
    | some g =>
      if s.rf (adTree t 0x4000) 18 0 * tickPos < begins - s.nominal t g g.first ∨
          s.quietEnd t l (s.lane t l).expects.length p < begins + s.blkPos t (s.plmBlk t g.rate) then s.snBad t
      else s.takeAnswer t l e g p begins

/-- A response to a ranging window that begins at position `p` ends inside the window (R263). -/
def State.fitsWindow (s : State) (t l : Nat) (e : Expect) (p : Nat) : Bool :=
  decide ((p + s.blkPos t (s.dhBlk t l e.rate + s.plmBlk t e.rate) : Nat) ≤ (s.window t l e).2)

/-- A ranging response that falls partly outside its window is lost (R263). DESIGN CHOICE (entry 127): it counts among the
consecutive lost bursts of its entry, and in no counter of Table 8.5, which has none for it; its window has a MISS record. -/
def State.overWindow (s : State) (t l : Nat) (e : Expect) : State :=
  (s.setExpect t l e (fun e => { e with state := 2 })).countLoss l e

/-- A candidate at position `p` of expected item `e`, in the tick that stamps its header check (R288 to R292, R298). -/
def State.candidate (s : State) (t l : Nat) (e : Expect) (p : Nat) (h1 h2 : BitVec 64) : State :=
  let s := s.monEv 13 (2 * t + l) 1 1
  match s.readHdr t h1 h2 with
  | none =>
    let s := (s.setExpect t l e (fun e => { e with rejected := e.rejected + 1 })).bump (adBrx t l 0x43) 1
    if e.kind = 1 then s.snBad t else s
  | some h =>
    if e.kind = 1 then s.acceptQuiet t l e p h
    else
      let s := s.noteDelim t l e p
      if !s.hdrOk t l e h then s.loseBurst t l e 0x44
      else if e.kind = 2 && !s.fitsWindow t l e p then s.overWindow t l e
      else s.acceptBurst t l e p h

/-! ### Lost bursts (R24, R298) -/

/-- The tick by which every candidate of a burst has been judged: the header check of one at the close of its search. -/
def State.closeTick (s : State) (t l : Nat) (e : Expect) : Nat := s.headerTick t l e.rate (s.window t l e).2.toNat

/-- The oldest written burst of lane `l` whose search has closed without an accepted candidate (Table 8.5). -/
def State.unanswered (s : State) (t l : Nat) : Option Expect :=
  (s.lane t l).expects.find? (fun e => e.kind == 0 && e.state == 0)

/-- It is lost: for want of a candidate, or of a header that checks. -/
def State.loseUnanswered (s : State) (t l : Nat) (e : Expect) : State :=
  s.loseBurst t l e (if e.rejected = 0 || s.dlmLen t l e.rate == 0 then 0x41 else 0x42)

/-- The accepted burst that lane `l` receives in this tick: its lane time, as it arrives, holds the tick. -/
def State.receiving (s : State) (t l : Nat) : Option Expect :=
  (s.lane t l).expects.find? (fun e =>
    let here := fun (b : Nat) => ((s.nominal t e b : Nat) : Int) + e.delta
    e.state == 1 && e.kind != 1 && decide (here e.first ≤ ((s.now * tickPos : Nat) : Int)) &&
      decide (((s.now * tickPos : Nat) : Int) < here e.fin))

/-- The lane-receive FIFO has filled: the burst being received is lost (R24). -/
def State.fifoLost (s : State) (t l : Nat) : State :=
  match s.receiving t l with
  | some e => (s.loseBurst t l e 0x45).fault 0x340 (2 * t + l) 0
  | none => s

/-- Where block FIRST of an accepted burst arrives. -/
def State.firstPos (s : State) (t : Nat) (e : Expect) : Nat := (((s.nominal t e e.first : Nat) : Int) + e.delta).toNat

/-- The line position `off` octets behind position `p` at rate `r`. -/
def State.octetPos (s : State) (t r p off : Nat) : Nat := p + off * (s.blkPos t 1 / s.blkOctets t r)

/-- What leaves a lane's decoder next: an element of an accepted burst, or the codeword of a response in a QUIET window; with
its line position. -/
inductive NextOut where
  | element (e : Expect) (x : Element) (pos : Nat)
  | answer (x : Answer)
deriving DecidableEq, Repr

/-- Its line position. -/
def NextOut.pos : NextOut → Nat
  | .element _ _ p => p
  | .answer x => x.begins

/-- The next element of an accepted burst. -/
def State.nextElement (s : State) (t : Nat) (e : Expect) : Option NextOut :=
  if e.state = 1 ∧ e.kind ≠ 1 then
    ((s.elements t e)[e.next]?).map (fun x => .element e x (s.octetPos t e.rate (s.firstPos t e) x.off))
  else none

/-- The element that leaves the decoder of lane `l` next, in line order (R293). -/
def State.nextOut (s : State) (t l : Nat) : Option NextOut :=
  let v := s.lane t l
  (v.expects.filterMap (s.nextElement t) ++ v.answers.map NextOut.answer).foldl (fun (m : Option NextOut) (x : NextOut) =>
    match m with
    | some y => if x.pos < y.pos then some x else m
    | none => some x) none

/-- The tick in which an element leaves the decoder. -/
def outTick (p r : Nat) : Nat := decodedAt p r / 311040

/-! ### Reports and messages (R279, R280, R294) -/

/-- An element has been corrected by `n` bits (R294). -/
def State.corrected (s : State) (t l n : Nat) : State :=
  if n = 0 then s else (s.bump (adBrx t l 0x46) 1).bump (adLaneStat t l 11) n

/-- The octets of an element as the decoder sees them: descrambled (R281, R282). -/
def State.descrambled (s : State) (t l onuId sfc off : Nat) (rx : List Byte) : List Byte :=
  if s.torrent t then descramble onuId l sfc off rx else Config.gponDescramble sfc onuId off rx

/-- The occupancy in a report block and the bits corrected: none where it is uncorrectable, and none within where its VERSION
is wrong. -/
def State.readReport (s : State) (t : Nat) (bs : List Byte) (fixed : Option (List Nat)) : Option (Option Nat × Nat) :=
  if s.torrent t then (rsDecode bs).map (fun x => (reportOcc x.1, x.2))
  else fixed.map (fun l => (Config.gponReport (flipBits l bs), l.length))

/-- A report block of an accepted burst has left the decoder. -/
def State.reportOut (s : State) (t l : Nat) (e : Expect) (x : Element) (pos : Nat) (bs : List Byte)
    (fixed : Option (List Nat)) : State :=
  match s.readReport t bs fixed with
  | some (some occ, n) =>
    let s := s.corrected t l n
    let r : ReportIn := { alloc := x.item.alloc, occ := occ, out := decodedAt pos e.rate, trace := e.trace }
    s.setLane t l { s.lane t l with reports := (s.lane t l).reports ++ [r] }
  | some (none, n) => (s.corrected t l n).bump (adBrx t l 0x48) 1
  | none => s.bump (adBrx t l 0x48) 1

/-- A PLOAM message has left the decoder. -/
def State.ploamOut (s : State) (t l : Nat) (m : PloamIn) : State :=
  s.setLane t l { s.lane t l with ploamIn := (s.lane t l).ploamIn ++ [m] }

/-! ### Delineation (R295 to R297) -/

/-- Alignment of headers and frames in octets. -/
def State.xgemUnit (s : State) (t : Nat) : Nat := if s.torrent t then 8 else 4

/-- The octets of a payload from offset `c` on, as far as they have come. -/
def Delin.at_ (d : Delin) (c n : Nat) : List Byte := (d.buf.drop (c - d.from_)).take n

/-- Octets of the payload that have come. -/
def Delin.avail (d : Delin) : Nat := d.from_ + d.buf.length

/-- The structure at payload offset `c`. -/
def Delin.header (d : Delin) (c : Nat) : BitVec 64 := BitVec.ofNat 64 (beNat (d.at_ c 8))

/-- PLI of an XGEM header. -/
def hdrPli (h : BitVec 64) : Nat := bitsOf h.toNat 63 50

/-- The end of the frame with header `h` at payload offset `c`. -/
def frameEnd (a c : Nat) (h : BitVec 64) : Nat := c + 8 + ceilDiv (hdrPli h) a * a

/-- What delineation does at its place: it waits for octets or is done, or it goes on, having released the frame with the
given offset and header, with increments of XGEM_FALSE and XGEM_UNCONF. -/
inductive DelinStep where
  | stop
  | go (release : Option (Nat × BitVec 64)) (falseHdr unconf : Nat) (d : Delin)

/-- The frame with header `h` at `c` becomes pending, or cannot be completed (the last part of the loop of R296); `rel` is the
frame that this header has confirmed. -/
def Delin.pend (d : Delin) (a c : Nat) (h : BitVec 64) (tentative : Bool) (rel : Option (Nat × BitVec 64)) : DelinStep :=
  let e := frameEnd a c h
  if e = d.n then .go rel 0 0 { d with pending := some (c, h), tentative := tentative, closing := true, c := e }
  else if d.n < e ∨ d.n - e < 8 then
    if tentative then .go rel 1 0 { d with pending := none, c := c + a }
    else .go rel 0 1 { d with pending := none, c := d.n }
  else .go rel 0 0 { d with pending := some (c, h), tentative := tentative, c := e }

/-- One turn of the loop of R296. -/
def Delin.step (d : Delin) (a : Nat) : DelinStep :=
  match d.pending with
  | some p =>
    if d.closing then
      if d.avail < d.n then .stop else .go (some p) 0 0 { d with pending := none, closing := false, c := d.n }
    else if d.avail < d.c + 8 then .stop
    else
      let h := d.header d.c
      match (if d.tentative then (if hecOk h then some h else none) else hecFix h) with
      | some h => d.pend a d.c h false (some p)
      | none =>
        if d.tentative then .go none 1 0 { d with pending := none, c := p.1 + a }
        else .go none 0 1 { d with pending := none, c := d.c + a }
  | none =>
    if d.n < d.c + 8 ∨ d.avail < d.c + 8 then .stop
    else
      let h := d.header d.c
      if hecOk h then d.pend a d.c h true none else .go none 0 0 { d with c := d.c + a }

/-- The line position of the end of payload octet `x` of an allocation, by its codewords. -/
def State.payloadPos (s : State) (t : Nat) (e : Expect) (start x : Nat) : Nat :=
  match (s.elements t e).find? (fun y =>
      y.what == 2 && y.item.start == start && Nat.ble y.from_ x && Nat.blt x (y.from_ + y.info)) with
  | some y => s.octetPos t e.rate (s.firstPos t e) (y.off + (x - y.from_) + 1)
  | none => 0

/-- A frame is released: an idle one is dropped without being counted (R297); `out` is when the codeword that confirmed it
left the decoder. Delineation and decryption take 14 ns (Table 1.5). -/
def State.releaseFrame (s : State) (t l : Nat) (e : Expect) (i : Item) (d : Delin) (out : Nat) (p : Nat × BitVec 64) :
    State :=
  let v := p.2.toNat
  if bitsOf v 47 32 = idlePort then s
  else
    let x : XgemIn :=
      { onu := i.onu, start := i.start, sfc := e.sfc, rate := e.rate, port := bitsOf v 47 32, keyIndex := bitsOf v 49 48,
        options := bitsOf v 31 14, lf := p.2.getLsbD 13, pli := hdrPli p.2, pos := p.1,
        payload := d.at_ (p.1 + 8) (hdrPli p.2),
        last := s.payloadPos t e i.start (frameEnd (s.xgemUnit t) p.1 p.2 - 1), ready := out + 14 * 311040, key := none,
        trace := e.trace }
    s.setLane t l { s.lane t l with released := (s.lane t l).released ++ [x] }

/-- Delineation runs as far as the octets reach; an unconfirmed frame of a chain ends the entry's SDUs (R296, R300). -/
def State.delineate (t l : Nat) (e : Expect) (i : Item) (out : Nat) : Nat → State → Delin → State × Delin
  | 0, s, d => (s, d)
  | k + 1, s, d =>
    match d.step (s.xgemUnit t) with
    | .stop => (s, d)
    | .go rel f u d' =>
      let s := match rel with
        | some p => s.releaseFrame t l e i d out p
        | none => s
      let s := (s.bump (adBrx t l 0x4A) f).bump (adBrx t l 0x4B) u
      delineate t l e i out k (if u = 0 then s else s.endSdus t (fun x => x.onu == i.onu)) d'

/-- Octets that delineation has done with are dropped. -/
def Delin.trim (d : Delin) : Delin :=
  let k := match d.pending with
    | some p => p.1
    | none => d.c
  { d with from_ := max d.from_ (min k d.avail), buf := d.buf.drop (min k d.avail - d.from_) }

/-- Delineation of a fresh payload of `n` octets. -/
def Delin.fresh (base start n : Nat) : Delin :=
  { base := base, start := start, n := n, from_ := 0, buf := [], c := 0, pending := none, tentative := false,
    closing := false }

/-- The state of delineation in which a data codeword finds the lane. -/
def State.delinOf (s : State) (t l : Nat) (e : Expect) (x : Element) : Delin :=
  match (s.lane t l).delin with
  | some d => if d.base = e.base ∧ d.start = x.item.start then d else Delin.fresh e.base x.item.start x.whole
  | none => Delin.fresh e.base x.item.start x.whole

/-- A data codeword has left the decoder: its information octets, or none where it is uncorrectable (R294). -/
def State.dataOut (s : State) (t l : Nat) (e : Expect) (x : Element) (pos : Nat) (info : Option (List Byte)) : State :=
  let d := s.delinOf t l e x
  match info with
  | some bs =>
    let d := { d with buf := d.buf ++ takePad x.info 0 bs }
    let r := State.delineate t l e x.item (decodedAt pos e.rate) (4 * (x.whole + 8)) s d
    r.1.setLane t l { r.1.lane t l with delin := some r.2.trim }
  | none =>
    let k := x.from_ + x.info
    let d := { d with pending := none, closing := false, c := k, from_ := k, buf := [] }
    let s := (s.bump (adBrx t l 0x47) 1).endSdus t (fun y => y.onu == x.item.onu)
    s.setLane t l { s.lane t l with delin := some d }

/-- An element of an accepted burst leaves the decoder: `rx` as it came from the line; `fixed` the bits that the LDPC decoder
corrected, or none where the codeword is uncorrectable (R30, R294). A report block of TORRENT is decoded here. -/
def State.elementOut (s : State) (t l : Nat) (e : Expect) (x : Element) (pos : Nat) (rx : List Byte)
    (fixed : Option (List Nat)) : State :=
  let s := s.setExpect t l e (fun e => { e with next := e.next + 1 })
  let bs := s.descrambled t l (s.rf (adOnu e.onu 0) 37 28) e.sfc x.off (takePad x.len 0 rx)
  if x.what = 0 then s.reportOut t l e x pos bs fixed
  else if x.what = 1 then
    match fixed with
    | some f =>
      let m : PloamIn :=
        { kind := e.kind, onu := e.onu, at_ := pos, rate := e.rate, delta := e.delta,
          msg := takePad 48 0 (flipBits f bs) }
      (s.corrected t l f.length).ploamOut t l m
    | none =>
      let s := s.bump (adBrx t l 0x49) 1
      if e.kind = 2 then s.setExpect t l e (fun e => { e with state := 2 }) else s
  else
    match fixed with
    | some f => (s.corrected t l f.length).dataOut t l e x pos (some (flipBits f bs))
    | none => s.dataOut t l e x pos none

/-- The codeword of a response in a QUIET window leaves the decoder. -/
def State.answerOut (s : State) (t l : Nat) (x : Answer) (rx : List Byte) (fixed : Option (List Nat)) : State :=
  let s := s.setLane t l { s.lane t l with answers := (s.lane t l).answers.erase x }
  let bs := s.descrambled t l 1023 x.sfc 0 (takePad (s.plmBlk t x.rate * s.blkOctets t x.rate) 0 rx)
  match fixed with
  | some f =>
    let m : PloamIn :=
      { kind := 1, onu := 0, at_ := x.begins, rate := x.rate, delta := x.delta, msg := takePad 48 0 (flipBits f bs) }
    (s.corrected t l f.length).ploamOut t l m
  | none => (s.bump (adBrx t l 0x49) 1).snBad t

/-! ### Released frames (R301, R302, R304) -/

/-- The tick in which a released frame has crossed into the core: 2 to 4 ns after its decryption (Table 1.5). -/
def releaseTick (x : XgemIn) : Nat := (x.ready + (20 + Config.crossing 1 x.ready % 21) * 31104) / 311040

/-- The tick in which delineation releases a frame: decryption takes the 10 ns after it (Table 1.5). -/
def XgemIn.keyTick (x : XgemIn) : Nat := (x.ready - 10 * 311040) / 311040

/-- The key of a released frame, as it stands at the start of the tick (R434, R435). -/
def State.xgemKey (s : State) (x : XgemIn) : Option (BitVec 128) :=
  let k := s.atStart.slot (2 * x.onu + x.keyIndex - 1)
  if x.keyIndex = 1 ∨ x.keyIndex = 2 then (if k.valid then some k.key else none) else none

/-- The keys of the frames that delineation releases in this tick are read (R435). -/
def State.keysRead (s : State) : State :=
  let read (l : List XgemIn) : List XgemIn :=
    l.map (fun x => if x.key.isNone && Nat.ble x.keyTick s.now then { x with key := some (s.xgemKey x) } else x)
  if (s.trees.all (fun x => x.2.lane0.released.isEmpty && x.2.lane1.released.isEmpty)) then s
  else s.trees.foldl (fun s x => s.setTree x.1 { s.tree x.1 with
    lane0 := { (s.tree x.1).lane0 with released := read (s.tree x.1).lane0.released },
    lane1 := { (s.tree x.1).lane1 with released := read (s.tree x.1).lane1.released } }) s

/-- The ticks of releases to come. -/
def State.keyDues (s : State) : List Nat :=
  s.trees.flatMap (fun x => ((x.2.lane0.released ++ x.2.lane1.released).filter (fun y => y.key.isNone)).map XgemIn.keyTick)

/-- The counter blocks of an upstream frame (R436, R437). -/
def State.usCounter (s : State) (t l : Nat) (x : XgemIn) : Nat → Nat :=
  if s.torrent t then torrentBlock x.sfc l 1 ((x.start * 16 + x.pos) / 8)
  else gponBlock (Config.gponCounter 1 t x.sfc (x.start * 2 ^ 24 + x.pos)) (s.lineMode t == 1 && l == 1 && s.onuLanes x.onu == 3)

/-- A frame comes into the core: it is decrypted and forwarded, or it goes to the deskew buffer; `len` is the length of the SDU
that it belongs to (R300 to R304). -/
def State.takeXgem (s : State) (t l : Nat) (x : XgemIn) (len : Nat) : State :=
  let s := (s.bump (adLaneStat t l 7) 1).traceStage x.trace 5
  let key := x.key.getD (s.xgemKey x)
  if x.keyIndex ≠ 0 && key.isNone then
    (s.bump (adBrx t l 0x4C) 1).endSdus t (fun d => d.onu == x.onu)
  else
    let bs := match key with
      | some k => ctrOctets k (s.usCounter t l x) x.payload
      | none => x.payload
    let btype := if s.lineMode t = 0 then 0 else x.options / 2 ^ 16
    let first := if s.traceHas x.trace 6 then none else x.trace
    if btype = 0 then s.forwardFragment t l x.onu x.port false x.lf bs len first
    else
      let tag := (x.last - 1) / tickPos
      let p := deskewP x.rate
      let f : DskFrame :=
        { bseq := x.options % 2 ^ 16, expires := tag + p, enterBy := tag + p - 1, lane := l, onu := x.onu,
          lf := x.lf, len := len, octets := bs, burst := first }
      s.setLane t l { s.lane t l with toDeskew := (s.lane t l).toDeskew ++ [(x.port, btype != 1, f)] }

/-- A frame on its way enters the deskew buffer, or is discarded for its BTYPE (R302, R306). -/
def State.deskewIn (s : State) (t : Nat) (x : Nat × Bool × DskFrame) : State :=
  if x.2.1 then (s.bump (adTree t 0x6004) 1).endSdus t (fun d => d.onu == x.2.2.onu) else s.enterDsk t x.1 x.2.2

/-- The oldest frame on its way to the deskew buffer of tree `t` from lane `l` enters it. -/
def State.deskewNext (s : State) (t l : Nat) : State :=
  match (s.lane t l).toDeskew with
  | [] => s
  | x :: rest => (s.setLane t l { s.lane t l with toDeskew := rest }).deskewIn t x

/-! ### Records of messages (R261, R267, R268) -/

/-- Take the oldest decoded message that `p` selects from lane `l`. -/
def State.takePloam (s : State) (t l : Nat) (p : PloamIn → Bool) : Option (PloamIn × State) :=
  ((s.lane t l).ploamIn.find? p).map (fun m =>
    (m, s.setLane t l { s.lane t l with ploamIn := (s.lane t l).ploamIn.erase m }))

/-- The entry of a ranging window has been neither removed nor admitted again since the window's run (R268). DESIGN CHOICE
(entry 129): one removed in the very tick of that run, which is not after it, is no longer in use and counts the window as stale. -/
def State.rangeFresh (s : State) (e : Expect) : Bool :=
  s.onuUsed e.onu && Nat.ble (smGet (fun _ => 0) (s.tree (e.onu / 512)).changed (e.onu % 512)) (e.placed + 1)

/-- A ranging response is measured: the entry, the counters and the record (R268). DESIGN CHOICE (entry 96): one out of range
counts OOR alone, not RNG_OK, and sets no MNEW. -/
def State.rangeMeasured (s : State) (t l h : Nat) (x : PloamIn) (n : Nat) : State :=
  let s := s.bump (adLaneStat t l 9) 1
  let delta := roundDiv x.delta uPos
  match measOf (s.rf (adOnu h 7) 25 0) delta with
  | some m =>
    let s := (((s.putMeas h l m delta).setRf (adOnu h (5 + l)) 47 47 1).bump (adTree t 0x4012) 1).noteMeasured h l
    s.ringMsg t 2 l (h % 512) false false m n x.msg
  | none => (s.bump (adTree t 0x4015) 1).ringMsg t 2 l (h % 512) true false 0 n x.msg

/-- A ranging window ends without a response. DESIGN CHOICE (entry 97): TICK of its record is that of the window's end. -/
def State.rangeMissed (s : State) (t l h : Nat) : State :=
  (s.bump (adTree t 0x4013) 1).ringMsg t 2 l (h % 512) false true 0 s.now []

/-- A serial-number response is measured and recorded, or counted as another message (R260, R261). -/
def State.snMeasured (s : State) (t l : Nat) (x : PloamIn) (n : Nat) : State :=
  if !Config.isSerial x.msg then s.snBad t
  else
    let s := (s.bump (adTree t 0x4010) 1).bump (adLaneStat t l 9) 1
    match measOf (s.rf (adTree t 0x4001) 25 0) (roundDiv x.delta uPos) with
    | some m => s.ringMsg t 1 l 0 false false m n x.msg
    | none => (s.bump (adTree t 0x4015) 1).ringMsg t 1 l 0 true false 0 n x.msg

end Sys2Proof.Machine
end

