-- ==== Sys2Proof/Machine/EgressOps.lean ====
section
/-! DEFINITION. Packets on their way out: lanes and MACs, gate lists, the guard test, statistics and timestamps
(R192, R195, R326, R331 to R336, R404, R405, R469, R470). -/

namespace Sys2Proof.Machine

/-! ### Frames as sent (R405) -/

/-- The octets of a packet as sent: a good one with its FCS computed anew, a bad one with the one's complement of the
FCS over the octets sent. -/
def Packet.sent (p : Packet) : List Byte :=
  let bs := p.octets.take p.len
  let body := if p.cut then bs else bs.take (bs.length - 4)
  let f := fcs32 (body.map (·.toNat))
  body ++ (octetsBE 4 (if p.bad then 2 ^ 32 - 1 - f else f)).reverse

/-- Every cell of the packet has come out of Confluence, and no more octets are to come. -/
def Packet.complete (p : Packet) : Bool :=
  p.ended && Nat.ble (ceilDiv p.len 128) p.arrived && Nat.ble (min p.len p.octets.length) (128 * p.arrived)

/-! ### Timestamps (R469, R470) -/

/-- Network time at an instant given in 1/256 tick that is not to come, in 1/256 ns: as it ran then, before later steps and changes of
rate. -/
def State.ntAt (s : State) (x : Nat) : Int :=
  let r := ((s.ntWas.filter (fun w => Nat.blt x (256 * (w.1 + 1)))).getLast?).getD (s.now, s.nt, s.atStart.ntStep)
  let d : Int := ((x : Int) - (256 * r.1 : Nat)) * (r.2.2 : Nat) / 256
  ((r.2.1 : Int) + d) / (2 ^ 32 : Nat)

/-- The instant of a timestamp has come: its record goes into the timestamp ring (R470). -/
def State.putStamp (s : State) (x : Stamp) : State :=
  let n := (s.ntAt x.at_ + x.comp).toNat
  let w2 := mkWord [(16, n / 256 % 10 ^ 9), (8, n % 256)]
  ((s.ringPut ringTs x.w0 [toWord (n / 256 / 10 ^ 9), w2, toWord (x.at_ / 256 % 2 ^ 48)] []).bump (adMacStat x.mac 47) 1).monEv
    6 0 2 1

/-- The timestamps whose instants have come. -/
def State.stampsDue (s : State) : State :=
  let due := s.stamps.filter (fun x => Nat.blt (x.at_ / 256) s.now)
  due.foldl State.putStamp { s with stamps := s.stamps.filter (fun x => !Nat.blt (x.at_ / 256) s.now) }

/-- A PTP event message passes MAC `m` at an instant in 1/256 tick: its timestamp is taken then (R469). -/
def State.timestamp (s : State) (m : Nat) (sent : Bool) (at_ : Nat) (bs : List Byte) : State :=
  let p := Window.parse { bs := bs, win := 256, fin := bs.length, tpid := none, vxlan := s.rf 0x1400400 31 16 }
  if p.ptp && Nat.ble p.ntags 2 && p.nlabels == 0 && !p.pppoe && !p.tunnel then
    let w := s.raw (adPort (m / 8) 0x20)
    let o := p.ptpOff
    let w0 := mkWord [(46, b2n sent), (38, m), (34, num 1 o bs % 16), (26, num 1 (o + 4) bs), (10, num 2 (o + 30) bs)]
    let x : Stamp := { mac := m, at_ := at_, comp := signed 16 (if sent then fld w 15 0 else fld w 31 16) * 16, w0 := w0 }
    if at_ / 256 < s.now then s.putStamp x else { s with stamps := s.stamps ++ [x] }
  else s

/-! ### Sending what has been dequeued -/

/-- The packet's frame has left in full or in part: its buffer loses a reference, and its trace ends. -/
def State.endFrame (s : State) (p : Packet) : State := s.traceEnds p.trace false p.bad false

/-- Frames sent with a bad tail are counted at the egress core port. -/
def State.poisoned (s : State) (p : Packet) : State :=
  if p.bad then s.bump (0x1C00000 + 4 * p.output) 1 else s

/-- The key source of the frames of queue `h`. -/
def State.keySrc (s : State) (h : Nat) : KeySrc := if s.dqMulti h then .group else .onu (s.dqOnu h)

/-- A frame of queue `h` goes braided (R169). -/
def State.dqBraided (s : State) (h : Nat) : Bool :=
  fld (s.qw h 0) 43 42 == 3 && s.lineMode (s.dqTree h) != 0 && (s.dqMulti h || s.onuLanes (s.dqOnu h) == 3)

/-- The SDU of a packet is put on its lane. -/
def State.sendLane (s : State) (t l h : Nat) (e : QEntry) (p : Packet) : State :=
  if s.laneUp t l then
    let c : Carry :=
      { port := e.xgem, braided := s.dqBraided h, key := s.keySrc h,
        twoLane := if s.dqMulti h then fld (s.qw h 0) 43 42 == 3 else s.onuLanes (s.dqOnu h) == 3, octets := p.sent,
        msg := none }
    (((s.traceStage p.trace 8).poisoned p).sendSdu t l c).endFrame p
  else s.endFrame p

/-- The frame of a packet selected in tick `at_` leaves on its MAC; its timestamp is that of its first bit at the balls
(R469, Table 1.5). -/
def State.sendMac (s : State) (m at_ : Nat) (p : Packet) : State :=
  let bs := p.sent
  let first := macOut (at_ + 6)
  let s := ((s.traceStage p.trace 8).poisoned p).emit (.macFrame m (s.macLanes m) bs p.bad first)
  let s := if p.bad then s.bump (adMacStat m 25) 1 else s.countGood m 20 bs
  let s := ((s.countSize m 26 bs.length).bwAdd (768 + m) bs.length).monEv 8 (m / 8) 2 1
  (s.timestamp m true (256 * first / 10) bs).endFrame p

/-- What is dequeued and complete goes out; what has lost its packet is forgotten. An SDU whose tail came late takes its place on
the line and its BSEQ now, so that the lanes stay as close as R171 asks. -/
def State.finishGoing (s : State) : State :=
  s.dsq.going.foldl (fun s g =>
    let i := match g with
      | .lane _ _ _ e => e.pkt
      | .mac _ e _ => e.pkt
    let gone (s : State) : State := { s with dsq := { s.dsq with going := s.dsq.going.filter (· != g) } }
    match s.pkt i with
    | none => gone s
    | some p =>
      if !p.complete then s
      else
        match g with
        | .lane t l h e => (((gone s).idleTo t l (s.linePos t (s.lineDelay t))).sendLane t l h e p).releaseEntry e
        | .mac m _ n => ((gone s).sendMac m n p).unref i) s

/-- A request of lane `l` of tree `t` is served (R326, R432, R433); the transmit position is that of this tick. -/
def State.serveLane (s : State) (t l : Nat) : State :=
  match s.chooseSdu t l with
  | (none, s) => s
  | (some (h, e), s) =>
    let s := { s with dsq := { s.dsq with lastReq := smSet (fun _ => 0) s.dsq.lastReq (2 * t + l) (s.now + 1) } }
    let s := (s.dequeue h e).idleTo t l (s.linePos t (s.lineDelay t))
    { s with dsq := { s.dsq with going := s.dsq.going ++ [Going.lane t l h e] } }.finishGoing

/-! ### Gate lists (R334 to R336) -/

/-- Entry `i` of a gate bank of port `p`. -/
def State.gateEntry (s : State) (p bank i : Nat) : Word := s.raw (adEgPort p + 0x400 + 0x400 * bank + i)

/-- The gates of MAC `m`. -/
def State.gates (s : State) (m : Nat) : Gates := smGet (fun _ => { oper := none, pending := none, asked := 0 }) s.dsq.gates m

/-- Store the gates of MAC `m`. -/
def State.setGates (s : State) (m : Nat) (g : Gates) : State :=
  { s with dsq := { s.dsq with gates := smSet (fun _ => { oper := none, pending := none, asked := 0 }) s.dsq.gates m g } }

/-- The admin list of MAC `m`, as it would come into force at `cct` (ns). -/
def State.adminList (s : State) (m cct : Nat) : GateList :=
  let w := s.raw (adGate m 1)
  let bank := 1 - s.rf (adGate m 6) 46 46
  { bank := bank, idx := fld w 9 0, len := fld w 20 10, cycle := s.rf (adGate m 4) 31 0,
    ext := s.rf (adGate m 5) 31 0, base := cct }

/-- The entry of a list `k` entries long at offset `off` ns of a cycle, from entry `i` on that begins at `at_`: its
number and the end of its time; the last entry holds. -/
def State.entryAt (s : State) (p : Nat) (g : GateList) (off : Nat) : Nat → Nat → Nat → Nat × Option Nat
  | 0, i, _ => (i, none)
  | k + 1, i, at_ =>
    let d := fld (s.gateEntry p g.bank (g.idx + i)) 31 0
    if k = 0 then (i, none) else if off < at_ + d then (i, some (at_ + d)) else entryAt s p g off k (i + 1) (at_ + d)

/-- The start of the cycle of list `g` that holds time `x` (ns), and the end of that cycle. Of the cycles that would start within
the extension before a pending change, none starts, and the cycle in progress runs on to the change; any other is cut by it
(R336). -/
def cycleOf (g : GateList) (pending : Option Nat) (asked x : Nat) : Nat × Nat :=
  let start (z : Int) : Int := (g.base : Int) + (z - (g.base : Nat)).fdiv (g.cycle : Nat) * (g.cycle : Nat)
  match pending with
  | none => ((start x).toNat, (start x).toNat + g.cycle)
  | some cct =>
    let last : Int := max ((cct : Int) - g.ext - 1) asked
    let st := start (min (x : Int) last)
    (st.toNat, if (cct : Int) ≤ st + g.cycle ∨ last < st + g.cycle then cct else (st + g.cycle).toNat)

/-- The gates of a MAC at time `x`: the states, the entry in force, and when they next change. DESIGN CHOICE (entry 134): where
ENABLE is set again with a list in force, that list goes on at once; Table 9.11 names INIT_GATES up to the first change. DEDUCED (entry 133): in a cycle that
runs on beyond its length, the entry in force at that length is the last one, and holds. -/
def State.gatesAt (s : State) (m x : Nat) : Nat × Option (Nat × Nat) × Option Nat :=
  let w := s.raw (adGate m 1)
  let u := s.gates m
  if !bitOf w 46 then (255, none, none)
  else
    let list := match u.pending with
      | some cct => if cct ≤ x then some (s.adminList m cct, none) else u.oper.map (fun g => (g, some cct))
      | none => u.oper.map (fun g => (g, none))
    match list with
    | none => (fld w 39 32, none, u.pending)
    | some (g, pend) =>
      let (st, fin) := cycleOf g pend u.asked x
      let (i, e) := s.entryAt (m / 8) g (min (x - st) (g.cycle - 1)) g.len 0 0
      let next := match e with
        | some a => if a < g.cycle ∧ x - st < g.cycle then min (st + a) fin else fin
        | none => fin
      (fld (s.gateEntry (m / 8) g.bank (g.idx + i)) 47 40, some (g.bank, g.idx + i), some next)

/-- OPER_IDX of MAC `m` names the entry in force at time `x` (R474). -/
def State.showGate (s : State) (m x : Nat) : State :=
  match (s.gatesAt m x).2.1 with
  | some (_, i) => s.setRf (adGate m 6) 9 0 i
  | none => s

/-- The time at which gate `c` of MAC `m`, open at `x`, next closes, looking no further than `lim`. -/
def State.gateCloses (s : State) (m c lim : Nat) : Nat → Nat → Option Nat
  | 0, _ => none
  | k + 1, x =>
    let (g, _, next) := s.gatesAt m x
    if !g.testBit c then some x
    else
      match next with
      | none => none
      | some y => if lim < y ∨ y ≤ x then none else gateCloses s m c lim k y

/-- The cycle time by which the guard test looks ahead. -/
def State.gateCycle (s : State) (m : Nat) : Nat :=
  match (s.gates m).oper with
  | some g => g.cycle
  | none => s.rf (adGate m 4) 31 0

/-- A frame of class `c` and adjusted length `a` passes the guard test (R336). -/
def State.guardOk (s : State) (m c a x : Nat) : Bool :=
  let w := s.raw (adGate m 1)
  if !bitOf w 46 || !bitOf w 45 then true
  else
    match s.gateCloses m c (x + 2 * s.gateCycle m) 8200 x with
    | none => true
    | some y => Nat.ble (8 * a) (s.macRate m * (y - x))

/-- Whole nanoseconds of network time that a tick holds last: a change in the tick counts from its start. -/
def State.gateNow (s : State) : Nat := s.tickEndNt / 2 ^ 40

/-! ### Egress queues (R332, R333) -/

/-- Cells of egress queue `q`. -/
def State.egCells (s : State) (q : Nat) : Nat :=
  ((s.egq q).map (fun e =>
    match s.pkt e.pkt with
    | some p => p.cells.length
    | none => 0)).foldl (· + ·) 0

/-- The adjusted length of the head packet of an egress queue. -/
def State.egHead (s : State) (m c : Nat) : Option (EgEntry × Nat) :=
  match s.egq (8 * m + c) with
  | [] => none
  | e :: _ => some (e, s.adjusted (fld (s.raw (adEgQueue m c 0)) 31 28) e.len)

/-- The egress queues of MAC `m` that are candidates now: their head packet is readable, 3 ns after its enqueue tick (Table 1.5). -/
def State.egCandidates (s : State) (m : Nat) : List Nat :=
  let x := s.gateNow
  let g := (s.gatesAt m x).1
  (List.range 8).filter (fun c =>
    match s.egHead m c with
    | some (e, a) => Nat.ble (e.at_ + 3) s.now && g.testBit c && s.guardOk m c a x
    | none => false)

/-- The deficit of an egress queue that is no candidate becomes 0 (R325). -/
def State.settleEgress (s : State) (m : Nat) : State :=
  let cs := s.egCandidates m
  (List.range 8).foldl (fun s c =>
    if cs.contains c then s else s.setDeficit (ndMac m) (ndEgress (8 * m + c)) 0) s

/-- Bad packets at the head of an egress queue are discarded whole (R404). -/
def State.purgeEg : Nat → State → Nat → State
  | 0, s, _ => s
  | k + 1, s, q =>
    match s.egq q with
    | [] => s
    | e :: l =>
      match s.pkt e.pkt with
      | some p =>
        if p.bad then purgeEg k ((s.setEgq q l).bump (0x1C00001 + 4 * p.output) 1 |>.dropEg e) q else s
      | none => s

/-- The next frame of MAC `m` (R326, R333): the class chosen, with its debits done. -/
def State.chooseEg (s : State) (m : Nat) : Option (Nat × EgEntry) × State :=
  let s := (List.range 8).foldl (fun s c => s.purgeEg (s.egq (8 * m + c)).length (8 * m + c)) s
  let s := s.settleEgress m
  let cs := s.egCandidates m
  let ready (c : Nat) : Bool := (s.egHead m c).any (fun x => Nat.ble (x.1.at_ + 3) s.now)
  let held := (List.range 8).filter (fun c => ready c && !cs.contains c)
  let g := (s.gatesAt m s.gateNow).1
  let s := s.monEv 8 (m / 8) 5 (held.filter (fun c => g.testBit c)).length
  if !s.eligibleNode (ndMac m) 0 then (none, s)
  else
    let kids (r : Nat) : List Child := (cs.filter (fun c => s.eligibleNode (ndEgress (8 * m + c)) r)).map (fun c =>
      let w := s.raw (adEgQueue m c 0)
      { node := ndEgress (8 * m + c), prio := fld w 42 40, weight := fld w 39 32 })
    let (r, l) := if (kids 0).isEmpty then (1, kids 1) else (0, kids 0)
    if l.isEmpty then (none, s)
    else
      match s.dwrr (ndMac m) l with
      | (none, s) => (none, s)
      | (some n, s) =>
        let c := n % 2 ^ 20 % 8
        match s.egHead m c with
        | none => (none, s)
        | some (e, a) =>
          let s := (s.debitNode n r a).setDeficit (ndMac m) n (s.deficit (ndMac m) n - (a : Int))
          (some (c, e), s.debitNode (ndMac m) 0 a)

/-- MAC `m` starts its next frame. -/
def State.startFrame (s : State) (m : Nat) : State :=
  match s.chooseEg m with
  | (none, s) => s
  | (some (c, e), s) =>
    let p := m / 8
    let starts := (smGet (fun _ => []) s.dsq.lastStart p).filter (· == s.now)
    let s := s.setEgq (8 * m + c) ((s.egq (8 * m + c)).drop 1)
    let s := s.modPkt e.pkt (fun p => { p with dequeued := true })
    let s := s.traceStage ((s.pkt e.pkt).bind (·.trace)) 7
    let line := max (smGet (fun _ => 0) s.dsq.lineFree m) (100 * s.now) + (e.len + 20) * 2 ^ s.portMode p
    let s := { s with dsq := { s.dsq with
      lastStart := smSet (fun _ => []) s.dsq.lastStart p (s.now :: starts),
      lineFree := smSet (fun _ => 0) s.dsq.lineFree m line,
      going := s.dsq.going ++ [Going.mac m e s.now] } }
    (s.settleEgress m).finishGoing

/-- The packet whose frame MAC `m` is sending. -/
def Going.onMac (m : Nat) : Going → Option EgEntry
  | .mac n e _ => if n = m then some e else none
  | .lane _ _ _ _ => none

/-- A MAC that is not up holds no packets (R195): those of its egress queues are discarded and counted, and so are those whose
frame has begun and has not ended. -/
def State.emptyMac (s : State) (m : Nat) : State :=
  if s.macUp m then s
  else
    let qs := (List.range 8).map (8 * m + ·)
    let cut := s.dsq.going.filterMap (Going.onMac m)
    let n := (qs.map (fun q => (s.egq q).length)).foldl (· + ·) 0 + cut.length
    if n = 0 then s
    else
      let s := { s with dsq := { s.dsq with going := s.dsq.going.filter (fun g => (g.onMac m).isNone) } }
      ((cut.foldl State.dropEg (qs.foldl State.discardEgq s)).bump (adMacStat m 33) n).settleEgress m

/-- What follows for the MACs of port `p` from a change of their state. -/
def State.emptyPort (s : State) (p : Nat) : State := (List.range 8).foldl (fun s k => s.emptyMac (8 * p + k)) s

end Sys2Proof.Machine
end

