-- ==== Sys2Proof/Machine/TableCmds.lean ====
section
/-! DEFINITION. The rules and the ticks of the table commands, walks, rule generations, learning, aging and scrubs (R97 to
R106, R312 to R315, R329, R348 to R354, R363, R367 to R387, R601). -/

namespace Sys2Proof.Machine

/-- TABLE and INDEX of a table command. -/
def tcTable (c : Cmd) : Nat := c.arg 31 26
def tcIndex (c : Cmd) : Nat := c.arg 19 0

/-- The table commands other than TBL_FLUSH_PORT and RULE_STAGE reach a table (Table 3.7). -/
def tcReach (t : Nat) : Bool := tblKeyed t || tblIndexed t

/-- ARGS bits of TBL_INSERT, TBL_DELETE and TBL_SEARCH: INDEX belongs to indexed tables. -/
def tcMask (t : Nat) : Nat := 0xFC000000 + (if tblKeyed t then 0 else 0xFFFFF)

/-! ### Entry formats -/

/-- Some bit of a word outside the given fields is 1. -/
def strayBits (w : Word) (fields : List (Nat × Nat)) : Bool :=
  w &&& ~~~(fields.foldl (fun m f => m ||| maskOf f.1 f.2) 0) != 0

/-- An action is admissible (R346). -/
def actionOk (fwd dkind dest oxop : Nat) : Bool :=
  Nat.ble fwd 5 && dkind != 2 && !(dkind == 3 && Nat.blt 1023 dest) && (oxop == 0 || fwd == 5)

/-- The same for the words A0 and A1. -/
def actionWordsOk (a0 a1 : Word) : Bool :=
  actionOk (fld a0 47 45) (fld a0 20 19) (fld a0 18 0) (fld a1 16 15) && fld a1 13 0 == 0

/-- The owner tag of a downstream queue; an entry that is not valid counts as the operator's. -/
def State.dqOwner (s : State) (h : Nat) : Nat := if s.dqValid h then fld (s.qw h 0) 37 32 else 0

/-- A flow entry sends its packets to a downstream queue: its handle. -/
def flowQueue (ws : List Word) : Option Nat :=
  let a0 := nth ws 1 0
  if fld a0 47 45 = 0 ∧ fld a0 20 19 = 0 then some (fld a0 18 0) else none

/-- The queue that a flow entry names with DKIND 0, whatever its FWD (R352). -/
def flowNames (ws : List Word) : Option Nat :=
  let a0 := nth ws 1 0
  if fld a0 20 19 = 0 then some (fld a0 18 0) else none

/-- OWNER and HANDLE of a flow entry. -/
def flowOwner (ws : List Word) : Nat := fld (nth ws 2 0) 46 41
def flowHandle (ws : List Word) : Nat := fld (nth ws 2 0) 40 21

/-- A MAC entry is admissible (R367, R368). -/
def macEntryOk (ws : List Word) : Bool :=
  !strayBits (nth ws 1 0) [(47, 34)] && !strayBits (nth ws 2 0) [(47, 43), (15, 0)]

/-- A route entry is admissible (Tables 11.4 and 11.5, R368). -/
def routeEntryOk (t : Nat) (ws : List Word) : Bool :=
  let n := routeBits t
  let len := routeLen t ws
  !strayBits (nth ws (entryWords t - 2) 0) (if t = 2 then [(47, 10)] else [(47, 8)]) &&
    !strayBits (nth ws (entryWords t - 1) 0) [(47, 47), (15, 0)] && Nat.ble len n &&
    routePrefix t ws % 2 ^ (n - len) == 0

/-- A flow entry is admissible (Table 10.8, R346, R352). -/
def State.flowEntryOk (s : State) (ws : List Word) : Bool :=
  let a0 := nth ws 1 0
  let w2 := nth ws 2 0
  let others := (s.keyedAll 4).filter (fun x => entryKey 4 x.2 != entryKey 4 ws)
  actionOk (fld a0 47 45) (fld a0 20 19) (fld a0 18 0) (fld w2 3 2) && fld w2 1 0 == 0 &&
    !(fld a0 47 45 == 1 && fld w2 20 19 != 0) && others.all (fun x => flowHandle x.2 != flowHandle ws) &&
    (match flowNames ws with
      | some h => s.dqOwner h == flowOwner ws
      | none => true)

/-- What a tenant may insert as a flow, beside its owner (R353). -/
def flowTenantOk (ws : List Word) : Bool :=
  let a0 := nth ws 1 0
  ((fld a0 47 45 == 0 && fld a0 20 19 == 0) || fld a0 47 45 == 3) && !bitOf a0 39

/-- A meter entry is admissible (R329, Table 9.8). -/
def meterOk (ws : List Word) : Bool :=
  let w0 := nth ws 0 0
  let w1 := nth ws 1 0
  let w2 := nth ws 2 0
  !strayBits w0 [(47, 38), (27, 0)] && !strayBits w2 [(27, 0)] && !strayBits (nth ws 3 0) [(47, 47)] &&
    fld w0 45 44 != 3 && fld w0 43 42 != 3 && inRange 64 200000000 (fld w0 27 0) && fld w1 47 24 != 0 &&
    fld w1 23 0 != 0 &&
    (if bitOf w0 47 then inRange (fld w0 27 0) 200000000 (fld w2 27 0) else fld w2 27 0 == 0)

/-- A queue configuration entry is admissible (Table 9.2, R313). -/
def State.queueEntryOk (s : State) (ws : List Word) : Bool :=
  let w0 := nth ws 0 0
  let w1 := nth ws 1 0
  let lanes := fld w0 43 42
  let owner := fld w0 37 32
  let tree := fld w0 22 16
  let onu := fld w0 15 0
  !strayBits w0 [(47, 32), (22, 0)] && !strayBits (nth ws 2 0) [(43, 0)] && !strayBits (nth ws 3 0) [(47, 47), (43, 0)] &&
    fld w1 47 40 != 0 && fld w1 39 20 != 0 && rateOk (nth ws 2 0) && rateOk (nth ws 3 0) && lanes != 0 &&
    (if bitOf w0 44 then
      onu == 0 && (s.treeOwner tree == 0 || s.treeOwner tree == owner) &&
        ((lanes.testBit 0 && s.laneUsed tree 0) || (lanes.testBit 1 && s.laneUsed tree 1))
    else
      tree == 0 && s.onuUsed onu && lanes &&& s.onuLanes onu == lanes && s.onuOwner onu == owner)

/-- A grant profile is admissible (Table 6.3). -/
def profileOk (ws : List Word) : Bool :=
  (List.range 8).all (fun j =>
    let w := nth ws j 0
    !strayBits w (if j = 7 then [(47, 47), (33, 0)] else [(33, 0)]) && Nat.ble (fld w 33 17) 97200 &&
      Nat.ble (fld w 16 0) 97200)

/-- An entry that TBL_INSERT is to write is admissible: its VALID bit, its reserved fields and its ranges. -/
def State.entryOk (s : State) (t : Nat) (ws : List Word) : Bool :=
  entryValid t ws &&
    (if t = 1 then macEntryOk ws else if t = 2 ∨ t = 3 then routeEntryOk t ws else if t = 4 then s.flowEntryOk ws
     else if t = 0x10 then meterOk ws else if t = 0x11 then s.queueEntryOk ws else if t = 0x12 then profileOk ws
     else !strayBits (nth ws 7 0) [(47, 47), (23, 0)])

/-- Key words given in a command have no reserved bit set. -/
def keyOk (t : Nat) (key : List Word) : Bool :=
  if t = 1 then !strayBits (nth key 1 0) [(47, 34)]
  else if t = 2 then !strayBits (nth key 0 0) [(47, 10)]
  else if t = 3 then !strayBits (nth key 2 0) [(47, 8)]
  else true

/-! ### Privilege (Table 3.8, R60, R353) -/

/-- The tables that a tenant reaches. -/
def tenantTable (t : Nat) : Bool := t == 4 || t == 0x11 || t == 0x13

/-- An entry of an indexed table that a command names by index belongs to the privilege. -/
def State.indexOwned (s : State) (p : Priv) (t idx : Nat) : Bool :=
  if t = 0x11 then !s.dqValid idx || p.owns (s.dqOwner idx)
  else if t = 0x13 then Nat.ble (tableSize t) idx || p.owns (s.allocOwner idx)
  else true

/-- The privilege check of TBL_INSERT, TBL_DELETE and TBL_SEARCH; `entry` holds the entry words of an insertion. -/
def tcPriv (c : Cmd) (entry : List Word) (s : State) (p : Priv) : Option (Nat × Word × Word) :=
  let t := tcTable c
  let i := tcIndex c
  match p with
  | .tenant _ =>
    if !tenantTable t then some (0x05, 0, 0)
    else if tblIndexed t && !s.indexOwned p t i then some (0x07, 0, toWord i)
    else if entry.isEmpty then none
    else if t = 0x11 then
      let w := nth entry 0 0
      if !p.owns (fld w 37 32) then some (0x07, w, toWord i)
      else if bitOf w 44 then
        if p.owns (s.treeOwner (fld w 22 16)) then none else some (0x07, w, toWord (fld w 22 16))
      else if p.owns (s.onuOwner (fld w 15 0)) then none
      else some (0x07, w, toWord (fld w 15 0))
    else if t = 4 ∧ !p.owns (flowOwner entry) then some (0x07, nth entry 2 0, toWord (flowHandle entry))
    else if t = 4 then
      match flowQueue entry with
      | some h => if p.owns (s.dqOwner h) then none else some (0x07, nth entry 1 0, toWord h)
      | none => none
    else none
  | _ => none

/-- An entry found by its key belongs to the privilege (R85). -/
def foundOwned (p : Priv) (t : Nat) (ws : List Word) : Bool := t != 4 || p.owns (flowOwner ws)

/-- The entry of table `t` may be shown to the privilege in a walk (R102). -/
def State.walkOwned (s : State) (p : Priv) (t idx : Nat) (ws : List Word) : Bool :=
  if t = 4 then p.owns (flowOwner ws)
  else if t = 0x11 then p.owns (fld (nth ws 0 0) 37 32)
  else if t = 0x13 then p.owns (s.allocOwner idx)
  else true

/-- TBL_INSERT and TBL_DELETE on tables 0x10 to 0x13 are not legal in WEIR. -/
def tcLegal (t : Nat) (s : State) : Bool := legalUp s && !(s.mode == .weir && tblIndexed t)

/-! ### TBL_INSERT -/

/-- A MAC entry from the host: HIT and AGE are the device's (R367). -/
def State.hostMac (s : State) (ws : List Word) (old : Option (List Word)) : List Word × State :=
  let m := maskOf 45 43
  match old with
  | some o => ([nth ws 0 0, nth ws 1 0, merge (nth ws 2 0) m (nth o 2 0)], s)
  | none => ([nth ws 0 0, nth ws 1 0, merge (nth ws 2 0) m s.freeWord], s.drew)

/-- The entry words as the table takes them. -/
def State.hostEntry (s : State) (t : Nat) (ws : List Word) (old : Option (List Word)) : List Word × State :=
  if t = 1 then s.hostMac ws old else (ws, s)

/-- Rewrite a present entry in place, in every valid copy (R98, R368, R372). -/
def State.replaceEntry (s : State) (t : Nat) (old ws : List Word) : State :=
  let (ws, s) := s.hostEntry t ws (some old)
  let s := s.eachCopy t (entryKey t old) (fun _ => ws)
  if t = 1 ∧ (macStatic old, macPort old) ≠ (macStatic ws, macPort ws) then
    let s := if macStatic old then s else s.learnedDown (macPort old)
    if macStatic ws then s else s.learnedUp (macPort ws)
  else s

/-- A command that changes table `t` is in execution (R97). -/
def Work.changes (t : Nat) : Work → Bool
  | .insert i _ => i.table == t
  | .delete u _ => u == t
  | .flush _ _ _ _ => t == 1
  | .stage u _ _ _ _ _ => u == t
  | _ => false

/-- The command in execution changes table `t`. -/
def Exec.changes (e : Exec) (t : Nat) : Bool :=
  match e.wait with
  | .work _ w => w.changes t
  | _ => false

/-- A command that changes table `t` and was admitted before tick `n` is still in execution, or has worked in this tick: a later
one waits (R97). -/
def State.tableTaken (s : State) (t n : Nat) : Bool :=
  s.execs.any (fun x => Nat.blt x.2.since n && x.2.changes t) || s.tbl.stepped.contains t

/-- The entry of an insertion goes to its slot. -/
def State.insertAt (s : State) (t slot : Nat) (ws : List Word) : State :=
  let (ws, s) := s.hostEntry t ws none
  let s := s.addEntry t slot ws
  if macLearned t ws then s.learnedUp (macPort ws) else s

/-- One tick of a keyed TBL_INSERT (R98, R99, R370, R371, R373, R390). -/
def State.insertTick (s : State) (p : Priv) (i : Insertion) (replace : Bool) : Ran :=
  let t := i.table
  let s := s.stepsOn t
  let old := s.findEntry t (entryKey t i.words)
  match i.phase, old with
  | .read, some (slot, old) =>
    if !foundOwned p t old then .viol 0x08 (nth i.words 0 0) (toWord slot) s
    else if replace then .done (s.replaceEntry t old i.words) i.moves slot
    else .fin stRejectArg i.moves slot s
  | _, _ =>
    if i.phase = .read ∧ !s.filterOk t i.words then .fin stRejectFull i.moves 0 s
    else
      match s.insertStep i (fun _ => false) with
      | .full => .fin stRejectFull i.moves 0 s
      | .more i u => .wait i.moves (.work 0 (.insert i replace)) u
      | .room slot =>
        if old.isSome then .wait i.moves (.work 0 (.insert i.again replace)) s
        else .done (s.insertAt t slot i.words) i.moves slot

/-- A queue that is newly valid starts with full buckets and a deficit of 0 (R314). -/
def State.freshQueue (s : State) (h : Nat) : State :=
  let s := (s.putBucket (ndQueue h) 0 none).putBucket (ndQueue h) 1 none
  { s with dsq := { s.dsq with deficits := s.dsq.deficits.filter (fun x => x.1 % 2 ^ 24 != ndQueue h) } }

/-- Write the configuration of a downstream queue (R312 to R314). -/
def State.writeQueue (s : State) (h : Nat) (ws : List Word) : Ran :=
  let was0 := s.shape (ndQueue h) 0
  let was1 := s.shape (ndQueue h) 1
  let fixed := strayBits (s.qw h 0 ^^^ nth ws 0 0) [(47, 45), (41, 38)]
  if s.atStart.dqValid h && !(s.atStart.dq h).entries.isEmpty && fixed then .fin stRejectBusy 0 0 s
  else
    let t := s.setEntry 0x11 h ws
    .done (if s.dqValid h then (t.rebucket (ndQueue h) 0 was0).rebucket (ndQueue h) 1 was1 else t.freshQueue h) 0 h

/-- An indexed TBL_INSERT (R100). -/
def State.insertIndexed (s : State) (t i : Nat) (ws : List Word) : Ran :=
  if t = 0x11 then s.writeQueue i ws
  else
    let s := s.setEntry t i ws
    .done (if t = 0x10 then (s.putBucket (ndMeter i) 0 none).putBucket (ndMeter i) 1 none else s) 0 i

/-- The rule of TBL_INSERT. -/
def tblInsertRule (c : Cmd) : CmdRule :=
  let t := tcTable c
  { opcode := 0x06, form := formCheck c (tcMask t) 1 (!tcReach t || c.ops.length == entryWords t) [],
    priv := tcPriv c (takePad (entryWords t) 0 c.ops), spMay := false, legal := tcLegal t,
    args := fun s p =>
      tcReach t && (tblKeyed t || Nat.blt (tcIndex c) (tableSize t)) && s.entryOk t c.ops &&
        (t != 4 || p.oper || flowTenantOk c.ops),
    run := fun s p _ =>
      if s.digestHolds t then .fin stRejectBusy 0 0 s
      else if tblKeyed t then
        if s.tableTaken t s.now then .wait 0 (.work 0 (.insert (Insertion.fresh t c.ops) c.flag0)) s
        else s.insertTick p (Insertion.fresh t c.ops) c.flag0
      else s.insertIndexed t (tcIndex c) c.ops }

/-! ### TBL_DELETE and TBL_SEARCH -/

/-- Clear VALID of an indexed entry; a queue's packets are discarded (R100, R315). -/
def State.deleteIndexed (s : State) (t i : Nat) : Ran :=
  let ws := s.entry t i
  let n := entryWords t - 1
  if !bitOf (nth (s.atStart.entry t i) n 0) 47 then .done s 0 i
  else
    let s := if t = 0x11 then s.emptyQueue (.set dqDeleted) i else s
    .done (s.setEntry t i (updAt ws n (fun w => w &&& ~~~(maskOf 47 47)))) 1 i

/-- Every valid copy of a key of table `t` is removed in this tick, with its counts (R377, R386). -/
def State.removeKey (s : State) (t : Nat) (key : List Word) : State :=
  ((s.keyedAll t).filter (fun x => entryKey t x.2 == key)).foldl (fun s x => s.removeSlot t x.1) s

/-- A keyed TBL_DELETE at its turn. -/
def State.deleteTick (s : State) (p : Priv) (t : Nat) (key : List Word) : Ran :=
  let s := s.stepsOn t
  match s.findEntry t key with
  | none => .fin stNotFound 0 0 s
  | some (slot, ws) =>
    if foundOwned p t ws then .done (s.removeKey t key) 1 slot else .viol 0x08 (nth key 0 0) (toWord slot) s

/-- The rule of TBL_DELETE (R100, R377). -/
def tblDeleteRule (c : Cmd) : CmdRule :=
  let t := tcTable c
  { opcode := 0x07, form := formCheck c (tcMask t) 0 (!tcReach t || c.ops.length == keyWords t) [],
    priv := tcPriv c [], spMay := false, legal := tcLegal t,
    args := fun _ _ => tcReach t && (if tblKeyed t then keyOk t c.ops else Nat.blt (tcIndex c) (tableSize t)),
    run := fun s p _ =>
      if s.digestHolds t then .fin stRejectBusy 0 0 s
      else if tblKeyed t then
        if s.tableTaken t s.now then .wait 0 (.work 0 (.delete t c.ops)) s else s.deleteTick p t c.ops
      else s.deleteIndexed t (tcIndex c) }

/-- The rule of TBL_SEARCH (R100, R376), which reads the table as it stood at the start of the tick (R21). DEDUCED (entry 138): an
indexed entry that an uncorrectable error strikes in its tick is data read by it (R84). -/
def tblSearchRule (c : Cmd) (io : HostIo) : CmdRule :=
  let t := tcTable c
  { opcode := 0x08, form := formCheck c (tcMask t) 0 (!tcReach t || c.ops.length == 1 + keyWords t) [],
    priv := tcPriv c [], spMay := false, legal := legalUp,
    args := fun _ _ =>
      tcReach t && (if tblKeyed t then keyOk t (c.ops.drop 1) else Nat.blt (tcIndex c) (tableSize t)),
    run := fun s p _ =>
      if tblKeyed t then
        match s.foundEntry t (c.ops.drop 1) with
        | none => .fin stNotFound 0 0 s
        | some (slot, ws) =>
          if foundOwned p t ws then s.giveWords io (hostAddr (c.op 0)) ws slot
          else .viol 0x08 (c.op 1) (toWord slot) s
      else
        let ws := s.atStart.entry t (tcIndex c)
        if !entryValid t ws then .fin stNotFound 0 0 s
        else if s.struck (.indexed (t * 2 ^ 24 + tcIndex c)) then .fin stErrMem 0 (tcIndex c) s
        else s.giveWords io (hostAddr (c.op 0)) ws (tcIndex c) }

/-! ### Walks (R101, R102, R374, R375) -/

/-- Walk context `x`. -/
def State.walk (s : State) (x : Nat) : Option Walk := (s.cmd.walks.find? (fun y => y.1 == x)).map (·.2)

/-- Store walk context `x`. -/
def State.setWalk (s : State) (x : Nat) (w : Option Walk) : State :=
  { s with cmd := { s.cmd with walks := match w with
      | some w => smPut (smErase s.cmd.walks x) x w
      | none => smErase s.cmd.walks x } }

/-- A TBL_NEXT in walk context `x` is in execution. -/
def State.walkBusy (s : State) (x : Nat) : Bool :=
  s.cmd.queues.any (fun q => q.2.exec.any (fun e =>
    match e.wait with
    | .work _ (.walk y _ _ _) => y == x
    | _ => false))

/-- The valid entries of a table in ascending slots or indices, as they stood at the start of the tick (R21), but for slots that
an uncorrectable error has struck in it (R378). -/
def State.entriesOf (u : State) (t : Nat) : List (Nat × List Word) :=
  let s := u.atStart
  if tblKeyed t then (s.keyedAll t).filter (fun x => !u.slotBad t x.1)
  else s.tbl.indexed.filterMap (fun (x : Nat × List Word) =>
    if x.1 / 2 ^ 24 = t ∧ entryValid t x.2 then some (x.1 % 2 ^ 24, x.2) else none)

/-- An entry that a walk returns: slot, words, LATE and DUP. -/
structure Found where
  slot : Nat
  words : List Word
  late : Bool
  dup : Bool
deriving DecidableEq, Repr

/-- Its record in host memory: the descriptor and the entry words. -/
def Found.record (f : Found) : List Word :=
  mkWord [(47, b2n f.dup), (46, b2n f.late), (40, f.words.length), (0, f.slot)] :: f.words

/-- Up to `n` keys of a late record that are still valid; keys that are not are dropped. -/
def State.lateTake (s : State) (p : Priv) (t : Nat) (seen : List (List Word)) :
    Nat → List (List Word) → List Found × List (List Word)
  | _, [] => ([], [])
  | 0, l => ([], l)
  | n + 1, k :: l =>
    match s.foundEntry t k with
    | some (slot, ws) =>
      if foundOwned p t ws then
        let r := lateTake s p t seen n l
        ({ slot := slot, words := ws, late := true, dup := seen.contains k } :: r.1, r.2)
      else lateTake s p t seen (n + 1) l
    | none => lateTake s p t seen (n + 1) l

/-- The slots of a walk's table. -/
def Walk.stop (w : Walk) : Nat := if tblKeyed w.table then tblSlots w.table else tableSize w.table

/-- One tick of a walk: what its next 4 slots hold, at most `n` entries, and the walk after it; behind the last slot the
late record follows in the same tick (R374, R375). -/
def State.walkTake (s : State) (p : Priv) (w : Walk) (n : Nat) : List Found × Walk :=
  let t := w.table
  let here := (s.entriesOf t).filter (fun x =>
    Nat.ble w.slot x.1 && Nat.blt x.1 (w.slot + 4) && s.walkOwned p t x.1 x.2)
  let a := (here.take n).map (fun x =>
    let k := entryKey t x.2
    ({ slot := x.1, words := x.2, late := false, dup := w.dup.contains k && w.seen.contains k } : Found))
  let seen := w.seen ++ (if tblKeyed t then a.map (fun f => entryKey t f.words) else [])
  if a.length = n then
    (a, { w with slot := (a.getLast?.map (fun f => f.slot + 1)).getD w.slot, seen := seen, used := s.now })
  else if w.slot + 4 < w.stop then (a, { w with slot := w.slot + 4, seen := seen, used := s.now })
  else
    let r := s.lateTake p t seen (n - a.length) w.late
    (a ++ r.1, { w with slot := w.stop, late := r.2, seen := seen, used := s.now })

/-- The walk is complete. -/
def Walk.complete (w : Walk) : Bool := w.slot == w.stop && w.late.isEmpty

/-- One tick of TBL_NEXT in context `x`: `want` entries are still wanted, `n` have been returned, and the next record goes
to `addr`. -/
def State.walkTick (s : State) (p : Priv) (x want addr n : Nat) : Ran :=
  match s.walk x with
  | none => .fin stRejectArg n 0 s
  | some w =>
    let r := s.walkTake p w want
    let ws := r.1.flatMap Found.record
    let s := if ws.isEmpty then s else s.emit (.hostWords addr ws)
    let n := n + r.1.length
    if r.2.complete then .done (s.setWalk x none) n 0
    else
      let s := s.setWalk x (some r.2)
      if want = r.1.length ∨ r.2.slot = r.2.stop then .done s n w.cursor.toNat
      else .wait n (.work 0 (.walk x (want - r.1.length) (addr + 8 * ws.length) n)) s

/-- The context of a TBL_NEXT: a free one for cursor 0, else that of its cursor; the status where there is none. -/
def State.walkFor (s : State) (t : Nat) (cursor : Word) : Nat ⊕ (Nat × Walk) :=
  if cursor = 0 then
    match (List.range 8).find? (fun x => (s.walk x).isNone) with
    | none => .inl stRejectBusy
    | some x =>
      .inr (x, { table := t, slot := 0, late := [], dup := [], used := s.now, seen := [],
                 cursor := mkWord [(47, 1), (44, x), (0, fld s.freeWord 43 0)] })
  else
    match (List.range 8).find? (fun x => (s.walk x).any (fun w => w.cursor == cursor && w.table == t)) with
    | none => .inl stRejectArg
    | some x =>
      match s.walk x with
      | some w => .inr (x, w)
      | none => .inl stRejectArg

/-- The rule of TBL_NEXT. Its first 4 slots are examined in the tick after its admission. -/
def tblNextRule (c : Cmd) : CmdRule :=
  let t := tcTable c
  { opcode := 0x09, form := formCheck c 0xFC000FFF 0 (!tcReach t || c.ops.length == 2) [],
    priv := fun _ p => if p.oper || tenantTable t then none else some (0x05, 0, 0), spMay := false, legal := legalUp,
    args := fun _ _ => tcReach t,
    run := fun s _ _ =>
      match s.walkFor t (c.op 1) with
      | .inl st => .fin st 0 0 s
      | .inr (x, w) =>
        .wait 0 (.work 0 (.walk x (c.arg 11 0 + 1) (hostAddr (c.op 0)) 0))
          ((if c.op 1 = 0 then s.drew else s).setWalk x (some { w with used := s.now })) }

/-! ### TBL_FLUSH_PORT (R103, R386) -/

/-- One tick of TBL_FLUSH_PORT: the slots `slot` to `slot + 3` are examined. -/
def State.flushTick (s : State) (port : Nat) (all : Bool) (slot removed : Nat) : Ran :=
  let s := s.stepsOn 1
  let gone := (s.keyedAll 1).filter (fun x =>
    Nat.ble slot x.1 && Nat.blt x.1 (slot + 4) && macPort x.2 == port && (all || !macStatic x.2))
  let u := gone.foldl (fun s x => s.removeSlot 1 x.1) s
  let n := removed + gone.length
  if macSlots ≤ slot + 4 then .done u macSlots n else .wait (slot + 4) (.work 0 (.flush port all (slot + 4) n)) u

/-- The rule of TBL_FLUSH_PORT: its first slots are examined in the tick after its admission. -/
def tblFlushPortRule (c : Cmd) : CmdRule :=
  let first := (c.op 0).toNat
  { opcode := 0x0A, form := formCheck c 0xFC00FFFF 1 (tcTable c != 1 || c.ops.length == 1) [], priv := privOper,
    spMay := false, legal := legalUp,
    args := fun _ _ => tcTable c == 1 && first % 4 == 0 && Nat.blt first macSlots,
    run := fun s _ _ => .wait first (.work 0 (.flush (c.arg 15 0) c.flag0 first 0)) s }

/-! ### Rule generations (R105, R106, R348, R349, R354, R363, R601) -/

/-- FIRST of a RULE_STAGE on table 0x22. -/
def rsFirst (c : Cmd) : Nat := c.arg 16 10

/-- The number of operands of a RULE_STAGE is permitted. -/
def rsNops (c : Cmd) : Bool :=
  let t := tcTable c
  if !tblGenerational t then true
  else if c.flag0 then c.ops.isEmpty
  else if t = 0x22 then
    !c.ops.isEmpty && (Nat.blt 64 (rsFirst c) || Nat.ble (rsFirst c + c.ops.length) 65)
  else c.ops.length == entryWords t

/-- A slot of an indirection table is admissible (R354). -/
def slotOk (v : Nat) : Bool :=
  if v / 1024 = 0 then Nat.blt (v % 1024) 256 else if v / 1024 = 1 then inRange 1 64 (v % 1024) else v / 1024 == 2

/-- Word `i` of an indirection table is admissible. -/
def indirOk (i : Nat) (w : Word) : Bool :=
  if i = 64 then !strayBits w [(47, 38)]
  else (List.range 4).all (fun j => slotOk (fld w (12 * j + 11) (12 * j)))

/-- The entry words of a RULE_STAGE are admissible. -/
def rsWordsOk (t first : Nat) (ws : List Word) : Bool :=
  if t = 0x20 then
    actionWordsOk (nth ws 8 0) (nth ws 9 0) && !strayBits (nth ws 10 0) [(47, 47)] &&
      (List.range 4).all (fun i => nth ws i 0 &&& ~~~(nth ws (4 + i) 0) == 0)
  else if t = 0x21 then actionWordsOk (nth ws 0 0) (nth ws 1 0) && !strayBits (nth ws 2 0) [(47, 47)]
  else (ws.zip (List.range ws.length)).all (fun x => indirOk (first + x.2) x.1)

/-- The table entry that a RULE_STAGE names. -/
def rsIndex (c : Cmd) : Nat := if tcTable c = 0x22 then c.arg 9 0 else tcIndex c

/-- The arguments of a RULE_STAGE are in range. -/
def rsArgs (c : Cmd) : Bool :=
  let t := tcTable c
  tblGenerational t && Nat.blt (rsIndex c) (tableSize t) &&
    (if c.flag0 then t != 0x22 || rsFirst c == 0
     else (t != 0x22 || Nat.ble (rsFirst c) 64) && rsWordsOk t (rsFirst c) c.ops)

/-- Write words of an entry of the staging copy; a write without the last word first clears VALID. -/
def State.stageWords (s : State) (t i first : Nat) (ws : List Word) : State :=
  let k := !s.activeCopy
  let n := entryWords t
  let old := takePad n 0 (s.genEntry k t i)
  let e := old.take first ++ ws ++ old.drop (first + ws.length)
  s.setGen k t i (if first + ws.length = n then e else updAt e (n - 1) (fun w => w &&& ~~~(maskOf 47 47)))

/-- One tick of RULE_STAGE: words `first` onward of the entry, as far as they have come when `left` of `took` ticks are to
come, with the valid word last (R105). -/
def State.stageTick (s : State) (t i first : Nat) (ws : List Word) (took left : Nat) : Ran :=
  let n := sharesOf ws.length took left
  let u := (s.stageWords t i first (ws.take n)).stepsOn t
  if left ≤ 1 then .done u (max 1 ws.length) 0 else .wait n (.work 0 (.stage t i first ws took (left - 1))) u

/-- The rule of RULE_STAGE. -/
def ruleStageRule (c : Cmd) (io : HostIo) : CmdRule :=
  let t := tcTable c
  { opcode := 0x0B, form := formCheck c (if t = 0x22 then 0xFC01FFFF else 0xFC0FFFFF) 1 (rsNops c) [],
    priv := privOper, spMay := false, legal := legalUp, args := fun _ _ => rsArgs c,
    run := fun s _ _ =>
      let first := if t = 0x22 then rsFirst c else 0
      if s.atStart.retiring then .fin stRejectBusy 0 0 s
      else if s.tableTaken t s.now then .wait 0 (.work 0 (.stage t (rsIndex c) first c.ops io.took io.took)) s
      else if c.flag0 then .done (s.stageWords t (rsIndex c) 0 []) 1 0
      else if io.took = 0 then .done (s.stageWords t (rsIndex c) first c.ops) c.ops.length 0
      else .wait 0 (.work 0 (.stage t (rsIndex c) first c.ops io.took io.took)) s }

/-- The staging generation becomes active at the end of this tick (R106, R362). -/
def State.swapGenerations (s : State) (copy : Bool) : State :=
  let a := s.activeCopy
  let n := (s.rf 0x1400408 15 0 + 1) % 2 ^ 16
  let s := s.setReg 0x1400408 (mkWord [(17, 1), (16, b2n (!a)), (0, n)])
  { s.setReg 0x1400409 (toWord s.tick48) with cls := { s.cls with genAt := s.now, genCopy := copy } }

/-- The rule of GEN_SWAP. -/
def genSwapRule (c : Cmd) : CmdRule :=
  { opcode := 0x0C, form := formCheck c 0 1 c.ops.isEmpty [], priv := privOper, spMay := false, legal := legalUp,
    args := argsFine,
    run := fun s _ _ =>
      if s.atStart.retiring || s.swapHeld then .fin stRejectBusy 0 0 s else .wait 0 .genSwap (s.swapGenerations c.flag0) }

/-- The first tick, no earlier than T + 6, at whose start the Oxbow holds no packet of the retiring copy, as far as it is known
now: behind the delivery of every second decision under that copy; none while a packet of it still waits to re-enter
(R363). -/
def State.retireTick (s : State) : Option Nat :=
  let old := !s.activeCopy
  let busy := s.cls.deciding.filter (fun e => e.second && e.copy == old)
  if s.cls.oxbow.any (fun o => o.copy == old) then none
  else some ((busy.map (fun e => e.due + 1)).foldl max (s.cls.genAt + 6))

/-- At the start of this tick the Oxbow holds no packet of the retiring copy (R363). -/
def State.retireNow (s : State) : Bool :=
  let old := !s.activeCopy
  Nat.ble (s.cls.genAt + 6) s.now && s.start.cls.oxbow.all (fun o => o.copy != old) &&
    s.start.cls.deciding.all (fun e => !(e.second && e.copy == old))

/-- The retiring copy becomes the staging copy (R106). -/
def State.freeCopy (s : State) : State :=
  let a := s.activeCopy
  let s := (s.setRf 0x1400408 17 17 0).setCopy (!a) (if s.cls.genCopy then s.copyFor a else [])
  match s.findExec (fun w => w == .genSwap) with
  | some (q, _) => s.endExec q stDone 0 (s.rf 0x1400408 15 0)
  | none => s

/-! ### Learning (R383, R384) -/

/-- A learned entry. -/
def learnedEntry (r : LearnReq) : List Word :=
  macKey r.bd r.mac ++ [mkWord [(47, 1), (45, 1), (0, r.port)]]

/-- A learning insertion that fails (R384). -/
def State.learnFail (s : State) (r : LearnReq) : State := (s.learnedDown r.port).bump 0x1800014 1

/-- The request of the learn engine is done with. -/
def State.learnIdle (s : State) : State := { s with tbl := { s.tbl with going := none } }

/-- The learn engine goes on with its request in the next tick; a search begun the fourth time is given up (R371). -/
def State.learnOn (s : State) (r : LearnReq) (i : Insertion) : State :=
  if 4 ≤ i.searches then (s.learnFail r).learnIdle else { s with tbl := { s.tbl with going := some (r, i) } }

/-- The address of a request is in the table already: a refresh, a move, or a static entry; every valid copy changes, and no
visit of this tick touches them (R372, R384, R388). -/
def State.learnFound (s : State) (r : LearnReq) (ws : List Word) : State :=
  if macPort ws = r.port then s.eachCopy 1 (entryKey 1 ws) (fun x => updAt x 2 (fun w => setFld w 45 45 1))
  else if macStatic ws then s.learnFail r
  else
    let s := if r.move then s else s.learnedDown (macPort ws)
    s.eachCopy 1 (entryKey 1 ws) (fun x => updAt x 2 (fun w => setFld w 15 0 r.port))

/-- A command step has written a valid copy of `key` in this tick. -/
def State.copyTouched (s : State) (key : List Word) : Bool :=
  (s.keyedAll 1).any (fun x => entryKey 1 x.2 == key && s.tbl.cmdSlots.contains x.1)

/-- One tick of the learn engine, after the command steps of the tick; nothing is learned on a bridge port under
TBL_FLUSH_PORT (R104, R369 to R371, R384). -/
def State.learnTick (s : State) : State :=
  match s.tbl.going with
  | none => s
  | some (r, i) =>
    let touched (x : Nat) : Bool := s.tbl.cmdSlots.contains x
    let found := s.findMac r.bd r.mac
    if s.flushing r.port then (s.learnFail r).learnIdle
    else
      match i.phase, found with
      | .read, some (_, ws) =>
        if s.copyTouched (entryKey 1 ws) then s.learnOn r i.again else (s.learnFound r ws).learnIdle
      | _, _ =>
        match s.insertStep i touched with
        | .full => (s.learnFail r).learnIdle
        | .more i u => u.learnOn r i
        | .room slot =>
          if found.isSome then s.learnOn r i.again
          else ((s.addEntry 1 slot (learnedEntry r)).bump 0x1800010 1).learnIdle

/-- The learn engine takes the oldest request of its queue (R384). -/
def State.learnTake (s : State) : State :=
  match s.tbl.learn, s.tbl.going with
  | r :: l, none =>
    { s with tbl := { s.tbl with learn := l, going := some (r, Insertion.fresh 1 (learnedEntry r)) } }
  | _, _ => s

/-! ### Hits (R385, R388) -/

/-- HIT is set in every valid copy of a key that no command step has written in this tick. -/
def State.hitTick (s : State) (key : List Word) : State :=
  ((s.keyedAll 1).filter (fun x => entryKey 1 x.2 == key && !s.tbl.cmdSlots.contains x.1)).foldl
    (fun s x => s.setHit x.1 x.2) s

/-! ### Aging (R387) -/

/-- A visit of the aging scanner to a slot. -/
def State.ageVisit (s : State) (slot : Nat) : State :=
  match s.slotEntry 1 slot with
  | none => s
  | some ws =>
    let w := nth ws 2 0
    let put (w : Word) : State := s.storeSlot 1 slot [nth ws 0 0, nth ws 1 0, w]
    if macStatic ws then s
    else if bitOf w 45 then put (setFld w 45 43 0)
    else if fld w 44 43 < 3 then put (setFld w 44 43 (fld w 44 43 + 1))
    else (s.removeSlot 1 slot).bump 0x1800017 1

/-- Slot `x` of table 0x01 is the old slot of a relocation in progress. -/
def State.relocating (s : State) (x : Nat) : Bool :=
  let old (i : Insertion) : Bool :=
    match i.phase with
    | .move (m :: _) true _ => i.table == 1 && m.from_ == x
    | _ => false
  s.tbl.going.any (fun g => old g.2) || s.execs.any (fun e =>
    match e.2.wait with
    | .work _ (.insert i _) => old i
    | _ => false)

/-- A visit of this tick: none to a slot that a command step, a hit or a learn step has touched, nor to the old slot of a
relocation (R388). -/
def State.visitTick (s : State) (x : Nat) : State :=
  let hit := match s.slotEntry 1 x with
    | some ws => s.tbl.hits.contains (entryKey 1 ws)
    | none => false
  if s.tbl.cmdSlots.contains x || hit || s.relocating x then s else s.ageVisit x

/-! ### Scrubs (R379) -/

/-- Scrub a slot: it becomes all zeros, and the counts that it can still be known to change are corrected. -/
def State.scrub (s : State) (t slot : Nat) : State :=
  let ws := s.slotRaw t slot
  let how := smGet (fun _ => 0) s.tbl.bad (kdKey t slot)
  let s := (s.putSlot t slot []).bump 0x180001A 1
  if how = 2 then s.setRf (0x1800020 + t - 1) 47 47 1
  else if entryValid t ws then
    let s := s.countEntries t (· - 1)
    if macLearned t ws then s.learnedDown (macPort ws) else s
  else s

/-- Take a slot out of a table's scrub queue. -/
def State.unqueueScrub (s : State) (t slot : Nat) : State :=
  let l := smGet (fun _ => []) s.tbl.scrub t
  { s with tbl := { s.tbl with scrub := smSet (fun _ => []) s.tbl.scrub t (l.filter (· != slot)) } }

/-- All slots of the keyed tables below table `t`. -/
def slotsBelow (t : Nat) : Nat := (([1, 2, 3, 4] : List Nat).filter (fun u => Nat.blt u t)).foldl (fun n u => n + tblSlots u) 0

/-- The tick, from the present one on, in which the patrol scrubber visits a slot: once in each period (R379). DESIGN CHOICE
(entry 143): it goes through the tables and slots in ascending order, evenly over the period, as the aging scanner does. -/
def State.patrolTick (s : State) (t slot : Nat) : Nat :=
  let p := s.rf 0x1800001 15 0 * 10 ^ 9
  let at_ := s.tbl.patrolFrom + ceilDiv ((slotsBelow t + slot) * p) (slotsBelow 5)
  if s.now ≤ at_ ∨ p = 0 then max s.now at_ else at_ + ceilDiv (s.now - at_) p * p

/-- Slots with an uncorrectable word that the patrol scrubber has yet to come to, each with its tick. -/
def State.patrolDues (s : State) : List (Nat × Nat × Nat) :=
  s.tbl.bad.map (fun x => (s.patrolTick (x.1 / 2 ^ 24) (x.1 % 2 ^ 24), x.1 / 2 ^ 24, x.1 % 2 ^ 24))

/-- The scrubs of this tick, behind the command steps: a slot that a command has rewritten is left as it is (R369, R379). -/
def State.scrubTick (s : State) : State :=
  let l := s.tbl.scrubs ++ ((s.patrolDues.filter (fun x => x.1 == s.now)).map (·.2))
  l.foldl (fun s x => if s.slotBad x.1 x.2 then (s.scrub x.1 x.2).unqueueScrub x.1 x.2 else s) s

/-- What a tick brings to the keyed tables beside the command steps: hits, the learn engine, the aging scanner, scrubs, and what
walks record of relocations (R369, R374, R388). -/
def State.macTick (s : State) : State :=
  let s := (s.tbl.hits.foldl State.hitTick s).learnTick
  let s := (s.tbl.visits.reverse.foldl State.visitTick s).walksMoved.scrubTick
  { s with tbl := { s.tbl with cmdSlots := [], hits := [], visits := [], stepped := [], scrubs := [] } }

end Sys2Proof.Machine
end

