-- ==== Sys2Proof/Machine/Clock.lean ====
section
/-! DEFINITION. Time running: the level events that the monitor counts (R508), and the clock (R53, R459, R549). -/

namespace Sys2Proof.Machine

/-! ### Level events (Table 16.4) -/

/-- A gate holds the head frame of an egress queue of MAC `m`. -/
def State.gateHolds (s : State) (m : Nat) : Bool :=
  let g := (s.gatesAt m s.gateNow).1
  (List.range 8).any (fun c => !(s.egq (8 * m + c)).isEmpty && !g.testBit c)

/-- MACs with frames that wait. -/
def State.waitingMacs (s : State) : List Nat := (s.dsq.egress.filterMap (fun x => if x.2.isEmpty then none else some (x.1 / 8))).eraseDups

/-- Delineation on lane `l` hunts for a header. -/
def State.hunts (s : State) (t l : Nat) : Bool :=
  (s.lane t l).delin.any (fun d => d.pending.isNone && Nat.ble (d.c + 8) d.n)

/-- A search window of lane `l` is open as this tick begins. -/
def State.searches (s : State) (t l : Nat) : Bool := s.laneUp t l && (s.findExpect t l (s.now * tickPos)).isSome

/-- The sequencer of table `t` works: a command that changes the table is in execution, or a learning insertion is. -/
def State.tableBusy (s : State) (t : Nat) : Bool :=
  s.execs.any (fun x => x.2.changes t) || (t == 1 && s.tbl.going.isSome)

/-- The lanes of the trees that hold something, as 2 * tree + lane. -/
def State.lanesHeld (s : State) : List Nat := s.trees.flatMap (fun x => [2 * x.1, 2 * x.1 + 1])

/-- Parts of unit `u` of which level event `ev` holds now, each with its increment in a cycle: 0x00 cycles; a fetched
command waits; staging at or above COALESCE; a check unit is busy; the key-unit lock held; a head frame held by a closed
gate; hunting; an open search window; frames held by the deskew buffers; a table sequencer busy. -/
def State.monLevel (s : State) (u ev : Nat) : List (Nat × Nat) :=
  if ev = 0 then (List.range (unitParts u)).map (fun i => (i, 1))
  else if u = 1 ∧ ev = 5 then
    s.cmd.queues.filterMap (fun x => if x.1 < 64 ∧ !x.2.staging.isEmpty then some (x.1, 1) else none)
  else if u = 2 ∧ ev = 4 then if 8 * s.rf 0x20008 34 28 ≤ s.evt.staged.length then [(0, 1)] else []
  else if u = 4 ∧ ev = 2 then
    s.cmd.queues.filterMap (fun x =>
      match x.2.exec.map Exec.wait with
      | some (.work _ (.scanHost n _)) => some (n, 1)
      | some (.work _ (.scanWords n _ _)) => some (n, 1)
      | _ => none)
  else if u = 5 ∧ ev = 3 then if s.key.lock.isSome then [(0, 1)] else []
  else if u = 8 ∧ ev = 4 then
    ((s.waitingMacs.filter s.gateHolds).map (· / 8)).eraseDups.map (fun i => (i, 1))
  else if u = 13 ∧ ev = 4 then (s.lanesHeld.filter (fun i => s.hunts (i / 2) (i % 2))).map (fun i => (i, 1))
  else if u = 13 ∧ ev = 5 then (s.lanesHeld.filter (fun i => s.searches (i / 2) (i % 2))).map (fun i => (i, 1))
  else if u = 17 ∧ ev = 4 then (([1, 2, 3, 4] : List Nat).filter s.tableBusy).map (fun t => (t - 1, 1))
  else if u = 14 ∧ ev = 2 then
    s.trees.filterMap (fun x =>
      let n := (x.2.dsk.map (fun y => y.2.held.length)).foldl (· + ·) 0
      if n = 0 then none else some (x.1, n))
  else []

/-- One programmable counter that counts a level event takes what `k` ticks bring (R508). -/
def State.monRun (s : State) (k a : Nat) (sel : Word) : State :=
  let u := (a - 0x41000) / 32
  let c := (a - 0x41000) % 32 - 2
  let i := fld sel 44 36
  let l := (s.monLevel u (fld sel 7 0)).filter (fun x => (i == 0x1FF || x.1 == i) && (s.monSpan u x.1 k).2 != 0)
  let n := if bitOf sel 46 then
      b2n (!l.isEmpty && Nat.blt (smGet (fun _ => 0) s.mon.edge (8 * u + c)) (s.now + 1))
    else (l.map (fun x => x.2 * s.islandRan u x.1 (s.monSpan u x.1 k).1 (s.monSpan u x.1 k).2)).foldl (· + ·) 0
  let b := 0x41000 + 32 * u
  let old := (s.raw (b + 10 + c)).toNat
  let s := if 2 ^ 48 ≤ old + n then s.setReg (b + 18) (s.raw (b + 18) ||| toWord (2 ^ c)) else s
  let s := s.setReg (b + 10 + c) (toWord (old + n))
  if l.isEmpty then s
  else { s with mon := { s.mon with edge := smSet (fun _ => 0) s.mon.edge (8 * u + c) (s.now + k + 1) } }

/-- The level events of Table 16.4 in the `k` ticks that begin now; select words that nothing has written have EN = 0. -/
def State.monTicks (s : State) (k : Nat) : State :=
  if s.rb 0x40000 47 || s.mon.runAt.isSome then
    (s.regs.filter (fun x => Nat.ble 0x41000 x.1 && Nat.blt x.1 0x412C0 && Nat.ble 2 (x.1 % 32) && Nat.blt (x.1 % 32) 10 &&
      bitOf x.2 47)).foldl (fun s x => s.monRun k x.1 x.2) s
  else s

/-- How network time ran up to this tick is kept where it steps, or its rate changes, with the tick; for 10 ms. -/
def State.ntNoted (s : State) : State :=
  if s.ntSet.isSome then
    { s with ntWas := (s.now, s.nt, s.atStart.ntStep) :: s.ntWas.filter (fun x => Nat.blt s.now (x.1 + 10000000)) }
  else s

/-- The clock moves on by `k` ticks, at least one. -/
def State.tickOn (s : State) (k : Nat) : State :=
  let s := (s.monTicks k).ntNoted
  let s := { s with now := s.now + k, nt := s.nextNt + (k - 1) * s.ntStep, ntSet := none }
  { s with start := s.toDevice, claims := [] }

/-- Let `k` ticks pass. In reset and in DRY the core clock does not count (R459, R549). A soft reset that falls due on
the way begins in its tick. -/
def State.advance (s : State) (k : Nat) : State :=
  if s.running && k != 0 then
    match s.board.softAt with
    | some n =>
      if s.now + k < n then s.tickOn k
      else
        let j := n - s.now
        let r := (if j = 0 then s else s.tickOn j).softReset
        if k = j then r else r.tickOn (k - j)
    | none => s.tickOn k
  else s

/-- A counter of unit `u` counts event `ev`. -/
def State.monAsked (s : State) (u ev : Nat) : Bool :=
  s.rb 0x40000 47 && (List.range 8).any (fun k =>
    let w := s.raw (0x41002 + 32 * u + k)
    bitOf w 47 && fld w 7 0 == ev)

/-- The ticks in which a gate changes that holds a frame, where a counter asks for it. -/
def State.gateDues (s : State) : List Nat :=
  if s.monAsked 8 4 then
    s.waitingMacs.filterMap (fun m => (s.gatesAt m s.gateNow).2.2.map (fun x => s.tickOfNt (x * 2 ^ 40)))
  else []

/-- The ticks in which the search windows of lane `l` open or close. -/
def State.searchEdges (s : State) (t l : Nat) : List Nat :=
  (s.lane t l).expects.flatMap (fun e =>
      let w := s.window t l e
      if e.state = 0 then [ceilDiv w.1.toNat tickPos, w.2.toNat / tickPos + 1] else []) ++
    (s.lane t l).answers.flatMap (fun x => [ceilDiv x.begins tickPos, ceilDiv x.fin tickPos])

/-- Those of all lanes that are still to come, where a counter asks for them. -/
def State.searchDues (s : State) : List Nat :=
  if s.monAsked 13 5 then
    (s.lanesHeld.flatMap (fun i => s.searchEdges (i / 2) (i % 2))).filter (fun n => Nat.blt s.now n)
  else []

end Sys2Proof.Machine
end

