-- ==== Sys2Proof/Machine/DigestOps.lean ====
section
/-! DEFINITION. The configuration digest (R490 to R493). -/

namespace Sys2Proof.Machine

/-- An entry of `n` words as the digest reads it: zeros where its VALID bit is 0. -/
def digestEntry (n : Nat) (ws : List Word) : List Word :=
  if bitOf (nth ws (n - 1) 0) 47 then (List.range n).map (fun i => nth ws i 0) else List.replicate n 0

/-- The words of digest region `b` (Table 15.2). -/
def State.digestRegion (s : State) (b : Nat) : List Word :=
  let gen (t : Nat) : List Word :=
    (List.range (tableSize t)).flatMap (fun i => digestEntry (entryWords t) (s.genEntry s.activeCopy t i))
  let idx (t : Nat) : List Word :=
    (List.range (tableSize t)).flatMap (fun i => digestEntry (entryWords t) (s.entry t i))
  if b = 0 then gen 0x20
  else if b = 1 then gen 0x21
  else if b = 2 then gen 0x22
  else if b = 3 then idx 0x12
  else if b = 4 then idx 0x13
  else if b = 5 then idx 0x11
  else if b = 6 then idx 0x10
  else
    (List.range 1024).map (fun i => s.raw (0x1010000 + i)) ++ (List.range 32768).map (fun i => s.raw (0x1020000 + i)) ++
      (List.range 262144).map (fun i => s.raw (0x1100000 + i))

/-- The words of each region (Table 15.2). -/
def digestSize (b : Nat) : Nat :=
  ([720896, 1539, 66560, 32768, 2097152, 2097152, 1048576, 295936] : List Nat).getD b 0

/-- The regions that DIGSEL selects. -/
def State.digestSel (s : State) : List Nat := (List.range 8).filter (fun b => s.rb 0x90018 (40 + b))

/-- The digest over the selected regions. -/
def State.digest (s : State) : Nat :=
  crc64 ((s.digestSel.flatMap (fun b => wordsOctets (s.digestRegion b))).map (·.toNat))

/-- A digest begins at the end of this tick; it reads 8 words a tick. -/
def State.startDigest (s : State) : State :=
  let n := (s.digestSel.map digestSize).foldl (· + ·) 0
  { s.setRf 0x90008 42 42 1 with
    ohm := { s.ohm with digRun := some (s.rf 0x90010 47 16), digAt := s.now + ceilDiv n 8 } }

/-- The digest is complete and stands in OHM_DIGEST with its epoch. -/
def State.endDigest (s : State) (e : Nat) : State :=
  let d := s.digest
  let s := (((s.setReg 0x90019 (toWord (d / 2 ^ 16))).setRf 0x9001A 47 32 (d % 2 ^ 16)).setRf 0x9001B 47 16 e).setRf
    0x90008 42 42 0
  { s with ohm := { s.ohm with digRun := none, digDone := some e } }

/-- The member diverges (R487, R489, R492), with the cause that its ALARM tells. -/
def State.diverge (s : State) (cause : Nat) : State := (s.setRf 0x90008 47 47 1).alarm 10 0x1C1 0 cause

end Sys2Proof.Machine
end

