-- ==== Sys2Proof/Machine/ImgOps.lean ====
section
/-! DEFINITION. The flash and its image: boot records, slots, sections and their checks (R558 to R565), and the flash
operations (R571). -/

namespace Sys2Proof.Machine

/-! ### The flash (R559) -/

/-- The octet of the flash at an offset; an erased octet reads 0xFF. -/
def State.flashOct (s : State) (a : Nat) : Byte := smGet (fun _ => 0xFF) s.img.flash a

/-- Put octets into the flash from an offset on. -/
def State.putFlash (s : State) (a : Nat) (bs : List Byte) : State :=
  { s with img := { s.img with flash := smSetList (fun _ => 0xFF) s.img.flash a bs } }

/-- Erase the octets from `a` up to, not with, `b`. -/
def State.eraseFlash (s : State) (a b : Nat) : State :=
  { s with img := { s.img with flash := s.img.flash.filter (fun x => Nat.blt x.1 a || Nat.ble b x.1) } }

/-- The first octet of slot `b`, and the octets of a slot. -/
def slotBase (b : Nat) : Nat := if b = 0 then 0x100000 else 0x2000000
def slotSize : Nat := 0x1F00000

/-- The words of a slot. -/
def slotWords : Nat := slotSize / 6

/-- Word `k` of the structure that begins at octet `base`: 6 octets, bits 47:40 first. -/
def State.flashWord (s : State) (base k : Nat) : Word :=
  toWord (beNat ((List.range 6).map (fun i => s.flashOct (base + 6 * k + i))))

/-- Words `k` to `k + n - 1` of a structure. -/
def State.flashWords (s : State) (base k n : Nat) : List Word := (List.range n).map (fun i => s.flashWord base (k + i))

/-! ### Boot records (R560) -/

/-- A boot record: SEQ, TRIAL and SLOT. -/
structure BootRec where
  copy : Nat
  seq : Nat
  trial : Bool
  slot : Nat
deriving DecidableEq, Repr

/-- Copy `c` of the boot record, where it is valid. -/
def State.bootCopy (s : State) (c : Nat) : Option BootRec :=
  let w := s.flashWords (0x10000 * c) 0 4
  let w0 := nth w 0 0
  let w1 := nth w 1 0
  if fld w0 47 32 = 0xB7B0 ∧ fld (nth w 3 0) 31 0 = crc32cWords (w.take 3) then
    some { copy := c, seq := fld w0 31 0, trial := bitOf w1 1, slot := fld w1 0 0 }
  else none

/-- `a` is ahead of `b` in 32-bit serial arithmetic. -/
def serialAhead (a b : Nat) : Bool :=
  let d := (a + 2 ^ 32 - b) % 2 ^ 32
  d != 0 && Nat.blt d (2 ^ 31)

/-- The newest boot record. -/
def State.newestBoot (s : State) : Option BootRec :=
  match s.bootCopy 0, s.bootCopy 1 with
  | some a, some b => if serialAhead b.seq a.seq then some b else some a
  | some a, none => some a
  | none, o => o

/-- The octets of a boot record. -/
def bootOctets (seq : Nat) (trial : Bool) (slot : Nat) : List Byte :=
  let ws := [mkWord [(32, 0xB7B0), (0, seq)], mkWord [(1, b2n trial), (0, slot)], 0]
  wordsOctets (ws ++ [toWord (crc32cWords ws)])

/-- The copy that the next record goes to, and its SEQ: the older copy and SEQ + 1. -/
def State.nextBoot (s : State) : Nat × Nat :=
  match s.newestBoot with
  | some r => (1 - r.copy, (r.seq + 1) % 2 ^ 32)
  | none => (0, 1)

/-- A boot record is written to copy `c`, whose sector is erased first. -/
def State.writeBoot (s : State) (c seq : Nat) (trial : Bool) (slot : Nat) : State :=
  (s.eraseFlash (0x10000 * c) (0x10000 * c + 0x10000)).putFlash (0x10000 * c) (bootOctets seq trial slot)

/-! ### Slots and sections (R561 to R563) -/

/-- The largest LEN of a section type (Table 18.5). -/
def secMax (t : Nat) : Nat := ([0, 1398101, 65536, 2796202, 1048832] : List Nat).getD t 0

/-- The directory of slot `b`: the entries in use, as TYPE and OFFSET. -/
def State.directory (s : State) (b : Nat) : List (Nat × Nat) :=
  (s.flashWords (slotBase b) 3 (min 4 (fld (s.flashWord (slotBase b) 2) 2 0))).map (fun w => (fld w 47 40, fld w 22 0))

/-- The words of the section at word `off` of slot `b`, its frame included, as its LEN tells. -/
def State.secWords (s : State) (b off : Nat) : Nat := 8 + fld (s.flashWord (slotBase b) off) 22 0

/-- Slot `b` is usable (R561). -/
def State.slotUsable_ (s : State) (b : Nat) : Bool :=
  let h := s.flashWords (slotBase b) 0 8
  let dir := s.directory b
  let ext := dir.map (fun e => (e.2, e.2 + s.secWords b e.2))
  fld (nth h 0 0) 47 32 == 0xB7A1 && fld (nth h 0 0) 31 16 == 0x7128 && fld (nth h 0 0) 15 0 == 1 &&
    fld (nth h 7 0) 31 0 == crc32cWords (h.take 7) && Nat.ble (fld (nth h 2 0) 2 0) 4 &&
    dir.all (fun e => Nat.ble 1 e.1 && Nat.ble e.1 4 && (dir.filter (fun f => f.1 == e.1)).length == 1) &&
    ext.all (fun x => Nat.ble 8 x.1 && Nat.ble x.2 slotWords &&
      (ext.filter (fun y => Nat.blt x.1 y.2 && Nat.blt y.1 x.2)).length == 1)

/-- The first word of the section of type `t` in slot `b`. -/
def State.section? (s : State) (b t : Nat) : Option Nat := ((s.directory b).find? (fun e => e.1 == t)).map (·.2)

/-- The key of a section's tag, where it is programmed. -/
def State.secKey (s : State) (t : Nat) : Option (BitVec 128) := if t = 1 then some Config.fwKey else s.img.key

/-- The rollback floor of a section type. -/
def State.secFloor (s : State) (t : Nat) : Nat := if t = 1 then s.img.fwMin else s.img.imgMin

/-- The status of the section of type `t` in a usable slot `b`, before it is applied: 1 where every check passes. -/
def State.secStatus (s : State) (b t : Nat) : Nat :=
  match s.section? b t with
  | none => 0
  | some off =>
    let n := s.secWords b off - 8
    let h := s.flashWords (slotBase b) off 4
    let tail := s.flashWords (slotBase b) (off + 4 + n) 4
    let ws := h ++ s.flashWords (slotBase b) (off + 4) n
    if fld (nth h 0 0) 47 40 ≠ t ∨ fld (nth h 0 0) 39 32 ≠ 1 ∨ secMax t < n ∨
        (t ≠ 1 ∧ fld (nth h 1 0) 47 16 ≠ fld (s.flashWord (slotBase b) 1) 47 16) ∨ 64 < fld (nth h 2 0) 6 0 then 2
    else if fld (nth tail 0 0) 31 0 ≠ crc32cWords ws then 3
    else
      match s.secKey t with
      | none => 5
      | some k =>
        let tag := (nth tail 1 0).toNat * 2 ^ 80 + (nth tail 2 0).toNat * 2 ^ 32 + fld (nth tail 3 0) 47 16
        if octNat (aesCmac (keyOct k) (bytesNat (wordsOctets (ws ++ tail.take 1)))) ≠ tag then 4
        else if fld (nth h 2 0) 6 0 < s.secFloor t then 6 else 1

/-- Four section statuses as IMG_SECT lays them out. -/
def sectWord (f : Nat → Nat) : Word := mkWord [(12, f 1), (8, f 2), (4, f 3), (0, f 4)]

/-- What CHECK of slot `b` finds. -/
def State.checkSlot (s : State) (b : Nat) : Word :=
  if s.slotUsable_ b then sectWord (s.secStatus b) else sectWord (fun _ => 8)

/-! ### Flash operations (R571) -/

/-- The range of an operation leaves the slot that did not boot. -/
def State.leavesSlot (s : State) (o : ImgOp) : Bool :=
  let b := slotBase (1 - s.rf 0xC000 0 0)
  !(Nat.ble b o.flash && Nat.ble (o.flash + o.len) (b + slotSize))

/-- RESULT 0x02 or 0x05 of an operation, 0 where it may run. -/
def State.imgRefusal (s : State) (o : ImgOp) : Nat :=
  match o.op with
  | 0 => if o.flash % 65536 ≠ 0 ∨ o.len % 65536 ≠ 0 then 2 else if s.leavesSlot o then 5 else 0
  | 1 => if o.flash % 256 ≠ 0 ∨ o.len = 0 then 2 else if s.leavesSlot o then 5 else 0
  | 2 => 0
  | 3 => if s.slotUsable_ (b2n o.slot) then 0 else 5
  | 4 => 0
  | 5 =>
    if s.rb 0xC000 10 || s.rf 0xC000 9 8 != 0 ||
        [12, 8, 4, 0].any (fun i => Nat.ble 2 (s.rf 0xC001 (i + 3) i)) then 5 else 0
  | 6 => if s.img.key.isSome || s.mode != .still then 5 else 0
  | _ => 2

/-- GO: the operation starts with the operands as they stand. -/
def State.startImg (s : State) : State :=
  let o : ImgOp :=
    { op := s.rf 0xC010 3 0, host := s.raw 0xC011, flash := s.rf 0xC012 25 0, len := s.rf 0xC013 25 0,
      trial := s.rb 0xC014 1, slot := s.rb 0xC014 0, bad := 0 }
  { s.setRf 0xC016 25 0 0 with img := { s.img with op := some { o with bad := s.imgRefusal o } } }

/-- An operation ends with a RESULT. -/
def State.endImg (s : State) (o : ImgOp) (result : Nat) : State :=
  let s := { s with img := { s.img with op := none } }
  ((s.setRf 0xC010 45 45 1).setRf 0xC010 39 32 result).notice 0x027 0 (o.op * 256 + result)

end Sys2Proof.Machine
end

