-- ==== Sys2Proof/Machine/QueueOps.lean ====
section
/-! DEFINITION. The command queues from the host's side: ring-control words, doorbells, fetches (R68 to R72), failed transfers
(R80, R599), function-level resets (R82), and the rules of NOP, FENCE and THAW. -/

namespace Sys2Proof.Machine

/-- A ring-control word may take effect: the queue is idle or disabled (R68). -/
def State.ringFree (s : State) (q : Nat) : Bool := s.qstate q == 0 || s.qstate q == 3

/-- A ring-control word (offsets 0 to 3) takes a value, which resets the queue (R68). -/
def State.ringControl (s : State) (q off : Nat) (v : Word) : State :=
  let a := adQueue q off
  (s.setReg a (v &&& regSetMask a)).resetQueue q

/-- A doorbell is in order (R70). -/
def State.doorbellOk (s : State) (q t : Nat) : Bool :=
  let n := s.rf (adQueue q 1) 4 0
  inSpan 6 20 n && inSpan 4 16 (s.rf (adQueue q 3) 4 0) && Nat.blt t (2 ^ n) && s.qstate q != 2 &&
    (Nat.blt q 8 || s.qbind q != 0)
where
  inSpan (lo hi v : Nat) : Bool := Nat.ble lo v && Nat.ble v hi

/-- A doorbell in order makes ring words available; none on a disabled queue or under a function-level reset. -/
def State.ringDoorbell (s : State) (q t : Nat) : State :=
  let u := s.queue q
  if t = u.tail ∨ s.qstate q = 3 ∨ u.resetDue then s
  else
    let s := s.setQueue q { u with tail := t }
    if s.qstate q = 0 then s.setQstate q 1 else s

/-- Records written and not yet consumed leave room again: commands that waited retire (R78). -/
def State.cplConsumed (s : State) (q head : Nat) : State :=
  let s := s.setReg (adQueue q 5) (toWord (head % 2 ^ 16))
  match (s.queue q).exec with
  | some e =>
    (match e.wait with
      | .room st pr re => if s.cplRoom q then s.finishCmd q e.header e.seq st pr re else s
      | _ => s)
  | none => s

/-- The words of the ring that are available and not yet fetched. -/
def State.fetchable (s : State) (q : Nat) : Nat :=
  let u := s.queue q
  let n := 2 ^ s.rf (adQueue q 1) 4 0
  (u.tail + n - u.fetch % n) % n

/-- Words are fetched into the staging buffer of 64 words, as far as it has room. -/
def State.fetchWords (s : State) (q : Nat) (ws : List Word) : State :=
  let u := s.queue q
  let k := min ws.length (min (s.fetchable q) (64 - u.staging.length))
  (s.setQueue q { u with
    fetch := (u.fetch + k) % 2 ^ s.rf (adQueue q 1) 4 0, staging := u.staging ++ ws.take k }).monEv 1 q 4 k

/-! ### NOP, FENCE, THAW -/

/-- The rule of NOP (R89). -/
def nopRule (c : Cmd) : CmdRule :=
  { opcode := 0x00, form := formCheck c 0xFFFFFFFF 0 c.ops.isEmpty [], priv := privNone, spMay := true,
    legal := legalAll, args := argsFine, run := fun s _ _ => .done s 0 c.args.toNat }

/-- The rule of FENCE (R96). -/
def fenceRule (c : Cmd) : CmdRule :=
  { opcode := 0x05, form := formCheck c 0 3 c.ops.isEmpty [],
    priv := fun _ p => if c.flag1 && !p.oper then some (0x05, 0, 0) else none, spMay := true,
    legal := legalAll, args := argsFine,
    run := fun s _ _ =>
      let pipe := if c.flag0 then some s.now else none
      let others := if c.flag1 then (s.execs.filter (fun x => x.1 != 64)).map (fun x => (x.1, x.2.seq)) else []
      if s.fenceWaits pipe others then .wait 0 (.fence pipe others) s else .done s 0 0 }

/-- A frozen queue goes on: the violating command gets its ABORTED record, or everything available is dropped (R88,
R545). -/
def State.thaw (s : State) (q : Nat) (discard : Bool) : State :=
  let v := (s.queue q).violating
  let s := (s.setRf (0x400 + 8 * q) 47 47 0).alarmClear 5 0x041 q
  let s := s.setQueue q { s.queue q with violating := none }
  if discard then
    let u := s.queue q
    (s.setQueue q { u with fetch := 0, tail := 0, staging := [], seq := (s.raw (adQueue q 8)).toNat }).setQstate q 0
  else
    match v with
    | some (n, h) => (s.setQstate q 1).finishCmd q h n stAborted 0 0
    | none => s.setQstate q (if (s.queue q).hasWords then 1 else 0)

/-- The rule of THAW (R88). -/
def thawRule (c : Cmd) : CmdRule :=
  let q := c.arg 5 0
  { opcode := 0x1A, form := formCheck c 0x3F 1 c.ops.isEmpty [], priv := privSuper, spMay := false,
    legal := legalUp, args := fun s _ => s.qstate q == 2,
    run := fun s _ _ =>
      .done (s.thaw q c.flag0) 0 (((s.queue q).violating.map (·.1)).getD 0) }

/-! ### Host writes to queue pages (R57, R68, R70, R78) -/

/-- Function `fn` reaches the page of queue `q` for writing: the PF those of queues 0 to 7 and of unbound queues, a VF
those bound to it. -/
def State.pageOpen (s : State) (fn q : Nat) : Bool :=
  if fn = 0 then Nat.blt q 8 || s.qbind q == 0 else Nat.ble 8 q && s.qbind q == fn

/-- A host write through a BAR: none while the link is down, and in DRY none has an effect (R150). -/
def State.barWrite (s : State) (ok : Bool) (f : State → State) : State :=
  if s.board.inReset || s.board.perst then s
  else if ok && s.mode != .dry then f s else s.bump 0x11000 1

/-- Byte offset `addr` of BAR0 of function `fn` is a host-writable word of a queue page that the function reaches. -/
def State.hostWord (s : State) (fn addr : Nat) : Bool :=
  let w := addr / 8
  let i := if fn = 0 then w - 0x10000 else w
  (fn != 0 || Nat.ble 0x10000 w) && Nat.blt i 0x1000 && Nat.ble (i % 0x40) 5 && s.pageOpen fn (i / 0x40)

/-! ### Fetches and failed transfers (R72, R80, R599) -/

/-- The queue fetches. -/
def State.fetches (s : State) (q : Nat) : Bool :=
  s.running && !s.board.perst && s.qstate q == 1 && !(s.queue q).resetDue && Nat.ble (s.queue q).fetchAt s.now &&
    (Nat.blt q 8 || s.qbind q != 0)

/-- A retry of queue `q` is within its budget at this tick (R80). -/
def State.queueBudget (s : State) (q : Nat) : Bool :=
  let w := s.rf 0x11003 23 8 * 1000000
  Nat.blt ((s.queue q).retries.filter (fun t => Nat.blt s.now (t + w))).length (s.rf 0x11003 3 0)

/-- Charge a retry to the queue's pool. -/
def State.queueCharge (s : State) (q : Nat) : State :=
  s.setQueue q { s.queue q with retries := s.now :: (s.queue q).retries }

/-- Retries are used up: the queue is disabled, with an alarm (R80). -/
def State.disableQueue (s : State) (q : Nat) : State := (s.setQstate q 3).alarm 4 0x040 q 0

/-- A failed completion write waits 10 microseconds, and its command with it: the command has not retired yet (R75, R80). -/
def State.rewriteCpl (s : State) (q : Nat) (l : LastCpl) : State :=
  let s := s.unwriteCpl q l
  let s := if s.qstate q = 3 then s else s.setQstate q 1
  (s.setReg (adQueue q 8) l.before).setExec q
    { header := l.header, seq := l.seq, progress := l.progress, since := s.now,
      wait := .rewrite (s.now + 10000) l.status l.progress l.result }

/-- A completion write that failed is made again, and its command retires (R75, R80). -/
def State.cplAgain (s : State) (q : Nat) (e : Exec) (status progress result : Nat) : State :=
  let s := s.writeCpl q e.header e.seq status progress result
  (if hdrIrq e.header then s.irqQueue q else s).closeCmd q e.seq

/-- The completion write made last on queue `q` fails: it is made again, or its record is lost and the queue disabled. The
command counts as retired in CMD_LAST_SEQ (R80). -/
def State.cplFails (s : State) (q : Nat) : State :=
  match (s.queue q).lastCpl with
  | none => s
  | some l => if s.queueBudget q then (s.queueCharge q).rewriteCpl q l else (s.unwriteCpl q l).disableQueue q

/-- A fetch fails: it is made again 10 microseconds later, or the queue is disabled (R80). -/
def State.fetchFails (s : State) (q : Nat) : State :=
  if s.queueBudget q then (s.queueCharge q).setQueue q { (s.queueCharge q).queue q with fetchAt := s.now + 10000 }
  else s.disableQueue q

/-- The work moves data between the device and the host. -/
def Work.transfers : Work → Bool
  | .give _ _ _ _ _ => true
  | .walk _ _ _ _ => true
  | .load _ _ _ _ _ _ => true
  | .key _ _ _ _ => true
  | .scanHost _ _ => true
  | .omci _ _ _ => true
  | .inject _ _ _ _ => true
  | _ => false

/-- A data transfer of the command in execution fails: it is made again 10 microseconds later, or the command ends with
ERR_MEM and its PROGRESS (R80). -/
def State.dataFails (s : State) (q : Nat) : State :=
  match (s.queue q).exec with
  | none => s
  | some e =>
    match e.wait with
    | .work hold w =>
      if !w.transfers then s
      else if s.queueBudget q then (s.queueCharge q).setExec q { e with wait := .work (max hold s.now + 10000) w }
      else s.endExec q stErrMem e.progress (s.stopResult e.wait)
    | _ => s

/-- A dump in progress is abandoned (R519). -/
def State.abandonDump (s : State) : State :=
  match s.mon.dump.run with
  | some _ => ({ s with mon := { s.mon with dump := { s.mon.dump with run := none } } }).bump 0x40033 1
  | none => s

/-! ### Function-level reset (R82) -/

/-- One queue of the function stops. -/
def State.vfQueue (s : State) (q : Nat) : State :=
  let s := s.dropLock q
  match (s.queue q).exec with
  | none => s.resetQueue q
  | some e =>
    (match e.wait with
      | .room _ _ _ => s.resetQueue q
      | .rewrite _ _ _ _ => s.resetQueue q
      | _ => s.setQueue q { s.queue q with resetDue := true })

end Sys2Proof.Machine
end

