-- ==== Sys2Proof/Machine/UplOps.lean ====
section
/-! DEFINITION. Uplink reception (R142, R191, R469), pages on their way to HBM (R417, R441), gate changes (R335) and the punt
path (R423, R424). -/

namespace Sys2Proof.Machine

/-! ### Uplink reception (R142, R191, R469) -/

/-- Slot `k` of port `p` receives frames. -/
def State.macReceives (s : State) (m : Nat) : Bool :=
  s.slotUsed (m / 8) (m % 8) && s.rb (adMac m) 0 && s.rb (adPort (m / 8) 0) 3 && s.rb (adPort (m / 8) 1) (8 + m % 8) &&
    !s.rb (adPort (m / 8) 1) 16

/-- A data frame on MAC `m` is accepted in the mode of this tick (Table 4.4, R142, R197). -/
def State.rxAccepts (s : State) (m : Nat) (bs : List Byte) : Bool :=
  s.traffic && (isPtp bs || (!s.macOhmad m && s.start.mode != .drain))

/-- Why a whole frame is discarded or made bad: the word of its statistics. -/
def State.rxCause (s : State) (m : Nat) (bs : List Byte) : Option Nat :=
  if bs.length < 64 then some 6
  else if s.rf (adMac m) 31 18 < bs.length then some 7
  else if !fcsOk bs then some 5
  else if num 2 12 bs = 0x8808 then some 8
  else none

/-- The word of the statistics that counts a data frame refused because of the mode: dropped in STILL, refused in DRAIN
(R135, R142). -/
def State.rxRefusal (s : State) (m : Nat) (bs : List Byte) : Option Nat :=
  if s.macOhmad m || isPtp bs then none
  else if s.start.mode = .drain then some 11
  else if s.start.mode = .still then some 10
  else none

/-- One codeword with symbol errors `e` on the lanes of MAC `m`: RS(544,514) corrects up to 15 symbols (R10, R511). -/
def State.countCodeword (s : State) (m : Nat) (e : List Nat) : State :=
  let e := (List.range (s.macLanes m).length).map (fun i => nth e i 0)
  let n := e.foldl (· + ·) 0
  if n = 0 then s
  else if 15 < n then s.bump (adMacStat m 35) 1
  else e.zipIdx.foldl (fun s x => s.bump (adMacStat m (39 + x.2)) x.1) ((s.bump (adMacStat m 34) 1).bump (adMacStat m 36) n)

/-- What the decoders of MAC `m` have corrected and found by the end of a frame: the errors of the line are free values
(entry 140). -/
def State.countFec (s : State) (m : Nat) : State :=
  ((Config.fecErrors s.free).foldl (fun s e => s.countCodeword m e) (s.bump (adMacStat m 37) (Config.pcsErrors s.free))).drew

/-- Count a frame that has ended; `refused` is the word of its refusal, if it was refused because of the mode. -/
def State.rxCount (s : State) (m : Nat) (bs : List Byte) (refused : Option Nat) (sfd : Nat) : State :=
  let s := ((s.bump (adMacStat m 19) bs.length).countSize m 12 bs.length).bwAdd (512 + m) bs.length
  let s := s.monEv 8 (m / 8) 1 1
  match s.rxCause m bs with
  | some w => s.bump (adMacStat m w) 1
  | none =>
    let s := s.countGood m 0 bs
    let s := if num 2 12 bs = 0x8809 then s.bump (adMacStat m 9) 1 else s
    let s := match refused with
      | some w => s.bump (adMacStat m w) 1
      | none => s
    s.timestamp m false sfd bs

/-- What came in as arrival `id` and whose decision has not been delivered is discarded (R191); copies of it end without their
FCS. -/
def State.spoilArrival (s : State) (id : Nat) (cut : Bool) : State :=
  let s := { s with cls := { s.cls with
    arrivals := s.cls.arrivals.filter (fun a => a.id != id),
    deciding := s.cls.deciding.filter (fun e => e.arr.id != id),
    oxbow := s.cls.oxbow.filter (fun o => o.arr.id != id) } }
  let live : List Nat := s.cat.pkts.filterMap (fun (x : Nat × Option Packet) =>
    match x.2 with
    | some p => if p.arr = id then some x.1 else none
    | none => none)
  if cut then live.foldl (fun s i => s.modPkt i (fun p => { p with cut := true })) s else s

/-- The tick by which the octets of a frame received so far have left their MAC: 95 ns after they were at the balls (Table
1.4); `n` octets, the first bit of which came at `sfd` / 256 tick. -/
def State.rxTick (s : State) (m n sfd : Nat) : Nat :=
  let r := max 1 (s.macRate m)
  ceilDiv (sfd * r + 256 * (8 * n) + 256 * 95 * r) (256 * r)

/-- What MAC `m` is receiving. -/
def State.rxOf (s : State) (m : Nat) : Option RxFrame := smGet (fun _ => none) s.cls.rxs m

/-- Store it. -/
def State.setRx (s : State) (m : Nat) (r : Option RxFrame) : State :=
  { s with cls := { s.cls with rxs := smSet (fun _ => none) s.cls.rxs m r } }

/-- 64 octets of a frame or its end have come: it becomes an arrival, or it is discarded before classification (R191). -/
def State.rxJudge (s : State) (m : Nat) (bs : List Byte) (f : UplFrame) : RxFrame × State :=
  let maxf := s.rf (adMac m) 31 18
  let fine := num 2 12 bs != 0x8808 && !(f.tail && (s.rxCause m bs).isSome) && Nat.ble bs.length maxf
  if fine && s.rxAccepts m bs then
    ({ octets := bs, judged := true, arr := some s.cls.arrNext, refused := none },
     s.arrive
      { id := s.cls.arrNext, src := m, octets := bs, len := if f.tail then bs.length else min f.len maxf, ended := f.tail,
        bad := false, xgem := 0, onu := 0, reqClass := 3, reqIndex := m, slow := num 2 12 bs == 0x8809,
        burst := none, ready := none })
  else ({ octets := bs, judged := true, arr := none, refused := if s.rxAccepts m bs then none else s.rxRefusal m bs }, s)

/-- More octets of a frame that is an arrival; one that runs too long or turns out bad is cut and made bad (R191, R403). -/
def State.rxMore (s : State) (m : Nat) (r : RxFrame) (bs : List Byte) (f : UplFrame) : RxFrame × State :=
  let maxf := s.rf (adMac m) 31 18
  let long := Nat.blt maxf bs.length
  let ends := f.tail || long
  let bad := long || (f.tail && (s.rxCause m bs).isSome)
  match r.arr with
  | none => ({ r with octets := bs }, s)
  | some id =>
    let s := s.feed id ((bs.take maxf).drop r.octets.length) ends bad
    ({ r with octets := bs, arr := if ends then none else r.arr }, if bad then s.spoilArrival id long else s)

/-- MAC `m` receives octets of a frame. -/
def State.rxFrame (s : State) (m : Nat) (f : UplFrame) : State :=
  let r := (s.rxOf m).getD { octets := [], judged := false, arr := none, refused := none }
  let bs := r.octets ++ f.octets
  let (r, s) := if r.judged then s.rxMore m r bs f
    else if f.tail || Nat.ble 64 bs.length then s.rxJudge m bs f
    else ({ r with octets := bs }, s)
  if f.tail then ((s.rxCount m bs r.refused f.sfd).countFec m).setRx m none else s.setRx m (some r)

/-! ### Queues -/

/-- The first queue that a packet whose first cell is out has not reached. -/
def Packet.nextQueue (p : Packet) : Option (Nat × Nat) :=
  if p.arrived = 0 then none
  else p.dests.findSome? (fun d =>
    match d with
    | .queue h x => some (h, x)
    | _ => none)

/-- The first MAC that a packet whose first cell is out has not reached. -/
def Packet.nextMac (p : Packet) : Option (Nat × Nat) :=
  if p.arrived = 0 then none
  else p.dests.findSome? (fun d =>
    match d with
    | .mac m c => some (m, c)
    | _ => none)

/-! ### Pages (R319, R417) -/

/-- How many octets of what is stored of packet `p` are present: its record, and the octets of its cells that have come out. -/
def Packet.storedHere (p : Packet) : Nat := if p.complete then storedOctets p.len else 8 + 128 * p.arrived

/-- The octets that page `g` holds are all present. -/
def State.pagePresent (s : State) (g : Page) : Bool :=
  g.segs.all (fun x =>
    match s.pkt x.1 with
    | some p => Nat.ble (x.2.1 + x.2.2) p.storedHere
    | none => true)

/-- Page `p` is written to HBM: cells whose packet then lies in written pages alone are freed. -/
def State.writePage (s : State) (p : Nat) (g : Page) : State :=
  let g := { g with written := true, kept := g.kept ++ s.keepOf g g.pkts }
  let s := ((s.setPage p (some g)).emitPage p g).monEv 20 (p / pcPages / 32) 1 1
  let done (e : QEntry) : Bool := e.pages.contains p && e.pages.all (fun x =>
    match s.page x with
    | some y => y.written
    | none => true)
  ((s.dq g.queue).entries.filter done).foldl (fun s e =>
    (s.traceStage ((s.pkt e.pkt).bind (·.trace)) 6).unref e.pkt) s

/-! ### Gates and the punt path -/

/-- The pending change of MAC `m` takes effect: the admin list comes into force from the other bank; the next tick begins at `x` (ns) or
later. -/
def State.changeGates (s : State) (m x : Nat) : State :=
  let u := s.gates m
  match u.pending with
  | none => s
  | some cct =>
    let g := s.adminList m cct
    let s := s.setGates m { oper := some g, pending := none, asked := 0 }
    let s := (s.setRf (adGate m 6) 47 47 0).setRf (adGate m 6) 46 46 g.bank
    ((s.setRf (adGate m 6) 9 0 g.idx).showGate m (max cct x)).settleEgress m

/-- The punted packet whose record comes next. -/
def State.nextPunt (s : State) : Option (Nat × Packet) :=
  s.cat.pkts.findSome? (fun (x : Nat × Option Packet) =>
    match x.2 with
    | some p => if p.punted && p.dests.contains .punt && p.complete then some (x.1, p) else none
    | none => none)

/-- The record of punted packet `i`. -/
def State.puntRecord (s : State) (i : Nat) (p : Packet) : State :=
  if !s.ringOpen ringPunt then ((s.bump 0x1D00404 1).killPkt i)
  else
    let bs := p.sent
    let ptr := if p.held then nth p.cells 0 0 * 128 else 0
    let w0 := mkWord [(44, p.reason), (43, b2n p.held), (33, p.src), (0, p.len)]
    let rest := [toWord (p.decided % 2 ^ 48), toWord ptr, mkWord [(20, p.akind), (0, p.index)]] ++
      octetsWords (ceilDiv bs.length 6) bs
    let s := (s.ringPut ringPunt w0 rest []).debitNode ndPunt 0 p.len
    let s := (s.traceStage p.trace 8).traceEnds p.trace false false false
    s.dropDest i .punt

end Sys2Proof.Machine
end

