-- ==== Sys2Proof/Machine/FaultOps.lean ====
section
/-! DEFINITION. Faults: retries, retirement, lane and signal losses, uncorrectable memory errors (17, R25, R173 to R175,
R196, R411 to R421, R528). -/

namespace Sys2Proof.Machine

/-! ### Resources (Table 3.10) -/

/-- Where the history of a resource is held. -/
def resKey (cls i : Nat) : Nat := cls * 2 ^ 24 + i

/-- An index of a class is in range. -/
def resOk (cls i : Nat) : Bool :=
  if cls = 0 then Nat.blt i 256 else if cls = 1 then Nat.blt i 128 else if cls = 2 then Nat.blt i 32
  else if cls = 3 then Nat.blt i 256 else if cls = 4 then Nat.blt i (7168 * 2048) else cls == 5 && Nat.blt i 32

/-- The most resources of a class that may be retired (Table 17.2). -/
def resLimit (cls : Nat) : Nat :=
  ([256, 128, 32, 32, 1024, 8] : List Nat).getD cls 0

/-- The spare of SRAM row `r`, plus 1; 0 where it is in service itself. -/
def State.rowSpare (s : State) (r : Nat) : Nat := smGet (fun _ => 0) s.flt.rows r

/-- A resource is retired. -/
def State.isRetired (s : State) (cls i : Nat) : Bool :=
  if cls = 0 then (s.lane (i / 2) (i % 2)).retired
  else if cls = 1 then (s.tree i).retired
  else if cls = 2 then s.rb (adPort i 1) 16
  else if cls = 3 then s.rb (adPc i) 19
  else if cls = 4 then s.rowSpare i != 0
  else smGet (fun _ => false) s.flt.pipes i

/-- The retired resources of a class other than SRAM rows. -/
def State.retiredOf (s : State) (cls : Nat) : List Nat :=
  if cls = 4 then s.flt.rows.map (·.1) else (List.range 256).filter (fun i => resOk cls i && s.isRetired cls i)

/-- The retry history of a resource. -/
def State.hist (s : State) (cls i : Nat) : RetryHist :=
  smGet (fun _ => { starts := [], busy := false, unbounded := false, advised := none }) s.flt.hist (resKey cls i)

/-- Store a retry history. -/
def State.setHist (s : State) (cls i : Nat) (h : RetryHist) : State :=
  { s with flt := { s.flt with
      hist := smSet (fun _ => { starts := [], busy := false, unbounded := false, advised := none }) s.flt.hist
        (resKey cls i) h } }

/-- A RETIRE or RESTORE resets the history of its resource; a retry in progress goes on (R541). -/
def State.clearHist (s : State) (cls i : Nat) : State :=
  s.setHist cls i { starts := [], busy := (s.hist cls i).busy, unbounded := false, advised := none }

/-- An entry of the retirement history (RETIRE_LOG). -/
def State.logRetire (s : State) (cls i : Nat) (restore : Bool) : State :=
  { s with flt := { s.flt with log := { cls := cls, restore := restore, tick := s.now, index := i } :: s.flt.log } }

/-! ### Commands that an event stops (R122) -/

/-- The command in execution works on tree `t`. -/
def onTree (t : Nat) (w : Wait) : Bool :=
  match w with
  | .sluiceSwap x => x == t
  | .setTx _ x _ => x == t
  | .work _ (.load x _ _ _ _ _) => x == t
  | _ => false

/-- The words of a scheduler node of Table 9.6. -/
def ndAddrs (n : Nat) : List Nat :=
  let i := n % 2 ^ 20
  match n / 2 ^ 20 with
  | 1 => (List.range 3).map (0x1100000 + 4 * i + ·)
  | 3 => (List.range 3).map (0x1020000 + 4 * i + ·)
  | 4 => (List.range 2).map (0x1010000 + 4 * i + ·)
  | _ => []

/-- The register words in which an uncorrectable error shows. -/
def memWords : MemWord → List Nat
  | .bank t b w => [adBank t.toNat (b2n b) w.toNat]
  | .onu h => [adOnu h.toNat 3, adOnu h.toNat 4]
  | .node n => ndAddrs n
  | .credit t c => [adTree t.toNat (0x1100 + c)]
  | _ => []

/-- What the outcome of an uncorrectable error writes (level 4 of Table 14.6). -/
def memPlaces : MemWord → List Place
  | .keyed t slot _ => [.keyed (kdKey (t.toNat + 1) slot)]
  | .gen copy t i => [.gen ((b2n copy * 4 + t.toNat) * 2 ^ 24 + i)]
  | .entry t i => [.indexed (t * 2 ^ 24 + i)]
  | .queue h => [.indexed (0x11 * 2 ^ 24 + h.toNat)]
  | .key n => [.slot n]
  | .bank _ _ _ => []
  | m => (memWords m).map Place.reg

/-- The word with an uncorrectable error lies in the structure that the command in execution works through. -/
def State.worksThrough (s : State) (m : MemWord) (w : Wait) : Bool :=
  match w, m with
  | .work _ (.insert i _), .keyed t _ _ => i.table == t.toNat + 1
  | .work _ (.delete u _), .keyed t _ _ => u == t.toNat + 1
  | .work _ (.flush _ _ _ _), .keyed t _ _ => t.toNat == 0
  | .work _ (.walk x _ _ _), .keyed t _ _ => (s.walk x).any (fun y => y.table == t.toNat + 1)
  | .work _ (.walk x _ _ _), .entry t _ => (s.walk x).any (fun y => y.table == t)
  | .work _ (.walk x _ _ _), .queue _ => (s.walk x).any (fun y => y.table == 0x11)
  | .work _ (.stage u _ _ _ _ _), .gen copy t _ => u == 0x20 + t.toNat && copy != s.activeCopy
  | .work _ (.load x _ _ _ _ _), .bank t b _ => x == t.toNat && b2n b != s.bankActive x
  | .work _ (.key c _ _ _), .key n => (keyNamed c).contains n
  | .work _ (.scanWords _ a left), m => (memWords m).any (fun x => Nat.ble a x && Nat.blt x (a + left))
  | .work _ (.defaults l), m => (memWords m).any (fun x => l.contains x)
  | _, _ => false

/-- The structure of Table 17.5 that the command in execution works through. -/
def State.workStructure (s : State) (w : Wait) : Option Nat :=
  match w with
  | .work _ (.insert _ _) => some 1
  | .work _ (.delete _ _) => some 1
  | .work _ (.flush _ _ _ _) => some 1
  | .work _ (.walk x _ _ _) => (s.walk x).map (fun y => if y.table ≤ 4 then 1 else if y.table = 0x11 then 6 else 2)
  | .work _ (.stage _ _ _ _ _ _) => some 2
  | .work _ (.load _ _ _ _ _ _) => some 3
  | .work _ (.scanWords _ a _) => if (treeOfWord a).isSome && inRange 0x2000 0x3FFF (a % 0x10000) then some 3 else none
  | .work _ (.key _ _ _ _) => some 5
  | _ => none

/-- The retirement of SRAM row `r` is one of the structure that the command in execution works through. Which structure a bank
belongs to is open. -/
def State.rowOf (s : State) (r : Nat) (w : Wait) : Bool := s.workStructure w == some (Config.bankStructure (r / 2048))

/-- The commands in execution that `p` selects stop (R122); in the tick of a fatal cause nothing ends (R123). -/
def State.stopWorks (s : State) (p : Wait → Bool) : State :=
  if s.running then s.execs.foldl (fun s x => if p x.2.wait then s.stopExec x.1 else s) s else s

/-! ### Losses (R528) -/

/-- A loss of lane `l` changes by `f`: an event where the loss at the line (or a retry) comes into force or ends, and one
for the handshake of its receive island. -/
def State.laneLoss (s : State) (t l : Nat) (f : Lane → Lane) : State :=
  let line (v : Lane) : Bool := v.lineLoss || v.retrying
  let old := s.lane t l
  let s := s.changeLane t l f
  let new := s.lane t l
  let s := if line old == line new then s else s.fault 0x282 (2 * t + l) (b2n (line new))
  if old.handshake == new.handshake then s else s.fault 0x282 (2 * t + l) (2 + b2n new.handshake)

/-- A loss of tree `t`'s transmit island, or its retry, changes. -/
def State.treeLoss (s : State) (t : Nat) (f : Tree → Tree) : State :=
  let lost (u : Tree) : Bool := u.handshake || u.retrying
  let old := s.tree t
  let s := s.changeTree t f
  let new := s.tree t
  if lost old == lost new then s
  else (if lost new then s.stopWorks (onTree t) else s).fault 0x283 t (b2n (lost new))

/-- What a change `f` does to the links of port `p`: events, LINK_DOWN, and packets of MACs that are no longer up. -/
def State.portChange (s : State) (p : Nat) (f : State → State) : State :=
  let was := s
  let s := f s
  let s := (List.range 8).foldl (fun s k =>
    let m := 8 * p + k
    let s := if was.lineUp m == s.lineUp m then s else s.fault 0x200 m (b2n (was.lineUp m))
    let hs (x : State) : Bool := smGet (fun _ => false) x.flt.portHs p
    let s := if hs was == hs s || !s.slotUsed p k then s else s.fault 0x200 m (2 + b2n (hs s))
    if was.linkUp m && !s.linkUp m then s.bump (adMacStat m 38) 1 else s) s
  s.emptyPort p

/-- The line of MAC `m` is lost or comes back; a retired port is powered down and has no line (R196). -/
def State.lineLoss (s : State) (m : Nat) (lost : Bool) : State :=
  if s.rb (adPort (m / 8) 1) 16 then s else s.portChange (m / 8) (fun s => s.setRf (adPort (m / 8) 1) (8 + m % 8) (8 + m % 8) (b2n (!lost)))

/-- The handshake of a port's island is lost or comes back. -/
def State.portHandshake (s : State) (p : Nat) (lost : Bool) : State :=
  s.portChange p (fun s => { s with flt := { s.flt with portHs := smSet (fun _ => false) s.flt.portHs p lost } })

/-- The handshake of an HBM island is lost or comes back. -/
def State.hbmLoss (s : State) (k : Nat) (lost : Bool) : State :=
  if smGet (fun _ => false) s.flt.hbmLost k == lost then s
  else ({ s with flt := { s.flt with hbmLost := smSet (fun _ => false) s.flt.hbmLost k lost } }).fault 0x500 k (b2n lost)

/-! ### Pages of a retired pseudo-channel (R420) -/

/-- Pages of pseudo-channel `c` in use. -/
def State.pagesOf (s : State) (c : Nat) : List Nat :=
  (s.cat.pages.filter (fun x => x.1 / pcPages == c && x.2.isSome)).map (·.1)

/-- Page `p` is copied to page `q`, and the chain is relinked; what is in HBM is encrypted again under its new place
(R446). -/
def State.relinkPage (s : State) (p q : Nat) (g : Page) : State :=
  let sub (l : List Nat) : List Nat := l.map (fun x => if x = p then q else x)
  let ent (e : QEntry) : QEntry := { e with pages := sub e.pages }
  let d := s.dq g.queue
  let s := s.setDq g.queue { d with
    entries := d.entries.map ent, openPage := d.openPage.map (fun x => if x = p then q else x) }
  let s := { s with dsq := { s.dsq with going := s.dsq.going.map (fun y =>
    match y with
    | Going.lane t l h e => Going.lane t l h (ent e)
    | Going.mac m e n => Going.mac m e n) } }
  let s := (s.takePage (q / pcPages) q g).setPage p none
  let s := { s with cat := { s.cat with stamped := s.cat.stamped.map (fun x => if x = p then q else x) } }
  let before := (((s.dq g.queue).entries.flatMap (·.pages)).takeWhile (· != q)).getLast?
  let s := match before with
    | some b => s.emitHeader b
    | none => s
  (if g.written then s.emitPage q g else s).bump 0x1D00407 1

/-- Page `p` cannot be read: packets with octets in it are bad (R418). -/
def State.pageBad (s : State) (p : Nat) : State :=
  match s.page p with
  | none => s
  | some g =>
    g.pkts.foldl (fun s i =>
      match s.pkt i with
      | some x => s.makeBad x.grp false
      | none => s) (s.setPage p (some { g with bad := true }))

/-- A page that cannot be moved: its packets are bad, and it is dropped from its chain. -/
def State.losePage (s : State) (p : Nat) : State :=
  let s := s.pageBad p
  match s.page p with
  | none => s
  | some g =>
    let drop (e : QEntry) : QEntry := { e with pages := e.pages.filter (· != p) }
    let d := s.dq g.queue
    let s := s.setDq g.queue { d with entries := d.entries.map drop }
    s.freePage p

/-- Move one page; the answer is the number of pages moved. A page for which none can be allocated counts as a refusal (R416, R420). -/
def State.movePage (s : State) (p pick : Nat) : Nat × State :=
  match s.page p, s.nextPc with
  | some g, some c => if g.bad then (0, s.losePage p) else (1, s.relinkPage p (s.popPage c pick) g)
  | some _, none => (0, (s.bump 0x1D00405 1).losePage p)
  | none, _ => (0, s)

/-- Move every page of pseudo-channel `c`. -/
def State.movePages (s : State) (c : Nat) (picks : List Nat) : Nat × State :=
  ((s.pagesOf c).zip (List.range (s.pagesOf c).length)).foldl (fun (r : Nat × State) x =>
    let y := r.2.movePage x.1 (nth picks x.2 0)
    (r.1 + y.1, y.2)) (0, s)

/-! ### Retries (R535 to R537) -/

/-- A pipe is reset: its packets in flight are dropped and counted (Table 17.2). -/
def State.dropPipe (s : State) (i : Nat) : State :=
  let gone := s.cls.deciding.filter (fun e => e.pipe == i)
  let s := { s with cls := { s.cls with deciding := s.cls.deciding.filter (fun e => e.pipe != i) } }
  (gone.foldl (fun s e => s.traceEnds e.trace true false false) s).bump (0x301 + 2 * 16) gone.length

/-- A resource is out of service for its retry, or back. -/
def State.retryService (s : State) (cls i : Nat) (on : Bool) : State :=
  if cls = 0 then s.laneLoss (i / 2) (i % 2) (fun v => { v with retrying := on })
  else if cls = 1 then s.treeLoss i (fun u => { u with retrying := on })
  else if cls = 2 then
    s.portChange i (fun s => { s with flt := { s.flt with portRetry := smSet (fun _ => false) s.flt.portRetry i on } })
  else if cls = 5 then
    let s := { s with flt := { s.flt with pipeRetry := smSet (fun _ => false) s.flt.pipeRetry i on } }
    if on then s.dropPipe i else s
  else s

/-- A retry starts. -/
def State.startRetry (s : State) (cls i : Nat) : State :=
  let h := s.hist cls i
  let s := s.setHist cls i { h with starts := s.now :: h.starts, busy := true }
  let s := { s with flt := { s.flt with
    retries := smSet (fun _ => 0) s.flt.retries cls (smGet (fun _ => 0) s.flt.retries cls + 1) } }
  (s.retryService cls i true).notice 0x020 cls i

/-! ### RETIRE and RESTORE (R538 to R541) -/

/-- The lowest free spare row of the bank of row `r`. -/
def State.freeSpare (s : State) (r : Nat) : Option Nat :=
  (List.range 8).find? (fun k => !s.flt.rows.any (fun x => x.1 / 2048 == r / 2048 && x.2 == k + 1))

/-- A class-3 RETIRE is in execution. -/
def State.pcMoving (s : State) : Bool := (List.range 256).any (fun c => s.rb (adPc c) 20)

/-- The effect of a retirement (Table 17.3), and what the command waits for. -/
def State.retireEffect (s : State) (cls i : Nat) : State × Option Wait :=
  if cls = 0 then ((s.changeLane (i / 2) (i % 2) (fun v => { v with retired := true })).dropLaneDown (i / 2), none)
  else if cls = 1 then ((s.changeTree i (fun u => { u with retired := true })).stopWorks (onTree i), none)
  else if cls = 2 then (s.portChange i (fun s => (s.setRf (adPort i 1) 16 16 1).setRf (adPort i 1) 15 8 0), none)
  else if cls = 3 then
    let s := (s.setRf (adPc i) 20 19 3).setRf (adPc i) 18 0 0
    ({ s with cat := { s.cat with
        lost := smSet (fun _ => false) s.cat.lost i false,
        relisted := s.cat.relisted.filter (fun x => x.1 / pcPages != i) } }, some (.pcMove i))
  else if cls = 4 then
    ({ s with flt := { s.flt with
        rows := smSet (fun _ => 0) s.flt.rows i ((s.freeSpare i).getD 0 + 1),
        copying := s.flt.copying ++ [(i, false)] } }.stopWorks (s.rowOf i), some (.rowCopy i))
  else ({ s with flt := { s.flt with pipes := smSet (fun _ => false) s.flt.pipes i true } }, none)

/-- RETIRE of a resource; `auto`: by the service processor's policy. One that is refused leaves the fault that led to it to
a retry (R539). -/
def State.retireRes (s : State) (auto : Bool) (cls i : Nat) : Ran :=
  if s.isRetired cls i then .done s 0 0
  else if cls = 3 ∧ s.pcMoving then .fin stRejectBusy 0 0 s
  else if resLimit cls ≤ (s.retiredOf cls).length ∨ (cls = 4 ∧ (s.freeSpare i).isNone) then
    .fin stRejectFull 0 0 (if auto then
      let t := (s.setHist cls i { s.hist cls i with unbounded := true }).alarm 13 0x023 cls i
      if (t.hist cls i).busy then t else t.startRetry cls i else s)
  else
    let (s, w) := s.retireEffect cls i
    let s := ((s.clearHist cls i).logRetire cls i false).alarm 11 0x021 cls i
    match w with
    | some w => .wait 0 w s
    | none => .done s 0 0

/-- A resource is back in service. -/
def State.restored (s : State) (cls i : Nat) : State :=
  ((s.clearHist cls i).logRetire cls i true).notice 0x024 cls i

/-- RESTORE of a resource. -/
def State.restoreRes (s : State) (cls i : Nat) : Ran :=
  if cls = 3 ∧ s.rb (adPc i) 20 then .fin stRejectBusy 0 0 s
  else if !s.isRetired cls i then .done s 0 0
  else if cls = 0 then
    .done ((s.changeLane (i / 2) (i % 2) (fun v => { v with retired := false })).restored 0 i) 0 0
  else if cls = 1 then .done ((s.changeTree i (fun u => { u with retired := false })).restored 1 i) 0 0
  else if cls = 2 then .done ((s.setRf (adPort i 1) 16 16 0).restored 2 i) 0 0
  else if cls = 3 then
    if s.execs.any (fun x => match x.2.wait with
        | .pcRebuild c _ => c == i
        | _ => false) then .fin stRejectBusy 0 0 s
    else .wait 0 (.pcRebuild i s.now) s
  else if cls = 4 then
    if s.flt.copying.any (fun x => x.1 == i) then .fin stRejectBusy 0 0 s
    else .wait 0 (.rowCopy i) { s with flt := { s.flt with copying := s.flt.copying ++ [(i, true)] } }
  else
    .done (({ s with flt := { s.flt with pipes := smSet (fun _ => false) s.flt.pipes i false } }).restored 5 i) 0 0

/-! ### Exhausted budgets (R536, R537) -/

/-- The word of the policy of a class (GLB_FLT_POL). -/
def adPol (cls : Nat) : Nat := 0x200 + cls

/-- The budget of a resource is used up. -/
def State.exhausted (s : State) (cls i : Nat) : Bool :=
  let w := s.rf (adPol cls) 23 8 * 10 ^ 9
  let h := s.hist cls i
  !h.unbounded && Nat.ble (s.rf (adPol cls) 3 0) (h.starts.filter (fun n => Nat.blt s.now (n + w))).length

/-- The service processor is to present a RETIRE of the resource on its command port, after those that wait (R37, R536). -/
def State.autoRetire (s : State) (cls i : Nat) : State :=
  if s.sp.policy.contains (cls, i) then s else { s with sp := { s.sp with policy := s.sp.policy ++ [(cls, i)] } }

/-- RETIRE_ADVISED is due again. -/
def State.adviseDue (s : State) (cls i : Nat) : Bool :=
  (s.hist cls i).advised.all (fun n => Nat.ble (n + s.rf (adPol cls) 23 8 * 10 ^ 9) s.now)

/-- A transient fault of a resource is stamped now. -/
def State.transient (s : State) (cls i : Nat) : State :=
  let h := s.hist cls i
  if s.isRetired cls i || h.busy then s
  else if s.sp.held then if cls = 3 ∨ cls = 5 then s.startRetry cls i else s
  else if !s.exhausted cls i then s.startRetry cls i
  else if s.rb (adPol cls) 47 then
    if s.spInReset then s else s.autoRetire cls i
  else
    let s := if s.adviseDue cls i then
        (s.setHist cls i { s.hist cls i with advised := some s.now }).alarm 12 0x022 cls i
      else s
    s.startRetry cls i

/-- A retry ends. -/
def State.endRetry (s : State) (cls i : Nat) : State :=
  if (s.hist cls i).busy then
    (s.setHist cls i { s.hist cls i with busy := false }).retryService cls i false
  else s

/-! ### Uncorrectable memory errors (R544, Table 17.5) -/

/-- Words of a node change by `f`, and its buckets follow. -/
def State.nodeChange (s : State) (n : Nat) (f : State → State) : State :=
  let was0 := s.shape n 0
  let was1 := s.shape n 1
  ((f s).rebucket n 0 was0).rebucket n 1 was1

/-- S of a structure. -/
def memStructure : MemWord → Nat
  | .packet _ => 0 | .cellHeader _ _ => 0 | .page _ => 0 | .keyed _ _ _ => 1 | .gen _ _ _ => 2 | .entry _ _ => 2
  | .bank _ _ _ => 3
  | .onu _ => 4 | .key _ => 5 | .queue _ => 6 | .node _ => 7 | .credit _ _ => 8 | .cellLink _ => 9 | .pageLink _ => 9
  | .pointer _ => 9 | .vital => 10

/-- SRC and DETAIL of MEM_UNCORR. -/
def memReport (e : MemErr) : Nat × Nat :=
  match e.word with
  | .page p => (0x100 + p.toNat / pcPages, p.toNat % pcPages)
  | .bank t b w => (3, t.toNat * 2 ^ 13 + b2n b * 2 ^ 12 + w.toNat)
  | w => (memStructure w, e.row.toNat)

/-- Another rule reports the error under its own code. -/
def memOwnCode (e : MemErr) : Bool :=
  match e.word with
  | .keyed _ _ _ => true
  | .cellLink _ => true
  | .pageLink _ => true
  | .pointer _ => true
  | _ => false

/-- A keyed slot with an uncorrectable word (R378, R379). -/
def State.slotLost (s : State) (t slot : Nat) (readable : Bool) : State :=
  let s := { s with tbl := { s.tbl with
    bad := smSet (fun _ => 0) s.tbl.bad (kdKey t slot) (if readable then 1 else 2) } }
  let l := smGet (fun _ => []) s.tbl.scrub t
  let s := if l.contains slot || Nat.ble 64 l.length then s
    else { s with tbl := { s.tbl with scrub := smSet (fun _ => []) s.tbl.scrub t (l ++ [slot]) } }
  (s.bump 0x1800019 1).fault 0x440 t slot

/-- The run of a tree that reads a bad bank word, its next instruction or an operand of it, stops, and its bank fails
(R242). A bad word that no run reads changes nothing. -/
def State.bankWordBad (s : State) (t b w : Nat) : State :=
  match (s.tree t).run with
  | some r =>
    if r.bank = b ∧ r.pc ≤ w ∧ w ≤ r.pc + sluOps (hdrOpcode (s.raw (adBank t b r.pc))) then (s.endRun t r).bankFails t
    else s
  | none => s

/-- The rest of a pseudo-channel's free list is abandoned (R416). -/
def State.abandonPages (s : State) (c : Nat) : State :=
  let n := s.rf (adPc c) 18 0
  let s := ((s.bump 0x1D00402 1).bump 0x1D00408 n).setRf (adPc c) 18 0 0
  ({ s with cat := { s.cat with
      lost := smSet (fun _ => false) s.cat.lost c true,
      relisted := s.cat.relisted.filter (fun x => x.1 / pcPages != c) } }).fault 0x4C0 (0x100 + c) 0

/-- Packet `i` is nowhere any more: queues, frames under way and Confluence give it up, and its cells are freed. -/
def State.purgePkt (s : State) (i : Nat) : State :=
  let s := s.dqBusy.foldl (fun (s : State) h =>
    let q := s.dq h
    if q.entries.all (fun e => e.pkt != i) then s
    else
      let l := q.entries.filter (fun e => e.pkt != i)
      let u := s.setDq h { q with entries := l, spilled := q.spilled && l.any (fun e => !e.pages.isEmpty) }
      ((q.entries.filter (fun e => e.pkt == i)).foldl State.releaseEntry u).settleDeficits (s.dqTree h)) s
  let s := s.egBusy.foldl (fun (s : State) q => (s.setEgq q ((s.egq q).filter (fun e => e.pkt != i))).settleEgress (q / 8)) s
  let stage (m : SMap (List FCell)) : SMap (List FCell) :=
    (m.map (fun (x : Nat × List FCell) => (x.1, x.2.filter (fun c => c.pkt != i)))).filter (fun x => !x.2.isEmpty)
  let held (m : SMap (List (FCell × Nat))) : SMap (List (FCell × Nat)) :=
    (m.map (fun (x : Nat × List (FCell × Nat)) => (x.1, x.2.filter (fun c => c.1.pkt != i)))).filter (fun x => !x.2.isEmpty)
  let c := s.cfl
  let s := { s with
    cfl := { c with inputs := stage c.inputs, middles := stage c.middles, reseq := held c.reseq },
    dsq := { s.dsq with going := s.dsq.going.filter (fun g =>
      match g with
      | .lane _ _ _ e => e.pkt != i
      | .mac _ e _ => e.pkt != i) } }
  (s.killPkt i).injected i

/-- A packet whose pointer fails its check is dropped (R412). -/
def State.pointerLost (s : State) (i : Nat) : State :=
  match s.pkt i with
  | none => s
  | some p => ((s.bump 0x1D00403 1).fault 0x4C1 p.output 0).purgePkt i

/-- The outcome of an uncorrectable error for its structure. -/
def State.memOutcome (s : State) (e : MemErr) : State :=
  match e.word with
  | .packet i =>
    match s.pkt i with
    | some p => s.makeBad p.grp false
    | none => s
  | .cellHeader i n => s.loseCell i n
  | .page p => (s.pageBad p.toNat).bump 0x1D00406 1
  | .keyed t slot readable => s.slotLost (t.toNat + 1) slot readable
  | .gen copy t i =>
    let x := 0x20 + t.toNat
    s.setGen copy x i (clearValid (entryWords x) (s.genEntry copy x i))
  | .entry x i =>
    if x = 0x10 ∨ x = 0x12 ∨ x = 0x13 then s.setEntry x i (clearValid (entryWords x) (s.entry x i)) else s
  | .bank t b w => s.bankWordBad t.toNat (b2n b) w.toNat
  | .onu h => (s.setRf (adOnu h.toNat 3) 47 47 0).setRf (adOnu h.toNat 4) 47 47 0
  | .key n => s.setSlot n { s.slot n with valid := false }
  | .queue h =>
    match s.deleteIndexed 0x11 h.toNat with
    | .fin _ _ _ t => t
    | _ => s
  | .node n => s.nodeChange n (fun s => (ndAddrs n).foldl (fun s a => s.setReg a (regFactory a)) s)
  | .credit t c => s.setRf (adTree t.toNat (0x1100 + c)) 23 0 0
  | .cellLink b =>
    ({ s with cat := { s.cat with rebuild := smSet (fun _ => none) s.cat.rebuild b.toNat (some s.now) } }.bump 0x1D00402 1).fault
      0x4C0 b.toNat 0
  | .pageLink c => s.abandonPages c.toNat
  | .pointer i => s.pointerLost i
  | .vital => s.fatal 0x06 e.unit.toNat e.row.toNat

/-- The resource that an uncorrectable error counts against: the pseudo-channel of a page, else the SRAM row. -/
def memResource (e : MemErr) : Nat × Nat :=
  match e.word with
  | .page p => (3, p.toNat / pcPages)
  | .pageLink c => (3, c.toNat)
  | _ => (4, e.row.toNat)

/-- An uncorrectable memory error is counted and logged, stops the commands that work through its structure (R122), has its
outcome, which no write of a lower level of this tick undoes (R476), and counts as a fault of its resource. In the tick of a fatal
cause it is recorded as in any other (R478). -/
def State.memError (s : State) (e : MemErr) : State :=
  let r := memReport e
  let s := s.bump (0x301 + 2 * e.unit.toNat) 1
  let log : UncorrEntry :=
    { unit := e.unit.toNat, structure_ := memStructure e.word, src := r.1, detail := r.2, tick := s.tick48 }
  let s := { s with flt := { s.flt with uncorr := (log :: s.flt.uncorr).take 256 } }
  let s := if memOwnCode e then s else s.fault (64 * e.unit.toNat + 0x20) r.1 r.2
  let s := s.stopWorks (s.worksThrough e.word)
  let s := (s.memOutcome e).claim 4 (memPlaces e.word)
  if s.running then s.transient (memResource e).1 (memResource e).2 else s

end Sys2Proof.Machine
end

