-- ==== Sys2Proof/Machine/Views.lean ====
section
/-! DEFINITION. What a read of a register word returns (R51, R94): the stored word without its WO bits, and the words
and fields that show state held elsewhere. -/

namespace Sys2Proof.Machine

/-- The two bits [1:0] of a word whose bits are given. -/
def bits2 (f : Nat → Bool) : Nat := b2n (f 0) + 2 * b2n (f 1)

/-- The number whose bit `i`, for i below `n`, is `f i`. -/
def bitsNat (n : Nat) (f : Nat → Bool) : Nat := ((List.range n).map (fun i => b2n (f i) * 2 ^ i)).foldl (· + ·) 0

/-- The network time by which a reader places the present frame: a boundary in this tick shows from the next. -/
def State.frameNtNow (s : State) : Nat := s.nt - 1

/-- The counter of the present frame as it reads, and its boundary in whole nanoseconds (R471). -/
def State.sfcShown (s : State) (t : Nat) : Nat := s.frameCount t s.frameNtNow
def State.todShown (s : State) (t : Nat) : Nat := s.frameBegan t s.frameNtNow / 2 ^ 40

/-- TRE_STATUS (Table 5.11). -/
def State.treeStatus (s : State) (t : Nat) : Word :=
  mkWord [(7, b2n (s.treeUp t)), (6, b2n (s.tree t).retired), (4, bits2 (fun l => (s.lane t l).retired)),
    (2, bits2 (s.laneLost t)), (0, s.lanesUp t)]

/-- The computed words of a tree window. -/
def State.viewTree (s : State) (a : Nat) (w : Word) : Word :=
  let t := (a - 0x100000) / 0x10000
  let off := (a - 0x100000) % 0x10000
  if off = 4 ∨ off = 0x22 then toWord (s.sfcShown t)
  else if off = 5 ∨ off = 0x23 then toWord (s.sfcShown t / 2 ^ 48)
  else if off = 8 then s.treeStatus t
  else if off = 0x10 then setFld w 0 0 (b2n (s.ptxdis t 0))
  else if off = 0x11 then setFld w 0 0 (b2n (s.ptxdis t 1))
  else if off = 0x24 then toWord (s.todShown t / 10 ^ 9)
  else if off = 0x25 then toWord (s.todShown t % 10 ^ 9)
  else w

/-- The level on GPIO `g` as the GPIO word shows it (Table 19.3). -/
def State.gpioLevel (s : State) (g : Nat) : Bool :=
  if g < 2 then s.gpioUp g
  else if 8 ≤ g ∧ s.rb 0x12 (24 + (g - 8)) then s.rb 0x12 (16 + (g - 8))
  else s.board.gpioIn.testBit g

/-- What the pin SYNCE_RCLK carries (R468): the recovered clock of an uplink receive lane, 8 p + j, and the number by which
it is divided; none while the pin is held low, for want of a signal on the lane, or not driven. -/
def State.synceRclk (s : State) : Option (Nat × Nat) :=
  let n := s.rf 0x80012 10 3
  let mac := 8 * (n / 8) + n % 8 * 2 ^ s.portMode (n / 8) / 8
  if s.rb 0x80012 15 && s.lineUp mac then some (n, if s.rb 0x80012 14 then 2125 else 340) else none

/-- The computed words of the GLB, PWR, THM and IMG blocks. -/
def State.viewGlb (s : State) (a : Nat) (w : Word) : Word :=
  if a = 0x11 then toWord (s.board.straps % 32)
  else if a = 0x12 then setFld w 15 0 (bitsNat 16 s.gpioLevel)
  else if a = 0x20 then mkWord [(7, b2n s.drainLimited), (3, s.prevMode.code), (0, s.mode.code)]
  else if a = 0x21 then toWord s.modeTick
  else if a = 0x23 then s.drainWord
  else if a = 0x110 then setFld w 1 1 (b2n s.sp.req.isSome)
  else if a = 0x210 then toWord (bitsNat 32 (s.isRetired 5))
  else if a = 0x211 then
    let n (c : Nat) : Nat := (s.retiredOf c).length
    mkWord [(39, n 0), (31, n 1), (25, n 2), (19, n 3), (8, n 4), (4, n 5)]
  else if a = 0xC004 then mkWord [(15, b2n s.img.key.isSome), (8, s.img.fwMin), (0, s.img.imgMin)]
  else if a = 0xC010 then setFld w 46 46 (b2n s.img.op.isSome)
  else w

/-- The queues that are frozen, from queue `q0` on. -/
def State.frozenFrom (s : State) (q0 n : Nat) : Word := toWord (bitsNat n (fun i => s.qstate (q0 + i) == 2))

/-- Alarms with a level bit set, from alarm `a0` on (EVT_ALMSUM). -/
def State.alarmSum (s : State) (a0 n : Nat) : Word :=
  toWord (bitsNat n (fun i => (List.range 4).any (fun k => s.raw (0x20100 + 4 * (a0 + i) + k) != 0)))

/-- The computed words of the CMD and EVT blocks. -/
def State.viewCmd (s : State) (a : Nat) (w : Word) : Word :=
  if a = 0x11004 then s.frozenFrom 0 48
  else if a = 0x11005 then s.frozenFrom 48 16
  else if a = 0x11006 then toWord (bitsNat 8 (fun i => s.cmd.walks.any (fun x => x.1 == i)))
  else if a = 0x20014 then toWord s.evt.staged.length
  else if a = 0x200F0 then s.alarmSum 0 48
  else if a = 0x200F1 then s.alarmSum 48 16
  else w

/-- BUSY of check unit `n`: a scan of it is in execution (Table 16.11). -/
def State.crcBusy (s : State) (n : Nat) : Bool :=
  s.execs.any (fun x => match x.2.wait with
    | .work _ (.scanHost m _) => m == n
    | .work _ (.scanWords m _ _) => m == n
    | _ => false)

/-- The computed words of the MON, CRC and KEY blocks. -/
def State.viewMon (s : State) (a : Nat) (w : Word) : Word :=
  if a = 0x40012 then toWord (s.mon.traces.filter (fun x => x.2.isSome)).length
  else if a = 0x40030 then setFld w 47 47 (b2n s.mon.dump.run.isSome)
  else if 0x41000 ≤ a ∧ a < 0x412C0 ∧ a % 32 = 0 then
    let u := (a - 0x41000) / 32
    let n := smGet (fun _ => 0) s.mon.cyc u
    toWord (s.islandRan u (s.rf (a + 1) 8 0) n (s.now - n))
  else if 0x60000 ≤ a ∧ a < 0x60040 ∧ a % 16 = 0 then setFld w 47 47 (b2n (s.crcBusy ((a - 0x60000) / 16)))
  else if a = 0x70000 then
    match s.key.lock with
    | some (q, _) => mkWord [(6, 1), (0, q)]
    | none => 0
  else w

/-- A 1PPS input edge was stamped in the last 1.5 s. -/
def State.ppsPresent (s : State) : Bool :=
  match s.ppsAt with
  | some n => Nat.blt s.now (n + 1500000000)
  | none => false

/-- The computed words of the TIM block (Table 14.1). -/
def State.viewTim (s : State) (a : Nat) (w : Word) : Word :=
  if a = 0x80000 then toWord s.tick48
  else if a = 0x80001 then toWord (s.ntNs / 10 ^ 9)
  else if a = 0x80002 then mkWord [(32, s.nt / 2 ^ 24 % 2 ^ 16), (0, s.ntNs % 10 ^ 9)]
  else if a = 0x80003 then setFld w 0 0 (b2n s.ppsPresent)
  else w

/-- UPL_STATUS (Table 5.15). DESIGN CHOICE (entry 98): MEMBER_UP shows a MAC that satisfies the conditions of R194 also
while its LAG_ID is 0; the table does not say what it shows of a MAC that is no LAG member. -/
def State.viewUpl (s : State) (a : Nat) (w : Word) : Word :=
  if (a - 0xA0000) % 0x800 = 1 then
    let p := (a - 0xA0000) / 0x800
    setFld (setFld w 15 8 (bitsNat 8 (fun k => s.slotUsed p k && s.linkUp (8 * p + k)))) 7 0
      (bitsNat 8 (fun k => s.slotUsed p k && s.macUp (8 * p + k)))
  else w

/-- Word `a` as a read shows it. -/
def State.view (s : State) (a : Nat) : Word :=
  let w := s.raw a &&& ~~~(regTriggerMask a)
  if a < 0x10000 then s.viewGlb a w
  else if a < 0x40000 then s.viewCmd a w
  else if a < 0x80000 then s.viewMon a w
  else if a < 0x90000 then s.viewTim a w
  else if 0xA0000 ≤ a ∧ a < 0xB0000 then s.viewUpl a w
  else if 0x100000 ≤ a ∧ a < 0x900000 then s.viewTree a w
  else if a = 0x1800024 then toWord s.tbl.learn.length
  else w

/-! ### Host reads through the BARs (R12, R42 to R49, R57) -/

/-- The word at word offset `w` of BAR0 of function `fn`: the whole map for the PF; for a VF the pages of its queues, a copy
of GLB_ID and VF_TENANT (Tables 2.2 and 2.3). What is reserved or unassigned reads zero. -/
def State.barWord (s : State) (fn w : Nat) : Word :=
  if fn = 0 then if regAssigned w then s.view w else 0
  else if w < 0x1000 then
    if Nat.ble 8 (w / 0x40) && s.qbind (w / 0x40) == fn && regAssigned (0x10000 + w) then s.view (0x10000 + w) else 0
  else if w = 0x1000 then s.view 0
  else if w = 0x1001 then toWord fn
  else 0

/-- The MSI-X vectors of a function (Table 2.1). -/
def msixVectors (fn : Nat) : Nat := if fn = 0 then 128 else 4

/-- The 8-octet slot `w` of BAR2 of function `fn`: the MSI-X table, two slots a vector, as the host has filled it in, and
behind it the pending bits, of which none stays set since every message leaves at once (entry 99). -/
def barTable (fn w : Nat) : BitVec 64 := if w < 2 * msixVectors fn then Config.msixTable fn w else 0

/-- The 8-octet slot `w` of a BAR of function `fn`. -/
def State.barSlot (s : State) (fn : Nat) (table : Bool) (w : Nat) : BitVec 64 :=
  if table then barTable fn w else slotOf ((if s.running then s.atStart else s).barWord fn w)

/-- What a naturally aligned host read of 8 octets, or of 4, returns at octet offset `addr` of BAR0, or of BAR2 (`table`),
of function `fn` (R42, R43): of 4 octets the matching half of the slot. The answer is all that the read brings: it leaves the state as it
is. While the link is down no read arrives. -/
def State.barRead (s : State) (fn : Nat) (table : Bool) (addr : Nat) (half : Bool) : Option (BitVec 64) :=
  if s.board.inReset || s.board.perst then none
  else
    let v := s.barSlot fn table (addr / 8)
    some (if half then (if addr % 8 < 4 then v &&& 0xFFFFFFFF else v >>> 32) else v)

end Sys2Proof.Machine
end

