-- ==== Sys2Proof/Machine/RegCheck.lean ====
section
/-! DEFINITION. Checks of a command write: ranges and consistency (REJECT_ARG) and what holds a word busy (REJECT_BUSY),
register by register. In each, `s` is the state before the write and `x` the state with every word stored. -/

namespace Sys2Proof.Machine

/-- One word of a command write: its address, the mask of the bits written, and the value (R93, R95). -/
structure WordWrite where
  addr : Nat
  mask : Word
  value : Word
deriving DecidableEq, Repr

/-- The write reaches field [hi:lo]. -/
def WordWrite.touches (w : WordWrite) (hi lo : Nat) : Bool := w.mask &&& maskOf hi lo != 0

/-- The triggers that the write pulls (WO bits written as 1). -/
def WordWrite.trig (w : WordWrite) : Word := w.value &&& w.mask &&& regTriggerMask w.addr

/-- Field [hi:lo], where the write reaches it, satisfies `p` afterwards. -/
def WordWrite.fits (w : WordWrite) (x : State) (hi lo : Nat) (p : Nat → Bool) : Bool :=
  !w.touches hi lo || p (x.rf w.addr hi lo)

/-- Level bits of alarms clear under R529 alone. -/
def isAlarmWord (a : Nat) : Bool := Nat.ble 0x20100 a && Nat.blt a 0x20200

/-- Word `a` under a command write: what a write can set stands as at the start of the tick, since a happening of a lower
level that has changed it in this tick is lost (R231, R476). -/
def State.writeBase (s : State) (a : Nat) : Word := merge (s.raw a) (regSetMask a) (s.atStart.raw a)

/-- Store one word: RW and RWS fields take the value, W1C bits written as 1 clear (R51, R52). -/
def State.storeWord (s : State) (w : WordWrite) : State :=
  let clear := if isAlarmWord w.addr then 0 else regClearMask w.addr &&& w.mask &&& w.value
  s.setReg w.addr (merge (s.writeBase w.addr) (regSetMask w.addr &&& w.mask) w.value &&& ~~~clear)

/-! ### Ranges -/

/-- A ring size of 2^n records: n = lo to hi, or 0 for no ring. -/
def sizeOk (lo hi n : Nat) : Bool := n == 0 || inRange lo hi n

/-- GLB, THM (Tables 17.2, 19.8; R593). -/
def argGlb (x : State) (w : WordWrite) : Bool :=
  if 0x200 ≤ w.addr ∧ w.addr ≤ 0x205 then w.fits x 23 8 (Nat.ble 1)
  else if w.addr = 0x8000 then
    !w.touches 31 0 ||
      (inRange 105 120 (x.rf 0x8000 31 24) && inRange 60 (x.rf 0x8000 31 24 - 1) (x.rf 0x8000 23 16) &&
        inRange 96 110 (x.rf 0x8000 15 8) && inRange 60 (x.rf 0x8000 15 8 - 1) (x.rf 0x8000 7 0))
  else true

/-- EVT (R533). -/
def argEvt (x : State) (w : WordWrite) : Bool :=
  if w.addr = 0x20001 then w.fits x 4 0 (sizeOk 6 16)
  else if w.addr = 0x20005 then w.fits x 47 32 (Nat.ble 1) && w.fits x 31 0 (inRange 1 1000000)
  else if w.addr = 0x20008 then
    let d (hi lo : Nat) : Nat := x.rf 0x20008 hi lo
    !w.touches 34 0 ||
      (Nat.blt (d 6 0) (d 34 28) && Nat.ble (d 34 28) (d 27 21) && Nat.ble (d 27 21) (d 20 14) && Nat.ble (d 20 14) (d 13 7))
  else true

/-- The highest event code of each unit (Table 16.4). -/
def unitEvents (u : Nat) : Nat := ([2, 5, 4, 3, 2, 3, 2, 2, 5, 1, 3, 4, 2, 5, 2, 5, 6, 4, 3, 4, 3, 4] : List Nat).getD u 0

/-- Sets and words per set of a counter family (Table 16.7). -/
def famSets (f : Nat) : Nat := ([1048576, 524288, 65536, 262144, 65536, 513] : List Nat).getD f 0
def famWords (f : Nat) : Nat := ([4, 12, 8, 8, 4, 4] : List Nat).getD f 0

/-- B, the words of a dump's body for FAMILIES (R516). -/
def dumpBody (fam : Nat) : Nat :=
  ((List.range 6).map (fun f => if fam.testBit f then famSets f * famWords f else 0)).foldl (· + ·) 0

/-- The octets that a counter dump takes. -/
def dumpOctets (fam : Nat) : Nat := (16 + dumpBody fam) * 8

/-- MON (R507, R514, R517, R522). -/
def argMon (x : State) (w : WordWrite) : Bool :=
  let a := w.addr
  if a = 0x40010 then w.fits x 5 0 (inRange 4 40)
  else if a = 0x40019 then w.fits x 3 0 (sizeOk 4 12)
  else if a = 0x40020 then w.fits x 29 0 (inRange 1000 1000000000)
  else if a = 0x40030 then
    w.fits x 45 40 (fun n => x.mon.dump.size == 0 || Nat.ble (dumpOctets n) x.mon.dump.size)
  else if 0x41000 ≤ a ∧ a < 0x412C0 then
    let u := (a - 0x41000) / 32
    let k := a % 32
    if k = 1 then w.fits x 8 0 (fun i => Nat.blt i (unitParts u))
    else if 2 ≤ k ∧ k < 10 then
      w.fits x 7 0 (fun e => Nat.ble e (unitEvents u)) &&
        w.fits x 44 36 (fun i => i == 0x1FF || Nat.blt i (unitParts u))
    else true
  else true

/-- KEY and TIM (R456, R463). -/
def argTim (x : State) (w : WordWrite) : Bool :=
  let a := w.addr
  let signedIn (lo hi : Int) (n : Nat) : Bool := decide (lo ≤ signed 32 n) && decide (signed 32 n ≤ hi)
  if a = 0x70001 then w.fits x 23 0 (inRange 100 10000000)
  else if a = 0x80004 then w.fits x 31 0 (signedIn (-134217728) 134217727)
  else if a = 0x80010 then w.fits x 31 0 (signedIn (-500000000) 499999999)
  else if a = 0x80011 then w.fits x 29 0 (inRange 100 500000000)
  else if a = 0x80021 then w.fits x 3 0 (sizeOk 4 12)
  else true

/-- OHM (R480, R493, R501). -/
def argOhm (s x : State) (w : WordWrite) : Bool :=
  let a := w.addr
  if a = 0x90000 then w.fits x 47 36 (fun n => Nat.ble n 4094)
  else if a = 0x90001 then w.fits x 47 36 (fun n => Nat.ble n 4094) && w.fits x 19 0 (inRange 131072 262143)
  else if a = 0x90002 then w.fits x 31 16 (inRange 100 50000) && w.fits x 15 0 (inRange 100 10000)
  else if a = 0x90003 then w.fits x 31 16 (inRange 1 1000) && w.fits x 15 0 (inRange 0 10000)
  else if a = 0x90004 then w.fits x 15 0 (inRange 10 10000)
  else if a = 0x90010 then !w.touches 47 16 || s.rb 0x90008 47
  else if a = 0x90014 then w.fits x 12 0 (fun n => Nat.ble n 4096)
  else if 0x90100 ≤ a ∧ a < 0x90200 ∧ a % 2 = 1 then
    w.fits x 31 0 (fun n => decide (-4976640 ≤ signed 32 n) && decide (signed 32 n ≤ 4976640))
  else true

/-- The members of LAG `g` have one PORT_MODE, and there are at most 32 (R193). -/
def State.lagOk (x : State) (g : Nat) : Bool :=
  let l := x.lagMembers g
  Nat.ble l.length 32 && l.all (fun m => l.all (fun n => x.portMode (m / 8) == x.portMode (n / 8)))

/-- The MACs of all enabled ports (R188). -/
def State.macTotal (x : State) : Nat :=
  ((List.range 32).map (fun p => if x.rb (adPort p 0) 3 then 2 ^ x.portMode p else 0)).foldl (· + ·) 0

/-- UPL (R188, R193, R480). -/
def argUpl (s x : State) (w : WordWrite) : Bool :=
  let p := (w.addr - 0xA0000) / 0x800
  let off := (w.addr - 0xA0000) % 0x800
  if off = 0 then
    let om := (List.range 32).filter (fun q => x.rb (adPort q 0) 7)
    Nat.ble (x.portMode p) 3 && (Nat.ble x.macTotal 128 || Nat.ble x.macTotal s.macTotal) &&
      (!x.rb w.addr 7 || (x.portMode p == 0 && Nat.ble om.length 2))
  else if 0x10 ≤ off ∧ off < 0x18 then
    let k := off - 0x10
    w.fits x 31 18 (inRange 64 9600) && w.fits x 14 8 (fun n => Nat.ble n 64) &&
      !(w.touches 0 0 && x.rb w.addr 0 && !x.slotUsed p k) &&
      !(w.touches 14 8 && x.rf w.addr 14 8 != 0 && (x.rb (adPort p 0) 7 || !x.lagOk (x.rf w.addr 14 8)))
  else true

/-- The downstream queues with an entry in the queue table. -/
def State.dqListed (s : State) : List Nat :=
  (s.tbl.indexed.filter (fun x => x.1 / 2 ^ 24 == 0x11)).map (fun x => x.1 % 2 ^ 24)

/-- Tree `t` may take owner tag `o` (R61). -/
def State.ownerOk (s : State) (t o : Nat) : Bool :=
  o == 0 ||
    ((List.range 512).all (fun e => !s.onuUsed (t * 512 + e) || s.onuOwner (t * 512 + e) == o) &&
      s.dqListed.all (fun h => !(s.dqValid h && s.dqMulti h && s.dqTree h == t) || s.dqOwner h == o) &&
      (s.grpPairs t).all (fun n => s.slotOwner n == o && s.slotOwner (n + 1) == o))

/-- The entries of TRE_GRP of tree `t` that are valid, by their number. -/
def State.grpValid (s : State) (t : Nat) : List Nat := (List.range 16).filter (fun i => s.rb (adGrp t i) 47)

/-- Entry `i` of TRE_GRP of tree `t` (R457). -/
def State.grpOk (x : State) (t i : Nat) : Bool :=
  let a := adGrp t i
  let n := x.rf a 17 0
  n % 2 == 0 && Nat.ble 131072 n &&
    (List.range 128).all (fun u => u == t || !(x.grpPairs u).contains n) &&
    (!x.rb a 47 ||
      ((x.grpValid t).all (fun j => j == i || x.rf (adGrp t j) 46 31 != x.rf a 46 31) &&
        x.slotOwner n == x.treeOwner t && x.slotOwner (n + 1) == x.treeOwner t))

/-- A BRX profile word (R310). -/
def State.profOk (x : State) (t l r : Nat) : Bool :=
  let d := x.dlmLen t l r
  (d == 0 || (inRange 16 64 d && Nat.ble (x.preBlk t l r + x.dhBlk t l r + 1) (x.rf (adTree t (0x1004 + r)) 7 0))) &&
    (r != 3 || x.dhBlk t l 3 == 2)

/-- Tree windows (R61, R177, R244, R245, R273, R310, R457, R473). -/
def argTree (x : State) (w : WordWrite) : Bool :=
  let t := (w.addr - 0x100000) / 0x10000
  let off := (w.addr - 0x100000) % 0x10000
  if off = 0 then w.fits x 9 8 (fun n => n != 3)
  else if off = 1 then !w.touches 5 0 || x.ownerOk t (x.rf w.addr 5 0)
  else if off = 0x20 then w.fits x 16 0 (fun n => Nat.ble n 124999)
  else if 0x100 ≤ off ∧ off < 0x110 then x.grpOk t (off - 0x100)
  else if off = 0x1000 then w.fits x 14 0 (inRange 1 16384)
  else if off = 0x1002 then w.fits x 19 0 (inRange 200000 1000000)
  else if 0x1004 ≤ off ∧ off ≤ 0x1007 then
    w.fits x 23 16 (Nat.ble 1) && w.fits x 15 8 (Nat.ble 1) && w.fits x 7 0 (Nat.ble 1)
  else if off = 0x4000 then w.fits x 35 34 (fun n => Nat.ble n 2) && w.fits x 18 0 (inRange 1000 425000)
  else if off = 0x4009 then w.fits x 3 0 (sizeOk 4 12)
  else if 0x8000 ≤ off then
    let l := (off - 0x8000) / 0x2000
    let k := (off - 0x8000) % 0x2000
    if k = 0 then
      w.fits x 35 32 (Nat.ble 1) && w.fits x 28 24 (fun n => Nat.ble n 16) && w.fits x 15 0 (fun n => Nat.ble n 25480)
    else if k = 1 then w.fits x 23 16 (Nat.ble 1) && w.fits x 7 0 (Nat.ble 1)
    else if 0x11 ≤ k ∧ k ≤ 0x17 ∧ k % 2 = 1 then x.profOk t l ((k - 0x11) / 2)
    else true
  else true

/-- The range of entries that MAC `m` holds in a gate bank of its port (R334). -/
def State.gateRange (x : State) (m bank : Nat) : Nat × Nat :=
  if bank = x.rf (adGate m 6) 46 46 then
    match (x.gates m).oper with
    | some g => (g.idx, g.len)
    | none => (0, 0)
  else (x.rf (adGate m 1) 9 0, x.rf (adGate m 1) 20 10)

/-- Two ranges share an entry. -/
def rangesMeet (a b : Nat × Nat) : Bool := a.2 != 0 && b.2 != 0 && Nat.blt a.1 (b.1 + b.2) && Nat.blt b.1 (a.1 + a.2)

/-- A change of the gate list of MAC `m` may be asked for (R335). -/
def State.changeOk (x : State) (m : Nat) : Bool :=
  let w := x.raw (adGate m 1)
  let bank := 1 - x.rf (adGate m 6) 46 46
  let idx := fld w 9 0
  let len := fld w 20 10
  len != 0 && Nat.ble (idx + len) 1024 && inRange 1000 4000000000 (x.rf (adGate m 4) 31 0) &&
    (List.range len).all (fun i => fld (x.gateEntry (m / 8) bank (idx + i)) 31 0 != 0) &&
    (List.range 8).all (fun k =>
      8 * (m / 8) + k == m || !rangesMeet (idx, len) (x.gateRange (8 * (m / 8) + k) bank))

/-- DSQ (R320, R321, R323, R331, R335). -/
def argDsq (x : State) (w : WordWrite) : Bool :=
  let a := w.addr
  let rate (v : Word) : Bool := !w.touches 43 0 || rateOk v
  if a < 0x1000010 then w.fits x 9 8 (fun n => n != 3)
  else if a = 0x1000010 then w.fits x 14 0 (inRange 64 16384)
  else if a < 0x1010000 then true
  else if a < 0x1200000 then if a % 4 = 0 then w.fits x 39 32 (Nat.ble 1) else rate (x.raw a)
  else
    let off := (a - 0x1200000) % 0x1000
    if off < 0x100 then
      if off % 16 = 0 then rate (x.raw a)
      else if off % 16 = 1 ∧ bitOf w.trig 47 then x.changeOk (8 * ((a - 0x1200000) / 0x1000) + off / 16)
      else true
    else if off < 0x200 then
      if off % 4 = 0 then w.fits x 39 32 (Nat.ble 1) && w.fits x 19 0 (Nat.ble 1) else rate (x.raw a)
    else true

/-- The cell limits of bank `b` (R428). -/
def State.bankLimits (x : State) (b : Nat) : Nat :=
  ((List.range 8).map (fun c => x.rf (0x1D00000 + 8 * b + c) 14 0)).foldl (· + ·) 0 +
    (if b = 31 then x.rf 0x1D00200 14 0 else 0)

/-- PAR, TBL and CAT (R364, R392, R419, R428). -/
def argMem (x : State) (w : WordWrite) : Bool :=
  let a := w.addr
  let dest (hi lo dhi dlo : Nat) : Bool :=
    !(w.touches hi lo || w.touches dhi dlo) || actionOk 0 (x.rf a hi lo) (x.rf a dhi dlo) 0
  if a < 0x1400400 then w.fits x 43 40 (Nat.ble 3)
  else if a = 0x1800000 ∨ a = 0x1800001 then w.fits x 15 0 (Nat.ble 1)
  else if 0x1810000 ≤ a ∧ a < 0x1814000 then
    w.fits x 46 45 (fun n => n != 3) &&
      (!w.touches 43 12 || (Nat.ble (x.rf a 23 12) 1024 && Nat.ble (x.rf a 43 24 + x.rf a 23 12) 786432))
  else if 0x1840000 ≤ a ∧ a < 0x1880000 ∧ a % 4 = 0 then dest 44 43 42 24
  else if 0x1880000 ≤ a ∧ a < 0x18C0000 ∧ a % 4 = 0 then dest 45 44 43 25
  else if 0x1D00000 ≤ a ∧ a < 0x1D00200 then !w.touches 14 0 || Nat.ble (x.bankLimits ((a - 0x1D00000) / 8)) 24576
  else if a = 0x1D00200 then !w.touches 14 0 || Nat.ble (x.bankLimits 31) 24576
  else if a = 0x1D00201 then w.fits x 21 0 (inRange 64 3700000)
  else if a = 0x1D00205 then w.fits x 3 0 (sizeOk 4 12)
  else if a = 0x1D00210 then w.fits x 15 0 (inRange 100 10000)
  else if 0x1D00300 ≤ a ∧ a < 0x1D00380 ∧ a % 2 = 0 then
    !w.touches 26 0 ||
      Nat.ble (((List.range 64).map (fun t => x.rf (0x1D00300 + 2 * t) 26 0)).foldl (· + ·) 0) 67108864
  else true

/-- The values of one word are in range and consistent. -/
def argWord (s x : State) (w : WordWrite) : Bool :=
  let a := w.addr
  if a < 0x10000 then argGlb x w
  else if a < 0x20000 then true
  else if a < 0x40000 then argEvt x w
  else if a < 0x60000 then argMon x w
  else if a < 0x70000 then true
  else if a < 0x90000 then argTim x w
  else if a < 0xA0000 then argOhm s x w
  else if a < 0x100000 then argUpl s x w
  else if a < 0x900000 then argTree x w
  else if a < 0x1400000 then argDsq x w
  else argMem x w

/-! ### What holds a word busy -/

/-- The bits of word `a` in field [hi:lo] would change. -/
def changes (s x : State) (a hi lo : Nat) : Bool := s.rf a hi lo != x.rf a hi lo

/-- Word `a` is addressed to the service processor: its mailbox request words, and the PWR, THM and IMG blocks of its
island (Tables 1.1 and 2.7). -/
def spWord (a : Nat) : Bool := inRange 0x100 0x107 a || inRange 0x4000 0xFFFF a

/-- GLB and IMG: a mailbox request or a flash operation in progress (R55, R571). -/
def busyGlb (s : State) (w : WordWrite) : Bool :=
  if w.addr = 0x100 then bitOf w.trig 0 && s.sp.req.isSome
  else if w.addr = 0xC010 then bitOf w.trig 47 && s.img.op.isSome
  else if 0xC011 ≤ w.addr ∧ w.addr ≤ 0xC014 then s.img.op.isSome
  else false

/-- CMD: a ring-control word of a queue that is neither idle nor disabled (R68), and the binding of a queue that holds
unretired commands (R47). -/
def busyCmd (s : State) (w : WordWrite) : Bool :=
  if w.addr < 0x11000 then
    let q := (w.addr - 0x10000) / 0x40
    let off := w.addr % 0x40
    if off < 4 then s.qstate q == 1 || s.qstate q == 2
    else if off = 0xA then (s.queue q).exec.isSome || (s.queue q).hasWords || (s.queue q).violating.isSome
    else false
  else false

/-- OHM (R484, R494, R498). -/
def busyOhm (s x : State) (w : WordWrite) : Bool :=
  let a := w.addr
  if a = 0x90014 ∨ (0x90015 ≤ a ∧ a ≤ 0x90017) ∨ (0x91000 ≤ a ∧ a < 0x94000) then !s.rb 0x90010 15 || s.commitPending
  else if 0x90100 ≤ a ∧ a < 0x90200 ∧ a % 2 = 0 then
    let t := (a - 0x90100) / 2
    (s.treeUp t && changes s x a 46 27) || (bitOf w.trig 25 && s.rb 0x90008 47)
  else false

/-- UPL (R189). -/
def busyUpl (s x : State) (w : WordWrite) : Bool :=
  let a := w.addr
  (a - 0xA0000) % 0x800 == 0 && s.rb a 3 && (changes s x a 7 6 || changes s x a 2 0)

/-- Tree windows (R177, R245, R273, R310, R473, R494). -/
def busyTree (s x : State) (w : WordWrite) : Bool :=
  let a := w.addr
  let t := (a - 0x100000) / 0x10000
  let off := (a - 0x100000) % 0x10000
  let en := s.treeEnable t
  if off = 0 then
    (en && (changes s x a 9 8 || changes s x a 11 11)) || (s.standby t && w.touches 0 0 && x.rb a 0)
  else if off = 0x20 then w.touches 16 0 && s.treeUp t
  else if 0x100 ≤ off ∧ off < 0x110 then s.standby t
  else if off = 0x1002 then en && changes s x a 19 0
  else if 0x1004 ≤ off ∧ off ≤ 0x1007 then en && changes s x a 23 0
  else if off = 0x4000 ∨ off = 0x4001 ∨ off = 0x4008 ∨ off = 0x4009 then en
  else if 0x8000 ≤ off then
    let k := (off - 0x8000) % 0x2000
    en && ((k == 0 && (w.touches 28 24 || w.touches 15 0)) || (Nat.ble 0x10 k && Nat.ble k 0x17))
  else false

/-- DSQ: nodes under a digest (R491), gate entries in force and gate words of a pending change (R334). -/
def busyDsq (s : State) (w : WordWrite) : Bool :=
  let a := w.addr
  if 0x1010000 ≤ a ∧ a < 0x1200000 then s.digestOver 7
  else if 0x1200000 ≤ a then
    let p := (a - 0x1200000) / 0x1000
    let off := (a - 0x1200000) % 0x1000
    if off < 0x100 then inRange 1 5 (off % 16) && s.rb (adGate (8 * p + off / 16) 6) 47
    else if 0x400 ≤ off then
      let bank := (off - 0x400) / 0x400
      let i := (off - 0x400) % 0x400
      (List.range 8).any (fun k =>
        let m := 8 * p + k
        s.rb (adGate m 1) 46 && s.rf (adGate m 6) 46 46 == bank && rangesMeet (i, 1) (s.gateRange m bank))
    else false
  else false

/-- One word is held busy. -/
def busyWord (s x : State) (w : WordWrite) : Bool :=
  let a := w.addr
  if a < 0x10000 then busyGlb s w
  else if a < 0x20000 then busyCmd s w
  else if a < 0x60000 then false
  else if a < 0x70000 then s.crcBusy ((a - 0x60000) / 16)
  else if a < 0x80000 then
    Nat.ble 0x70100 a && a % 4 == 0 && bitOf w.trig 47 && !s.rb a 45
  else if a < 0x90000 then false
  else if a < 0xA0000 then busyOhm s x w
  else if a < 0x100000 then busyUpl s x w
  else if a < 0x900000 then busyTree s x w
  else if a < 0x1400000 then busyDsq s w
  else false

end Sys2Proof.Machine
end

