-- ==== Sys2Proof/Machine/RegHooks.lean ====
section
/-! DEFINITION. What a command write brings beside the words it stores, register by register. In each hook `s` holds the
words as written and `was` is the state before the write. -/

namespace Sys2Proof.Machine

/-! ### GLB, IMG, CMD, EVT -/

/-- GPIO 8 to 15 that the host drives show their new level at the pins (Table 19.3). -/
def State.gpioHook (s was : State) : State :=
  (List.range 8).foldl (fun s j =>
    let oe := s.rb 0x12 (24 + j)
    let v := s.rb 0x12 (16 + j)
    if oe && (!was.rb 0x12 (24 + j) || was.rb 0x12 (16 + j) != v) then s.emit (.pin 5 (8 + j) v s.now) else s) s

/-- REQ_GO: the request passes to the service processor (R55). -/
def State.requestGo (s : State) : State :=
  let r : MboxReq :=
    { code := s.rf 0x100 47 40, tag := s.rf 0x100 39 32, args := (List.range 7).map (fun i => s.raw (0x101 + i)) }
  ({ s with sp := { s.sp with req := some r } }).monEv 0 0 1 1

/-- A soft reset is asked for; it begins 10 microseconds after the completion record is visible (R582). -/
def State.softAsked (s : State) : State :=
  { s with board := { s.board with softAt := some (s.board.softAt.getD (s.now + 10000)) } }

def State.hookGlb (s was : State) (w : WordWrite) : State :=
  if w.addr = 0x10 then if bitOf w.trig 0 then s.softAsked else s
  else if w.addr = 0x12 then s.gpioHook was
  else if w.addr = 0x100 then if bitOf w.trig 0 then s.requestGo else s
  else if w.addr = 0xC010 then if bitOf w.trig 47 then s.startImg else s
  else s

/-- Queue-page words act as the host's own writes to them do (R68, R70). -/
def State.hookCmd (s : State) (w : WordWrite) : State :=
  if w.addr < 0x11000 then
    let q := (w.addr - 0x10000) / 0x40
    let off := w.addr % 0x40
    if off < 4 then s.resetQueue q
    else if off = 4 then
      let t := fld w.trig 19 0
      if s.doorbellOk q t then s.ringDoorbell q t else s
    else if off = 5 then s.cplConsumed q (s.rf w.addr 15 0)
    else s
  else s

/-- The event ring starts again; no waiting record is discarded (R531, R581). -/
def State.evtRingReset (s : State) : State :=
  let s := (s.setReg 0x20002 0).setReg 0x20003 0
  { s with evt := { s.evt with phase := true, base := none, parked := false } }

/-- Level bits of latched alarms written as 1 clear (R529). -/
def State.alarmWrite (s : State) (a : Nat) (v : Word) : State :=
  let alarm := (a - 0x20100) / 4
  (List.range 48).foldl (fun s i =>
    let n := (a - 0x20100) % 4 * 48 + i
    if bitOf v i && !alarmIsCondition alarm n then s.alarmClear alarm (alarmCode alarm) n else s) s

def State.hookEvt (s : State) (w : WordWrite) : State :=
  if w.addr = 0x20000 ∨ w.addr = 0x20001 then s.evtRingReset
  else if isAlarmWord w.addr then s.alarmWrite w.addr (w.value &&& w.mask)
  else s

/-! ### MON, KEY, TIM -/

/-- RESET: every bandwidth point starts again (R514). -/
def State.bwReset (s : State) : State :=
  { s with regs := s.regs.filter (fun x => Nat.blt x.1 0x4C000 || Nat.ble 0x4D000 x.1) }

/-- SEED: the tagging registers of the pipes are loaded (R520). -/
def State.loadSeed (s : State) : State :=
  let seed := (s.raw 0x40011).toNat
  { s with mon := { s.mon with
    lfsr := (List.range 32).foldl (fun m p => smSet (lfsrSeed 1) m p (lfsrSeed seed p)) [] } }

/-- A bandwidth window begins in the next tick (R513). -/
def State.bwStart (s : State) : State := { s with mon := { s.mon with bwFrom := s.now + 1, bw := [] } }

def State.hookMon (s was : State) (w : WordWrite) : State :=
  let a := w.addr
  if a = 0x40000 then if changes was s a 47 47 then { s with mon := { s.mon with runAt := some s.now } } else s
  else if a = 0x40011 then s.loadSeed
  else if a = 0x40018 ∨ a = 0x40019 then s.ringReset ringTrace
  else if a = 0x40020 then
    let s := if bitOf w.trig 46 then s.bwReset else s
    if s.rb a 47 && (!was.rb a 47 || changes was s a 29 0) then s.bwStart else s
  else if 0x41000 ≤ a ∧ a < 0x412C0 ∧ a % 32 = 1 then
    { s with mon := { s.mon with cyc := smSet (fun _ => 0) s.mon.cyc ((a - 0x41000) / 32) (s.now + 1) } }
  else s

def State.hookTim (s was : State) (w : WordWrite) : State :=
  let a := w.addr
  if a < 0x80000 then if 0x70100 ≤ a ∧ a % 4 = 0 ∧ bitOf w.trig 47 then s.switchXts ((a - 0x70100) / 4) else s
  else if a = 0x80004 then { s with ntSet := some was.nextNt }
  else if a = 0x80020 ∨ a = 0x80021 then s.ringReset ringTs
  else s

/-! ### OHM and UPL -/

/-- SWITCH: the standby member of tree `t` asks for it (R498). -/
def State.askHandover (s : State) (t : Nat) : State :=
  if s.ohmEn && s.standby t then
    let s := s.sendMirror t [[mirHeader 4 t 0 []]]
    { s with ohm := { s.ohm with asked := smSet (fun _ => 0) s.ohm.asked t (s.now + 1) } }
  else s

def State.hookOhm (s was : State) (w : WordWrite) : State :=
  let a := w.addr
  if a = 0x90000 then
    if s.ohmEn && !was.ohmEn then { s with ohm := { s.ohm with heardAt := s.now } } else s
  else if a = 0x90018 then if bitOf w.trig 0 then s.startDigest else s
  else if 0x90100 ≤ a ∧ a < 0x90200 ∧ a % 2 = 0 then
    let t := (a - 0x90100) / 2
    let s := if s.standby t && !was.standby t then
        { s with ohm := { s.ohm with silent := smSet (fun _ => 0) s.ohm.silent t (s.now + 1) } }
      else s
    let s := s.reservice was t
    if bitOf w.trig 25 then s.askHandover t else s
  else s

/-- A change of a port's configuration may bring MACs down, with what they hold (R195). -/
def State.hookUpl (s : State) (w : WordWrite) : State := s.emptyPort ((w.addr - 0xA0000) / 0x800)

/-! ### Trees -/

/-- Word `a` holds an equalisation delay of tree `t`. -/
def isEqdWord (t a : Nat) : Bool :=
  let off := a - adTree t 0x5000
  Nat.ble (adTree t 0x5000) a && Nat.blt off 4096 && (off % 8 == 3 || off % 8 == 4)

/-- The equalisation delays of every entry of tree `t` become invalid (R185). -/
def State.dropEqds (s : State) (t : Nat) : State :=
  s.regs.foldl (fun s x => if isEqdWord t x.1 then s.setReg x.1 (x.2 &&& ~~~(maskOf 47 47)) else s) s

/-- TRE_CTRL changed (R177 to R179, R185). -/
def State.hookCtrl (s was : State) (t : Nat) : State :=
  let s := if changes was s (adTree t 0) 9 8 || changes was s (adTree t 0) 11 11 then (s.dropEqds t).clearDskAll t else s
  let u := s.tree t
  let s := if was.treeEnable t && !s.treeEnable t && was.treeUp t then s.setTree t { u with stopping := true }
    else if !was.treeEnable t && s.treeEnable t && u.stopping then s.setTree t { u with since := some s.now }
    else s
  s.reservice was t

/-- A SET_TX of a group slot whose pair no valid TRE_GRP entry of tree `t` names any more ends with ABORTED (R438). -/
def State.unnamedTx (s : State) (t : Nat) : State :=
  s.abortTx (fun n x => x == t && Nat.ble keyGeneral n && !(s.grpPairs t).contains (n / 2 * 2))

def State.hookTree (s was : State) (w : WordWrite) : State :=
  let t := (w.addr - 0x100000) / 0x10000
  let off := (w.addr - 0x100000) % 0x10000
  if off = 0 then s.hookCtrl was t
  else if off = 0x10 ∨ off = 0x11 then (s.pinsFollow was t (off - 0x10)).reservice was t
  else if off = 0x8000 ∨ off = 0x8001 then s.brxWritten t 0
  else if off = 0xA000 ∨ off = 0xA001 then s.brxWritten t 1
  else if 0x100 ≤ off ∧ off < 0x110 then s.unnamedTx t
  else if off = 0x20 then
    if changes was s w.addr 16 0 then s.regridded was t else s
  else if off = 0x4008 ∨ off = 0x4009 then s.ringReset t
  else s

/-! ### DSQ -/

/-- The change time of the admin list of MAC `m` (R335), in ns of network time. -/
def State.changeTime (s : State) (m : Nat) : Nat :=
  let n := ceilDiv s.nt (2 ^ 40)
  let base := (s.raw (adGate m 2)).toNat * 10 ^ 9 + s.rf (adGate m 3) 29 0
  let cycle := s.rf (adGate m 4) 31 0
  if n + 10000 ≤ base then base else base + ceilDiv (n + 10000 - base) cycle * cycle

/-- CHANGE: the admin list of MAC `m` is to come into force (R335). -/
def State.askChange (s : State) (m : Nat) : State :=
  let c := s.changeTime m
  let s := ((s.setRf (adGate m 6) 47 47 1).setReg (adGate m 7) (toWord (c / 10 ^ 9))).setReg (adGate m 8)
    (toWord (c % 10 ^ 9))
  s.setGates m { s.gates m with pending := some c, asked := s.ntNs }

/-- The node whose shaping words hold word `a` of the DSQ window, if any, and which of its buckets the word shapes. -/
def nodeOfWord (a : Nat) : Option (Nat × Nat) :=
  let node (n : Nat) : Option (Nat × Nat) := if a % 4 = 1 then some (n, 0) else if a % 4 = 2 then some (n, 1) else none
  if a < 0x1010000 then none
  else if a < 0x1020000 then node (ndLane ((a - 0x1010000) / 4))
  else if a < 0x1100000 then node (ndTot ((a - 0x1020000) / 4))
  else if a < 0x1200000 then node (ndOnu ((a - 0x1100000) / 4))
  else
    let p := (a - 0x1200000) / 0x1000
    let off := (a - 0x1200000) % 0x1000
    if off < 0x100 then if off % 16 = 0 then some (ndMac (8 * p + off / 16), 0) else none
    else if off < 0x200 then node (ndEgress (64 * p + (off - 0x100) / 4))
    else none

/-- Buckets follow a change of the word that shapes them (R314). -/
def State.hookDsq (s was : State) (w : WordWrite) : State :=
  let off := (w.addr - 0x1200000) % 0x1000
  match nodeOfWord w.addr with
  | some (n, r) => s.rebucket n r (was.shape n r)
  | none =>
    if 0x1200000 ≤ w.addr ∧ off < 0x100 ∧ off % 16 = 1 ∧ bitOf w.trig 47 then
      s.askChange (8 * ((w.addr - 0x1200000) / 0x1000) + off / 16)
    else s

/-! ### TBL and CAT -/

/-- TBL_AGE changed: visits already due are past; a scanner that starts begins at slot 0 (R387). -/
def State.hookAge (s was : State) : State :=
  let t := was.ageSync.tbl
  let s := { s with tbl := { s.tbl with ageSlot := t.ageSlot, ageAt := t.ageAt } }
  if s.rb 0x1800000 16 && !was.rb 0x1800000 16 then
    { s with tbl := { s.tbl with ageSlot := 0, ageAt := (s.now + 1) * 2 ^ 22 } }
  else s

/-- The punt ring starts again; punted packets whose record was not yet written are dropped (R428). -/
def State.puntRingReset (s : State) : State :=
  let s := s.ringReset ringPunt
  let l := s.cat.pkts.filterMap (fun (x : Nat × Option Packet) =>
    match x.2 with
    | some p => if p.punted && p.dests.contains .punt then some x.1 else none
    | none => none)
  l.foldl (fun s i => (s.bump 0x1D00404 1).killPkt i) s

def State.hookMem (s was : State) (w : WordWrite) : State :=
  let a := w.addr
  if a = 0x1800000 then s.hookAge was
  else if a = 0x1800001 then { s with tbl := { s.tbl with patrolFrom := s.now + 1 } }
  else if a = 0x1D00201 then s.rebucket ndPunt 0 (was.shape ndPunt 0)
  else if a = 0x1D00204 ∨ a = 0x1D00205 then s.puntRingReset
  else s

/-- What the write of one word brings beside its storage. -/
def State.wordHook (s was : State) (w : WordWrite) : State :=
  let a := w.addr
  if a < 0x10000 then s.hookGlb was w
  else if a < 0x20000 then s.hookCmd w
  else if a < 0x40000 then s.hookEvt w
  else if a < 0x60000 then s.hookMon was w
  else if a < 0x70000 then s
  else if a < 0x90000 then s.hookTim was w
  else if a < 0xA0000 then s.hookOhm was w
  else if a < 0x100000 then s.hookUpl w
  else if a < 0x900000 then s.hookTree was w
  else if a < 0x1400000 then s.hookDsq was w
  else s.hookMem was w

end Sys2Proof.Machine
end

