-- ==== Sys2Proof/Machine/RegWrite.lean ====
section
/-! DEFINITION. The rules of WRITE, READ and MASK_WRITE (R93 to R95), and which writes are rows of their own. -/

namespace Sys2Proof.Machine

/-! ### Checks and effect of a write -/

/-- The words of a WRITE or MASK_WRITE. -/
def writeWords (c : Cmd) (masked : Bool) : List WordWrite :=
  let a := c.arg 24 0
  if masked then [{ addr := a, mask := c.op 0, value := c.op 1 }]
  else (c.ops.zip (List.range c.ops.length)).map (fun p => { addr := a + p.2, mask := maskOf 47 0, value := p.1 })

/-- Entry `w.addr` of TRE_GRP as written names a slot that tenant `t` does not own: that slot (R457). -/
def State.pairForeign (s : State) (t : Nat) (w : WordWrite) : Option Nat :=
  match treeOfWord w.addr with
  | none => none
  | some tr =>
    let a := w.addr - adTree tr 0
    if a < 0x100 ∨ 0x110 ≤ a then none
    else
      let n := (s.storeWord w).rf w.addr 17 0
      if s.slotOwner n ≠ t then some n else if s.slotOwner (n + 1) ≠ t then some (n + 1) else none

/-- The privilege check of a write (R58, R60, R457). -/
def State.writePriv (s : State) (p : Priv) (ws : List WordWrite) : Option (Nat × Word × Word) :=
  match ws.find? (fun w => !s.mayWrite p w.addr) with
  | some w => some (0x06, 0, toWord w.addr)
  | none =>
    match p with
    | .tenant t =>
      (ws.findSome? (fun w => (s.pairForeign t w).map (fun n => (w.value, n)))).map (fun x =>
        (0x07, x.1, toWord x.2))
    | _ => none

/-- The argument check of a write: every word has a field that a write reaches, and every value is in range and
consistent with the state that the whole write leaves (R49, R52). It sees the state at the start of the tick (R21). -/
def State.writeArgs (s : State) (ws : List WordWrite) : Bool :=
  let x := ws.foldl State.storeWord s
  ws.all (fun w => regWritable w.addr) && ws.all (argWord s x)

/-- Something holds a word of the write busy. -/
def State.writeBusy (s : State) (ws : List WordWrite) : Bool :=
  let x := ws.foldl State.storeWord s
  ws.any (busyWord s x)

/-- The words of a write that take effect: a word that a happening of levels 1 to 7 has written in this tick keeps that value
(R476). -/
def State.writeKept (s : State) (ws : List WordWrite) : List WordWrite := ws.filter (fun w => !s.claimsWord w.addr)

/-- All words take effect. -/
def State.writeRegs (s : State) (ws : List WordWrite) : State :=
  let ws := s.writeKept ws
  ws.foldl (fun y w => y.wordHook s w) (ws.foldl State.storeWord s)

/-- The write is addressed to the service processor while its island is in reset (R41). -/
def State.writeHeld (s : State) (p : Priv) (ws : List WordWrite) : Bool :=
  p == .supervisor && s.spInReset && ws.any (fun w => spWord w.addr)

/-- The words at `l`, as they stood at the start of the tick, up to the first that an uncorrectable error has struck. -/
def State.readable (s : State) (l : List Nat) : List Word :=
  (l.takeWhile (fun a => !s.struck (.reg a))).map s.atStart.view

/-- Execution of a write. -/
def State.writeRun (s : State) (p : Priv) (ws : List WordWrite) (result : Nat) : Ran :=
  if s.writeHeld p ws || s.atStart.writeBusy ws then .fin stRejectBusy 0 0 s else .done (s.writeRegs ws) ws.length result

/-- WRITE and MASK_WRITE, which WEIR admits for the words of R140 only. -/
def writeRule (c : Cmd) (masked : Bool) : CmdRule :=
  let ws := writeWords c masked
  { opcode := if masked then 0x04 else 0x02,
    form := formCheck c 0x1FFFFFF 0 (if masked then c.ops.length == 2 else !c.ops.isEmpty) [],
    priv := fun s p => s.writePriv p ws, spMay := ws.all (fun w => spMayWrite w.addr),
    legal := fun s => legalUp s && (s.mode != .weir || ws.all (fun w => weirWord w.addr)),
    args := fun s _ => s.atStart.writeArgs ws,
    run := fun s p _ =>
      if masked && s.struck (.reg (c.arg 24 0)) then .fin stErrMem 0 0 s
      else s.writeRun p ws (if masked then (s.atStart.view (c.arg 24 0)).toNat else 0) }

/-- COUNT of a READ. -/
def readCount (c : Cmd) : Nat := c.arg 30 25 + 1

/-- The rule of READ (R94). DEDUCED (entry 138): a word that an uncorrectable error strikes in its tick ends it with ERR_MEM behind the
words before it (R84). -/
def readRule (c : Cmd) (io : HostIo) : CmdRule :=
  let a := c.arg 24 0
  let n := readCount c
  let l := (List.range n).map (a + ·)
  { opcode := 0x03, form := formCheck c 0x7FFFFFFF 0 (Nat.ble c.ops.length 1) [],
    priv := fun s p => (firstOutside (s.mayRead p) a n).map (fun x => (0x06, 0, toWord x)),
    spMay := l.all spMayRead, legal := legalAll,
    args := fun _ _ => (!c.ops.isEmpty || n == 1) && l.all regAssigned,
    run := fun s _ _ =>
      let ws := s.readable l
      let r := (s.atStart.view a).toNat
      if ws.length < n then
        .fin stErrMem ws.length (if ws.isEmpty then 0 else r)
          (if c.ops.isEmpty || ws.isEmpty then s else s.emit (.hostWords (hostAddr (c.op 0)) ws))
      else if c.ops.isEmpty then .done s 1 r else s.giveWords io (hostAddr (c.op 0)) ws r }

end Sys2Proof.Machine

namespace Sys2Proof

open Machine

/-- The command that a one-word write is. -/
def RegWrite.cmd (w : RegWrite) : Cmd :=
  { port := w.port, silent := w.silent, irq := w.irq, opflags := 0, args := BitVec.ofNat 32 w.addr.toNat,
    ops := if w.masked then [w.mask, w.value] else [w.value] }

/-- Its word. -/
def RegWrite.word (w : RegWrite) : WordWrite :=
  { addr := w.addr.toNat, mask := if w.masked then w.mask else maskOf 47 0, value := w.value }

end Sys2Proof

namespace Sys2Proof.Machine

/-! ### Which writes are rows of their own -/

/-- Bit `i` goes from `b` to the opposite by the write. -/
def WordWrite.flips (w : WordWrite) (s : State) (i : Nat) (b : Bool) : Bool :=
  s.rb w.addr i == b && (s.storeWord w).rb w.addr i != b

/-- The offset of a word in its tree window, where it lies in one. -/
def treeOff (a : Nat) : Option Nat := (treeOfWord a).map (fun t => a - adTree t 0)

/-- The write is one of row ReqGo. -/
def rowReqGo (w : RegWrite) (_s : State) : Bool :=
  w.addr.toNat == 0x100 && bitOf w.word.trig 0

/-- The write is one of row SoftReset. -/
def rowSoftReset (w : RegWrite) (_s : State) : Bool :=
  w.addr.toNat == 0x10 && bitOf w.word.trig 0

/-- The write is one of row EnableSet. -/
def rowEnableSet (w : RegWrite) (s : State) : Bool :=
  treeOff w.addr.toNat == some 0 && w.word.flips s 0 false

/-- The write is one of row EnableClear. -/
def rowEnableClear (w : RegWrite) (s : State) : Bool :=
  treeOff w.addr.toNat == some 0 && w.word.flips s 0 true

/-- The write is one of row LineMode. -/
def rowLineMode (w : RegWrite) (s : State) : Bool :=
  let x := s.storeWord w.word
  let a := w.addr.toNat
  treeOff a == some 0 && (changes s x a 9 8 || changes s x a 11 11)

/-- The write is one of row TxdisForce. -/
def rowTxdisForce (w : RegWrite) (_s : State) : Bool :=
  let o := treeOff w.addr.toNat
  (o == some 0x10 || o == some 0x11) && w.word.touches 7 7

/-- The write is one of row TrePonid. -/
def rowTrePonid (w : RegWrite) (_s : State) : Bool :=
  let o := treeOff w.addr.toNat
  o == some 2 || o == some 3

/-- The write is one of row Fphase. -/
def rowFphase (w : RegWrite) (_s : State) : Bool :=
  treeOff w.addr.toNat == some 0x20 && w.word.touches 16 0

/-- The write is one of row GateChange. -/
def rowGateChange (w : RegWrite) (_s : State) : Bool :=
  let a := w.addr.toNat
  let off := (a - 0x1200000) % 0x1000
  Nat.ble 0x1200000 a && Nat.blt a 0x1220000 && Nat.blt off 0x100 && off % 16 == 1 &&
    bitOf w.word.trig 47

/-- The write is one of row Rekey. -/
def rowRekey (w : RegWrite) (_s : State) : Bool :=
  let a := w.addr.toNat
  Nat.ble 0x70100 a && Nat.blt a 0x70200 && a % 4 == 0 && bitOf w.word.trig 47

/-- The write is one of row BandwidthReset. -/
def rowBandwidthReset (w : RegWrite) (_s : State) : Bool :=
  w.addr.toNat == 0x40020 && bitOf w.word.trig 46

/-- The write is one of row MonRun. -/
def rowMonRun (w : RegWrite) (_s : State) : Bool :=
  w.addr.toNat == 0x40000 && w.word.touches 47 47

/-- The write is one of row TagSeed. -/
def rowTagSeed (w : RegWrite) (_s : State) : Bool :=
  w.addr.toNat == 0x40011

/-- The write is one of row AlarmLevelClear. -/
def rowAlarmLevelClear (w : RegWrite) (_s : State) : Bool :=
  isAlarmWord w.addr.toNat && w.word.value &&& w.word.mask != 0

/-- The word is the BASE or the SIZE of one of the device's rings. -/
def isRingWord (a : Nat) : Bool :=
  [0x20000, 0x20001, 0x40018, 0x40019, 0x80020, 0x80021, 0x1D00204, 0x1D00205].contains a ||
    treeOff a == some 0x4008 || treeOff a == some 0x4009

/-- The write is one of row RingReset. -/
def rowRingReset (w : RegWrite) (_s : State) : Bool :=
  isRingWord w.addr.toNat

/-- The write is one of row Recompute. -/
def rowRecompute (w : RegWrite) (_s : State) : Bool :=
  w.addr.toNat == 0x90018 && bitOf w.word.trig 0

/-- The write is one of row Committed. -/
def rowCommitted (w : RegWrite) (_s : State) : Bool :=
  w.addr.toNat == 0x90010 && w.word.touches 47 16

/-- The write is one of row RingSwitch. -/
def rowRingSwitch (w : RegWrite) (_s : State) : Bool :=
  let a := w.addr.toNat
  Nat.ble 0x90100 a && Nat.blt a 0x90200 && a % 2 == 0 && bitOf w.word.trig 25

/-- The write is one of IMG_OP with GO that asks for operation `op`. -/
def rowImg (op : Nat) (w : RegWrite) (s : State) : Bool :=
  w.addr.toNat == 0xC010 && bitOf w.word.trig 47 && (s.storeWord w.word).rf 0xC010 3 0 == op

end Sys2Proof.Machine
end

