-- ==== Sys2Proof/Machine/DefaultsCmd.lean ====
section
/-! DEFINITION. Effective defaults, and the rule and ticks of DEFAULTS (R119, R557, R573, R574). -/

namespace Sys2Proof.Machine

/-- The effective default of a word (R557). -/
def State.effDefault (s : State) (a : Nat) : Word := smGet regFactory s.regdef a

/-- The block that BASE names: its first word and its number of words (R119). DEDUCED: 0x0A0000 and 0x100000 name port 0
and tree 0. -/
def blockOf (base : Nat) : Option (Nat × Nat) :=
  if base = 0 ∨ base = 0x4000 ∨ base = 0x8000 ∨ base = 0xC000 then some (base, 0x4000)
  else if base = 0x10000 then some (0x11000, 8)
  else if base = 0x20000 ∨ base = 0x40000 then some (base, 0x20000)
  else if base = 0x60000 ∨ base = 0x70000 ∨ base = 0x80000 ∨ base = 0x90000 then some (base, 0x10000)
  else if 0xA0000 ≤ base ∧ base < 0xB0000 ∧ base % 0x800 = 0 then some (base, 0x800)
  else if base = 0xC0000 then some (base, 0x40000)
  else if 0x100000 ≤ base ∧ base < 0x900000 ∧ base % 0x10000 = 0 then some (base, 0x10000)
  else if base = 0x1000000 ∨ base = 0x1400000 ∨ base = 0x1800000 then some (base, 0x400000)
  else if base = 0x1C00000 ∨ base = 0x1D00000 then some (base, 0x100000)
  else if base = 0x1E00000 then some (base, 0x200000)
  else none

/-- The assigned words of a block, rising. -/
def blockWords (b : Nat × Nat) : List Nat := ((List.range b.2).map (b.1 + ·)).filter regAssigned

/-- The writes of a restored block: the RW and RWS fields of its words. -/
def State.defaultWrites (s : State) (b : Nat × Nat) : List WordWrite :=
  ((blockWords b).filter (fun a => regSetMask a != 0)).map (fun a =>
    { addr := a, mask := regSetMask a, value := s.effDefault a })

/-- The block holds state that cannot be returned safely (R574), or a region that a digest is reading (R491). -/
def State.defaultsBusy (s : State) (base : Nat) : Bool :=
  if base = 0 then s.sp.req.isSome
  else if base = 0xC000 then s.img.op.isSome
  else if base = 0x60000 then (List.range 4).any s.crcBusy
  else if base = 0x70000 then s.key.lock.isSome
  else if base = 0x90000 then s.rb 0x90010 15 || s.rb 0x90008 41 || s.rb 0x90008 42
  else if base = 0x1000000 then (List.range 256).any (fun m => s.rb (adGate m 6) 47) || s.digestOver 7
  else if 0x100000 ≤ base ∧ base < 0x900000 then
    s.swapDue ((base - 0x100000) / 0x10000)
  else false

/-- The words whose rules relate them to words outside their block: TRE_OWNER, TRE_GRP, uplink ports, and the page limits
of CAT. -/
def relatedWord (a : Nat) : Bool :=
  (match treeOff a with
    | some off => off == 1 || (Nat.ble 0x100 off && Nat.blt off 0x110)
    | none => false) ||
    (Nat.ble 0xA0000 a && Nat.blt a 0xB0000) || (Nat.ble 0x1D00300 a && Nat.blt a 0x1D00380)

/-- The restored block keeps the rules that relate it to other blocks (R61, R188, R193, R197, R419, R457, R494). -/
def State.defaultsFit (s : State) (ws : List WordWrite) : Bool :=
  let x := ws.foldl State.storeWord s
  (ws.filter (fun w => relatedWord w.addr)).all (argWord s x) &&
    (List.range 128).all (fun t => !(x.standby t && x.treeEnable t) || (s.standby t && s.treeEnable t))

/-- One tick of DEFAULTS: the next 64 of the words still to be visited; `prog` have been visited (R573). -/
def State.defaultsTick (s : State) (l : List Nat) (prog : Nat) : Ran :=
  let ws := ((l.take 64).filter (fun a => regSetMask a != 0)).map (fun a =>
    ({ addr := a, mask := regSetMask a, value := s.effDefault a } : WordWrite))
  let t := s.writeRegs ws
  if l.length ≤ 64 then .done t (prog + l.length) 0 else .wait (prog + 64) (.work 0 (.defaults (l.drop 64))) t

/-- The rule of DEFAULTS. Its first words are visited in the tick after its admission. -/
def defaultsRule (c : Cmd) : CmdRule :=
  let base := c.arg 24 0
  { opcode := 0x1B, form := formCheck c 0x1FFFFFF 0 c.ops.isEmpty [], priv := privOper, spMay := false,
    legal := fun s => s.mode == .still,
    args := fun s _ =>
      match blockOf base with
      | some b => s.atStart.defaultsFit (s.defaultWrites b)
      | none => false,
    run := fun s p _ =>
      match blockOf base with
      | some b =>
        if s.atStart.defaultsBusy base || (p == .supervisor && s.spInReset && spWord base) then .fin stRejectBusy 0 0 s
        else .wait 0 (.work 0 (.defaults (blockWords b))) s
      | none => .fin stRejectArg 0 0 s }

end Sys2Proof.Machine
end

