-- ==== Sys2Proof/Machine/FaultCmds.lean ====
section
/-! DEFINITION. The rows of faults and retirement: RETIRE and RESTORE, their endings, losses, retries, uncorrectable
errors, fatal causes and the service processor's watchdog (R25, R26, R39, R40, R420, R421, R528, R535 to R551). -/

namespace Sys2Proof.Machine

/-! ### RETIRE and RESTORE -/

/-- CLASS and INDEX. -/
def resClass (c : Cmd) : Nat := c.arg 31 28
def resIndex (c : Cmd) : Nat := c.arg 23 0

/-- The rule of RETIRE or RESTORE. -/
def resRule (c : Cmd) (op : Nat) (work : State → Ran) : CmdRule :=
  { opcode := op, form := formCheck c 0xF0FFFFFF 0 c.ops.isEmpty [], priv := privSuper, spMay := true,
    legal := legalUp, args := fun _ _ => Nat.ble (resClass c) 5 && resOk (resClass c) (resIndex c),
    run := fun s _ _ => work s }

/-- The rule of RETIRE. -/
def retireRule (c : Cmd) : CmdRule :=
  resRule c 0x18 (fun s => s.retireRes (c.port == .sp) (resClass c) (resIndex c))

/-- The rule of RESTORE. -/
def restoreRule (c : Cmd) : CmdRule := resRule c 0x19 (fun s => s.restoreRes (resClass c) (resIndex c))

/-- The command that waits for pseudo-channel `pc` to be emptied. -/
def State.movingExec (s : State) (pc : Nat) : Option (Nat × Exec) := s.findExec (fun w => w == .pcMove pc)

/-- The command that rebuilds the free list of pseudo-channel `pc`, and the tick in which it began. -/
def State.rebuildExec (s : State) (pc : Nat) : Option (Nat × Nat) :=
  s.execs.findSome? (fun x =>
    match x.2.wait with
    | .pcRebuild c n => if c = pc then some (x.1, n) else none
    | _ => none)

/-- The free list of a pseudo-channel holds all of its pages again (R421). -/
def State.pcRebuilt (s : State) (pc : Nat) : State :=
  let s := (s.setRf (adPc pc) 20 19 0).setRf (adPc pc) 18 0 pcPages
  { s with cat := { s.cat with
      lost := smSet (fun _ => false) s.cat.lost pc false,
      relisted := s.cat.relisted.filter (fun x => x.1 / pcPages != pc) } }

/-! ### The service processor's watchdog (R39, R40) -/

/-- The expiries of the last 60 s, the present one among them. -/
def State.expiriesNow (s : State) : List Nat := s.now :: s.sp.expiries.filter (fun n => Nat.blt s.now (n + 60000000000))

end Sys2Proof.Machine
end

