-- ==== Sys2Proof/Machine/KeyCmds.lean ====
section
/-! DEFINITION. KEY_LOCK, the KEY_OP operations, and the events of the key unit (13). -/

namespace Sys2Proof.Machine

/-- The rule of KEY_LOCK (R113, R448). -/
def keyLockRule (c : Cmd) : CmdRule :=
  { opcode := 0x11, form := formCheck c 0 1 c.ops.isEmpty [], priv := privNone, spMay := false, legal := legalUp,
    args := argsFine,
    run := fun s _ _ =>
      let me := c.port.num
      if c.flag0 then
        match s.atStart.key.lock with
        | some (h, _) => if h = me then .done s 0 (64 + me) else .fin stRejectBusy 0 (64 + h) s
        | none => .done { s with key := { s.key with lock := some (me, s.now) } } 0 (64 + me)
      else
        match s.atStart.key.lock with
        | some (h, _) =>
          if h = me then .done { s with key := { s.key with lock := none } } 0 0 else .viol 0x0A 0 0 s
        | none => .viol 0x0A 0 0 s }

/-- LOAD: a 16-octet key from the host into a slot. -/
def keyLoadWork (c : Cmd) (io : HostIo) (s : State) : Ran :=
  .done (s.loadSlot (c.op 1).toNat (keyOf (takePad 16 0 (bytesNat io.octets)))) 16 16

/-- GEN: a random key into a slot. -/
def keyGenWork (c : Cmd) (s : State) : Ran := .done (s.loadSlot (c.op 1).toNat s.freeKey).drew 0 16

/-- ERASE: VALID 0, key zeroed. -/
def keyEraseWork (c : Cmd) (s : State) : Ran := .done (s.wipeSlot (c.op 1).toNat) 0 0

/-- ECB_ENC and ECB_DEC: whole blocks are written to the host, `n` of which `m` have been written before. -/
def keyEcbWork (c : Cmd) (io : HostIo) (m n : Nat) (s : State) : State :=
  let key := s.slotKey (Cmd.keySlot c)
  let inp := ((takePad (c.op 2).toNat 0 (bytesNat io.octets)).drop (16 * m)).take (16 * (n - m))
  let outp := natBytes (if Cmd.keyOp c = 3 then aesEcbEnc key inp else aesEcbDec key inp)
  let s := if m = n then s else s.emit (.hostOctets (hostAddr (c.op 1) + 16 * m) outp)
  s.monEv 5 0 1 (n - m)

/-- ECB_DEC_SLOT: 16 host octets decrypted under a key-encryption key into a slot. -/
def ecbDecSlotWork (c : Cmd) (io : HostIo) (s : State) : Ran :=
  let k := aesDec (s.slotKey (Cmd.keySlot c)) (takePad 16 0 (bytesNat io.octets))
  .done ((s.loadSlot (c.op 1).toNat (keyOf k)).monEv 5 0 1 1) 16 16

/-- CMAC_GEN: the tag of a host buffer. -/
def cmacGenWork (c : Cmd) (io : HostIo) (s : State) : Ran :=
  let n := (c.op 2).toNat
  let tag := aesCmac (s.slotKey (Cmd.keySlot c)) (takePad n 0 (bytesNat io.octets))
  .done ((s.emit (.hostOctets (hostAddr (c.op 1)) (natBytes tag))).monEv 5 0 1 (keyBlocks c)) n 16

/-- CMAC_VERIFY: a message and its tag; TAG_FAIL where they disagree (R451). -/
def cmacVerifyWork (c : Cmd) (io : HostIo) (s : State) : Ran :=
  let n := (c.op 2).toNat
  let l := takePad n 0 (bytesNat io.octets)
  let s := s.monEv 5 0 1 (keyBlocks c)
  if aesCmac (s.slotKey (Cmd.keySlot c)) (l.take (n - 16)) = l.drop (n - 16) then .done s n 0
  else .fin stTagFail 0 0 (s.bump 0x70011 1)

/-- WRAP: a slot's key under a key-encryption key to host memory. -/
def wrapWork (c : Cmd) (s : State) : Ran :=
  let w := aesWrap (s.slotKey (Cmd.keySlot c)) (s.slotKey (c.op 0).toNat)
  .done ((s.emit (.hostOctets (hostAddr (c.op 1)) (natBytes w))).monEv 5 0 1 (keyBlocks c)) 24 24

/-- UNWRAP: 24 host octets into a slot, or TAG_FAIL with the slot unchanged (R451). -/
def unwrapWork (c : Cmd) (io : HostIo) (s : State) : Ran :=
  let s := s.monEv 5 0 1 (keyBlocks c)
  match aesUnwrap (s.slotKey (Cmd.keySlot c)) (takePad 24 0 (bytesNat io.octets)) with
  | some k => .done (s.loadSlot (c.op 1).toNat (keyOf k)) 24 16
  | none => .fin stTagFail 0 0 (s.bump 0x70011 1)

/-- The end of a KEY_OP: its effects. A slot under invalidation in that tick is not written (R440). -/
def keyEnd (c : Cmd) (io : HostIo) (s : State) : Ran :=
  if (keyTarget c).any s.invalNow then .fin stAborted 0 0 s
  else
    match Cmd.keyOp c with
    | 0 => keyLoadWork c io s
    | 1 => keyGenWork c s
    | 2 => keyEraseWork c s
    | 5 => ecbDecSlotWork c io s
    | 6 => cmacGenWork c io s
    | 7 => cmacVerifyWork c io s
    | 8 => wrapWork c s
    | _ => unwrapWork c io s

/-- One tick of a KEY_OP, `left` of its `took` ticks being to come with this one; `prog` octets have been processed. -/
def keyTick (c : Cmd) (io : HostIo) (took left prog : Nat) (s : State) : Ran :=
  if Cmd.keyOp c = 3 ∨ Cmd.keyOp c = 4 then
    let n := sharesOf (keyBlocks c) took left
    let u := keyEcbWork c io (prog / 16) n s
    if left ≤ 1 then .done u (16 * n) (16 * n) else .wait (16 * n) (.work 0 (.key c io took (left - 1))) u
  else if left ≤ 1 then keyEnd c io s
  else .wait 0 (.work 0 (.key c io took (left - 1))) s

/-- A KEY_OP begins: one that takes no tick beyond its admission ends in it. -/
def keyStart (c : Cmd) (io : HostIo) (s : State) (_ : Priv) (_ : Nat) : Ran :=
  if keyTook c io = 0 then keyEnd c io s else .wait 0 (.work 0 (.key c io (keyTook c io) (keyTook c io))) s

/-- What SET_TX does (R438). -/
def setTxWork (c : Cmd) (s : State) (_ : Priv) (_ : Nat) : Ran :=
  let n := Cmd.keySlot c
  match s.atStart.setTxTree n with
  | none => .fin stNotFound 0 0 s
  | some t => if (s.atStart.txPending (n / 2 * 2)).isSome then .fin stRejectBusy 0 0 s else .wait 0 (.setTx n t (c.op 0).toNat) s

/-- What SET_ATTR does: KIND and OWNER of a general slot. -/
def setAttrWork (c : Cmd) (s : State) (_ : Priv) (_ : Nat) : Ran :=
  let n := Cmd.keySlot c
  let w := c.op 0
  .done (s.setSlot n { s.slot n with kind := fld w 46 44, owner := fld w 43 38 }) 0 0

/-- The SET_TX whose target boundary comes first: its queue, slot and due tick. -/
def State.nextTx (s : State) : Option (Nat × Nat × Nat) :=
  s.execs.foldl (fun best x =>
    match x.2.wait with
    | .setTx n t target =>
      let d := s.frameTick t target
      match best with
      | some (_, _, e) => if d < e then some (x.1, n, d) else best
      | none => some (x.1, n, d)
    | _ => best) none

/-- A KEY_LOCK or KEY_OP of queue `q` is in execution, so that the lease stands still (R448). -/
def State.keyOpRuns (s : State) (q : Nat) : Bool :=
  match (s.queue q).exec with
  | some e => hdrOpcode e.header == 0x11 || hdrOpcode e.header == 0x12
  | none => false

/-- At the end of the tick in which the lease runs out, the lock is released (R448). -/
def State.leaseEnd (s : State) : State :=
  match s.key.lock with
  | some (h, e) =>
    if e ≤ s.now && !s.keyOpRuns h then ({ s with key := { s.key with lock := none } }.bump 0x70012 1).notice 0x140 h 0
    else s
  | none => s

end Sys2Proof.Machine
end

