-- ==== Sys2Proof/Machine/OnuCmds.lean ====
section
/-! DEFINITION. The rules of ONU_OP and MSG_SEND (R60 to R63, R109 to R112, R250 to R257). -/

namespace Sys2Proof.Machine

/-- OP and ONU handle. -/
def onuOp (c : Cmd) : Nat := c.arg 31 28
def onuArg (c : Cmd) : Nat := c.arg 15 0

/-- Operand words of an operation (Table 3.9); a reserved one may have as many as some operation has (R66). -/
def onuNops (op n : Nat) : Bool :=
  match op with
  | 0 => n == 8
  | 1 => n == 3
  | 2 => n == 0
  | 3 | 4 | 5 | 6 => n == 1
  | _ => ([0, 1, 3, 8] : List Nat).contains n

/-- Reserved bits of the operand words that the command lays out (R109). -/
def onuOpMasks (op : Nat) : List Word :=
  match op with
  | 1 => [~~~(maskOf 2 0)]
  | 3 => [~~~(maskOf 5 0)]
  | 4 => [~~~(maskOf 31 0)]
  | 5 => [~~~(maskOf 17 0)]
  | 6 => [maskOf 46 27]
  | _ => []

/-- Reserved fields of word `w` of an entry (Table 7.1). -/
def onuReserved (w : Nat) : Word :=
  if w = 0 then maskOf 19 16 else if w = 3 ∨ w = 4 then maskOf 46 26 else if w = 7 then maskOf 46 42 else 0

/-- The fields of word `w` that UPDATE may change. -/
def onuUpdatable (w : Nat) : Word :=
  if w = 0 then maskOf 46 44 ||| maskOf 27 20 ||| maskOf 15 0 else if w = 2 then maskOf 19 0
  else if w = 7 then maskOf 25 0 else 0

/-- LANES, PLOAM_LANE and RATE of word 0 are as R251 asks. -/
def onuWord0Ok (w : Word) : Bool :=
  fld w 27 26 != 0 && (fld w 27 26).testBit (fld w 25 25) && fld w 24 23 != 3

/-- An owner tag that an ONU on tree `t` may have (R61). -/
def State.onuTagOk (s : State) (t o : Nat) : Bool := s.treeOwner t == 0 || s.treeOwner t == o

/-- A valid queue of KIND 0 names ONU `h`. -/
def State.onuQueued (s : State) (h : Nat) : Bool :=
  s.tbl.indexed.any (fun x =>
    x.1 / 2 ^ 24 == 0x11 && bitOf (nth x.2 3 0) 47 && !bitOf (nth x.2 0 0) 44 && fld (nth x.2 0 0) 15 0 == h)

/-- Privilege and ownership of ONU_OP (Table 3.8, R60). -/
def State.onuPriv (s : State) (c : Cmd) (p : Priv) : Option (Nat × Word × Word) :=
  let op := onuOp c
  let h := onuArg c
  if p.oper then none
  else if !([1, 4, 5, 6] : List Nat).contains op then some (0x05, 0, 0)
  else if !p.owns (s.onuOwner h) then some (0x07, 0, toWord h)
  else if op = 4 ∨ op = 5 then
    let a := fld (c.op 0) 17 0
    match s.alloc a with
    | some (g, _) => if p.owns (s.onuOwner g) then none else some (0x07, c.op 0, toWord a)
    | none => none
  else none

/-- Table 4.6 for ONU_OP. -/
def State.onuLegal (s : State) (c : Cmd) : Bool :=
  let m := s.mode
  let some' (l : List Mode) : Bool := l.contains m
  match onuOp c with
  | 0 => some' [.still, .flow]
  | 1 | 2 | 4 | 5 => some' [.still, .flow, .drain]
  | 3 => some' (if s.rf (adOnu (onuArg c) 2) 31 20 = 0 then [.still, .flow, .drain] else [.still])
  | _ => legalUp s

/-- The rule of ONU_OP; `work` runs the operation. -/
def onuRule (c : Cmd) (argOk : State → Bool) (work : State → Ran) : CmdRule :=
  { opcode := 0x0F, form := formCheck c 0xF000FFFF 0 (onuNops (onuOp c) c.ops.length) (onuOpMasks (onuOp c)),
    priv := fun s p => s.onuPriv c p, spMay := false, legal := fun s => s.onuLegal c, args := fun s _ => argOk s,
    run := fun s _ _ =>
      if s.atStart.standby (onuArg c / 512) then .fin stRejectBusy 0 0 s
      else if onuOp c ≠ 0 && !s.atStart.onuUsed (onuArg c) then .fin stNotFound 0 0 s else work s }

/-- An ONU_OP row of operation `op`; the row of operation 0 also takes the reserved ones. -/
def onuRow (c : Cmd) (op : Nat) (argOk : State → Bool) (work : State → Ran) : Option CmdRule :=
  if onuOp c = op then some (onuRule c argOk work)
  else if op = 0 ∧ 7 ≤ onuOp c then some (onuRule c (fun _ => false) work)
  else none

/-- Entry `h` is removed or admitted in this tick (R268). -/
def State.noteChanged (s : State) (h : Nat) : State :=
  let u := s.tree (h / 512)
  s.setTree (h / 512) { u with changed := smSet (fun _ => 0) u.changed (h % 512) (s.now + 1) }

/-- A used entry of the tree of `h` other than `h` has the ONU-ID. -/
def State.idTaken (s : State) (h id : Nat) : Bool :=
  ((List.range 512).map (h / 512 * 512 + ·)).any (fun g => g != h && s.onuUsed g && s.rf (adOnu g 0) 37 28 == id)

/-- What ADMIT requires (R251). -/
def State.admitOk (s : State) (h : Nat) (ws : List Word) : Bool :=
  let w0 := nth ws 0 0
  !s.onuUsed h && Nat.ble (fld w0 37 28) 1020 && !s.idTaken h (fld w0 37 28) && onuWord0Ok w0 &&
    s.onuTagOk (h / 512) (fld w0 43 38) && (List.range 8).all (fun i => nth ws i 0 &&& onuReserved i == 0)

/-- What ADMIT does (R251). -/
def State.admitWork (s : State) (c : Cmd) : Ran :=
  let h := onuArg c
  let w (i : Nat) : Word := c.op i
  let s := s.setRegs (adOnu h 0)
    [setFld (w 0) 47 47 1, w 1, setFld (w 2) 31 20 0, w 3, w 4, 0, 0, w 7 &&& maskOf 25 0]
  let s := (((s.clearOnuSlots h).setLoss h 0 0).setLoss h 1 0).clearDsk h
  .done (s.noteChanged h) 1 0

/-- The row ADMIT. -/
def onuAdmitRow (c : Cmd) : Option CmdRule :=
  onuRow c 0 (fun s => s.admitOk (onuArg c) c.ops) (fun s => s.admitWork c)

/-- What UPDATE does (R252); RESULT is the word before the write, as for MASK_WRITE. -/
def State.updateWork (s : State) (c : Cmd) : Ran :=
  let h := onuArg c
  let i := fld (c.op 0) 2 0
  let was := s.raw (adOnu h i)
  let new := merge was (c.op 1) (c.op 2)
  if i = 0 && !onuWord0Ok new then .fin stRejectArg 0 0 s
  else .done ((s.setReg (adOnu h i) new).settleDeficits (h / 512)) 1 was.toNat

/-- The row UPDATE. -/
def onuUpdateRow (c : Cmd) : Option CmdRule :=
  let i := fld (c.op 0) 2 0
  onuRow c 1 (fun _ => c.op 1 &&& ~~~(onuUpdatable i) == 0 && c.op 2 &&& onuReserved i == 0) (fun s => s.updateWork c)

/-- The allocations bound to ONU `h`. -/
def State.allocsOf (s : State) (h : Nat) : List Nat :=
  s.allocs.filterMap (fun x =>
    match x.2 with
    | some (g, _) => if g = h then some x.1 else none
    | none => none)

/-- Unicast queues with packets that name entry `h`. -/
def State.onuBusy (s : State) (h : Nat) : List Nat := s.dqBusy.filter (fun q => !s.dqMulti q && s.dqOnu q == h)

/-- A command in execution is a MSG_SEND for entry `h` whose message still comes from the host. -/
def Wait.omciFor (h : Nat) : Wait → Bool
  | .work _ (.omci c _ _) => onuArg c == h
  | _ => false

/-- What REMOVE does to entry `h` (R256, R315). -/
def State.removeOnu (s : State) (h : Nat) : State :=
  let s := (s.allocsOf h).foldl (fun s a => (s.setAlloc a none).setBucket a 0) s
  let s := (s.clearDsk h).clearOnuSlots h
  let s := ((s.setRf (adOnu h 0) 47 47 0).setRf (adOnu h 2) 31 20 0).noteChanged h
  let mine (m : Msg) : Bool := m.kind != 1 && m.handle == h
  let s := (s.discardMsgs (h / 512) 0 false mine).discardMsgs (h / 512) 1 false mine
  let s := s.execs.foldl (fun s x => if x.2.wait.omciFor h then s.endExec x.1 stAborted 0 0 else s) s
  ((s.onuBusy h).foldl (fun s q => s.discardQueue (.set dqNoTarget) q) s).settleDeficits (h / 512)

/-- The row REMOVE. -/
def onuRemoveRow (c : Cmd) : Option CmdRule :=
  onuRow c 2 (fun _ => true) (fun s => .done (s.removeOnu (onuArg c)) 1 0)

/-- The row SET_OWNER. -/
def setOwnerRow (c : Cmd) : Option CmdRule :=
  let h := onuArg c
  let o := fld (c.op 0) 5 0
  onuRow c 3 (fun s => !s.onuUsed h || (s.onuTagOk (h / 512) o && !s.onuQueued h)) (fun s =>
    .done (s.setRf (adOnu h 0) 43 38 o) 1 0)

/-- Bind allocation `a` with Alloc-ID `id` to entry `h` (R255). -/
def State.bindAlloc (s : State) (h a id : Nat) : State :=
  ((s.setAlloc a (some (h, id))).setBucket a 0).setRf (adOnu h 2) 31 20 (s.rf (adOnu h 2) 31 20 + 1)

/-- Unbind allocation `a` from entry `h` (R255). -/
def State.unbindAlloc (s : State) (h a : Nat) : State :=
  ((s.setAlloc a none).setBucket a 0).setRf (adOnu h 2) 31 20 (s.rf (adOnu h 2) 31 20 - 1)

/-- The allocation handle of a binding operand. -/
def bindHandle (c : Cmd) : Nat := fld (c.op 0) 17 0

/-- What BIND_ALLOC does (R255). -/
def State.bindWork (s : State) (c : Cmd) : Ran :=
  if s.rf (adOnu (onuArg c) 2) 31 20 = 4095 then .fin stRejectFull 0 0 s
  else .done (s.bindAlloc (onuArg c) (bindHandle c) (fld (c.op 0) 31 18)) 1 0

/-- The row BIND_ALLOC. -/
def bindAllocRow (c : Cmd) : Option CmdRule :=
  onuRow c 4 (fun s => (s.alloc (bindHandle c)).isNone) (fun s => s.bindWork c)

/-- What UNBIND_ALLOC does (R255). -/
def State.unbindWork (s : State) (c : Cmd) : Ran :=
  let h := onuArg c
  let a := bindHandle c
  match s.alloc a with
  | some (g, _) => if g = h then .done (s.unbindAlloc h a) 1 0 else .fin stNotFound 0 0 s
  | none => .fin stNotFound 0 0 s

/-- The row UNBIND_ALLOC. -/
def unbindAllocRow (c : Cmd) : Option CmdRule := onuRow c 5 (fun _ => true) (fun s => s.unbindWork c)

/-- EQD of lane `l` of entry `h`. -/
def State.eqd (s : State) (h l : Nat) : Nat := s.rf (adOnu h (3 + l)) 25 0

/-- EQV of lane `l` of entry `h`. -/
def State.eqv (s : State) (h l : Nat) : Bool := s.rb (adOnu h (3 + l)) 47

/-- A SET_EQD with V = 1 keeps R254. -/
def State.eqdOk (s : State) (h l delay : Nat) : Bool :=
  let other := s.eqd h (1 - l)
  (s.onuLanes h).testBit l &&
    (!s.eqv h (1 - l) || Nat.ble (if delay < other then other - delay else delay - other) 25480)

/-- SKEW of entry `h` follows its delays (R253). -/
def State.setSkew (s : State) (h : Nat) : State :=
  if s.eqv h 0 && s.eqv h 1 then
    let skew : Int := (s.eqd h 1 : Int) - (s.eqd h 0 : Int)
    (s.setRf (adOnu h 7) 41 26 (unsigned 16 skew)).setRf (adOnu h 7) 47 47 1
  else s.setRf (adOnu h 7) 47 47 0

/-- What SET_EQD does to lane `l` of entry `h` (R253, R257). -/
def State.setEqd (s : State) (h l : Nat) (v : Bool) (delay : Nat) : State :=
  let s := s.clearDsk h
  let s := if v then (s.setRf (adOnu h (3 + l)) 25 0 delay).setRf (adOnu h (3 + l)) 47 47 1
    else s.setRf (adOnu h (3 + l)) 47 47 0
  let fresh := smGet (fun _ => 0) (s.tree (h / 512)).measured (lossKey h l) == s.now + 1
  let s := s.setRf (adOnu h (5 + l)) 46 46 0
  let s := s.setRf (adOnu h (5 + l)) 47 47 (b2n fresh)
  s.setSkew h

/-- The row SET_EQD. -/
def setEqdRow (c : Cmd) : Option CmdRule :=
  let h := onuArg c
  let l := fld (c.op 0) 26 26
  let v := bitOf (c.op 0) 47
  let delay := fld (c.op 0) 25 0
  onuRow c 6 (fun s => !v || !s.onuUsed h || s.eqdOk h l delay) (fun s => .done (s.setEqd h l v delay) 1 0)

/-! ### MSG_SEND -/

/-- TYPE. -/
def msgType (c : Cmd) : Nat := c.opflags.toNat

/-- The tree and the lanes that a message names. -/
def State.msgTree (_s : State) (c : Cmd) : Nat := if msgType c = 1 then c.arg 6 0 else onuArg c / 512
def State.msgLanes (s : State) (c : Cmd) : List Nat :=
  if msgType c = 1 then [0, 1].filter (fun l => (c.arg 9 8).testBit l && s.laneUp (c.arg 6 0) l)
  else [s.rf (adOnu (onuArg c) 0) 25 25].filter (fun l => s.laneUp (onuArg c / 512) l)

/-- The 48 octets of a PLOAM message; with DEVMIC its last 8 are the check under the ONU's PLOAM key (R110). A broadcast
names no ONU, and the spec no key for it: that key is a free value. -/
def State.ploamOctets (s : State) (c : Cmd) : List Byte :=
  let bs := takePad 48 0 (wordsOctets c.ops)
  let key := if msgType c = 1 then s.freeKey else (s.slot (s.rf (adOnu (onuArg c) 2) 19 0)).key
  if c.arg 31 31 = 1 then bs.take 40 ++ octetsBE 8 (Config.ploamMic key (bs.take 40)).toNat else bs

/-- Why MSG_SEND is refused (R112): the entry is free, no lane of the message is in service, a lane's queue is full. -/
def State.msgRefused (s : State) (c : Cmd) : Option Nat :=
  if msgType c ≠ 1 && !s.onuUsed (onuArg c) then some stNotFound
  else if (s.msgLanes c).isEmpty then some stAborted
  else if (s.msgLanes c).any (fun l => Nat.ble 64 (s.lane (s.msgTree c) l).msgs.length) then some stRejectFull
  else none

/-- With DEVMIC, the ONU's KSLOT names a valid slot of KIND 3 (R454). -/
def State.micOk (s : State) (c : Cmd) : Bool :=
  let n := s.rf (adOnu (onuArg c) 2) 19 0
  c.arg 31 31 == 0 || ((s.slot n).valid && s.slotKind n == 3)

/-- A message joins the queues of its lanes, and its MSG_SEND waits for it (R112). -/
def State.msgQueued (s : State) (c : Cmd) (bs : List Byte) : Ran :=
  let t := s.msgTree c
  let m : Msg :=
    { id := s.msgNext, kind := msgType c, handle := if msgType c = 1 then t else onuArg c, octets := bs, sent := 0 }
  let s := (s.msgLanes c).foldl (fun s l => s.setLane t l { s.lane t l with msgs := (s.lane t l).msgs ++ [m] }) s
  .wait 0 (.message m.id 0) { s with msgNext := s.msgNext + 1, free := s.free + b2n (msgType c == 1) }

/-- The rule of MSG_SEND; `bs` is the message. -/
def msgRule (c : Cmd) (bs : State → List Byte) (ok : Bool) : CmdRule :=
  let ty := msgType c
  { opcode := 0x10,
    form := formCheck c (if ty = 1 then 0x8000037F else 0x8000FFFF) 3
      (if ty = 2 then c.ops.length == 2 else c.ops.length == 8 || (ty == 3 && c.ops.length == 2)) [],
    priv := fun s p =>
      if ty = 3 ∧ !p.oper then some (0x05, 0, 0)
      else if ty = 1 then privTree (c.arg 6 0) s p
      else if p.owns (s.onuOwner (onuArg c)) then none else some (0x07, 0, toWord (onuArg c)),
    spMay := false,
    legal := fun s => [.flow, .weir, .drain].contains s.mode,
    args := fun s _ =>
      ok && (match ty with
        | 0 => !s.onuUsed (onuArg c) || s.micOk c
        | 1 => c.arg 9 8 != 0
        | 2 => inRange 48 1980 (c.op 1).toNat
        | _ => false),
    run := fun s _ _ =>
      match s.atStart.msgRefused c with
      | some st => .fin st 0 0 s
      | none => s.msgQueued c (bs s) }
where
  /-- A tenant names only its own trees. -/
  privTree (t : Nat) (s : State) (p : Priv) : Option (Nat × Word × Word) :=
    if p.owns (s.treeOwner t) then none else some (0x07, 0, toWord t)

/-- The row of MSG_SEND of type `ty`, 0 or 1 (R110). -/
def ploamRow (ty : Nat) (c : Cmd) : Option CmdRule :=
  if msgType c = ty then some (msgRule c (fun s => s.ploamOctets c) true) else none

/-- The rule of MSG_SEND of type 2 with the octets of its message, or of the reserved type 3. -/
def omciRule (c : Cmd) (octets : List Byte) : CmdRule :=
  msgRule c (fun _ => takePad (c.op 1).toNat 0 octets) (msgType c == 2)

/-- One tick of the transfer of an OMCI message from the host, `left` being to come with it; then the message is queued. -/
def State.omciTick (s : State) (c : Cmd) (octets : List Byte) (left : Nat) : Ran :=
  if left ≤ 1 then (omciRule c octets).run s .operator 0 else .wait 0 (.work 0 (.omci c octets (left - 1))) s

/-- The row of MSG_SEND of type 2 (R111), and of the reserved type 3; what R112 refuses at admission ends there. -/
def omciRow (c : Cmd) (io : HostIo) : Option CmdRule :=
  let r := omciRule c io.octets
  if 2 ≤ msgType c then
    let now (s : State) : Bool := io.took == 0 || (s.atStart.msgRefused c).isSome
    some { r with run := fun s p q => if now s then r.run s p q else .wait 0 (.work 0 (.omci c io.octets io.took)) s }
  else none

end Sys2Proof.Machine
end

