-- ==== Sys2Proof/Machine/TimeCmds.lean ====
section
/-! DEFINITION. Setting network time, and the 1PPS pins (R120, R464 to R467, R472 to R474). -/

namespace Sys2Proof.Machine

/-- The operand of a TIME_SET, in 2^-40 ns. -/
def tsTime (c : Cmd) : Nat := ntOf (c.op 0).toNat (fld (c.op 1) 29 0)

/-! ### A step of network time (R465) -/

/-- OFFSET of a tree off its grid: its boundary after FPHASE, modulo the frame, in whole ns (R465, R472). -/
def State.offset (s : State) (t : Nat) : Nat :=
  let x := ((s.gridOrigin t).1 : Int) - ((s.rf (adTree t 0x20) 16 0 * 2 ^ 40 : Nat) : Int)
  (roundDiv (x % ((frameNt : Nat) : Int)) (2 ^ 40)).toNat % 125000

/-- The boundaries of a tree in service keep their distance to the present: they move by the step `d` (R472). -/
def State.offGrid (s : State) (t : Nat) (d : Int) : State :=
  let o := ((((s.gridOrigin t).1 : Int) + s.frameIndexUp t (s.nt + s.ntStep) * (frameNt : Nat)) + d).toNat
  let c := unsigned 51 (((s.gridOrigin t).2 : Int) + s.frameIndexUp t (s.nt + s.ntStep))
  let phase : Int := ((s.rf (adTree t 0x20) 16 0 * 2 ^ 40 : Nat) : Int)
  let home := ((o : Int) - phase) % ((frameNt : Nat) : Int) == 0 &&
    unsigned 51 (((o : Int) - phase) / ((frameNt : Nat) : Int)) == c
  let s := s.setTree t { s.tree t with offgrid := if home then none else some (o, c) }
  let n := if home then 0 else s.offset t
  (s.setReg (adTree t 0x21) (mkWord [(47, b2n (!home)), (0, n)])).notice 0x181 t n

/-- A step of network time: the next tick begins at network time `x` (R464, R465, R472, R474). -/
def State.stepTime (s : State) (x : Nat) : State :=
  let d : Int := (x : Int) - ((s.nt + s.ntStep : Nat) : Int)
  let s :=
    if d = 0 then s
    else
      let up := (List.range 128).filter s.treeUp
      let was := s
      let s := up.foldl (fun s t => s.offGrid t d) s
      let s := { s with ntSet := some x }
      let s := (List.range 128).foldl (fun s t => if up.contains t then s else s.regridded was t) s
      (s.dsq.gates.map (·.1)).foldl (fun s m =>
        match (s.gates m).pending with
        | some cct => if cct * 2 ^ 40 < x then s.changeGates m (x / 2 ^ 40) else s.showGate m (x / 2 ^ 40)
        | none => s.showGate m (x / 2 ^ 40)) s
  (s.setRf 0x80003 1 1 1).event 2 0x180 (toWord (unsigned 40 (saturate 40 (roundDiv d (2 ^ 40)))))

/-! ### TIME_SET -/

/-- A TIME_SET waits for its edge: its queue, admission tick and operand. -/
def State.ppsWait (s : State) : Option (Nat × Nat × Nat) :=
  s.execs.findSome? (fun x =>
    match x.2.wait with
    | .pps a sec ns => some (x.1, a, ntOf sec ns)
    | _ => none)

/-- TIME_SET, with AT_PPS 0 or 1. -/
def timeSetRule (c : Cmd) : CmdRule :=
  { opcode := 0x1C, form := formCheck c 0 1 (c.ops.length == 2) [0, maskOf 47 30], priv := privOper, spMay := false,
    legal := fun s => s.mode == .still || s.mode == .flow,
    args := fun _ _ => Nat.blt (fld (c.op 1) 29 0) (10 ^ 9),
    run := fun s _ _ =>
      if s.ppsWait.isSome then .fin stRejectBusy 0 0 s
      else if c.flag0 then .wait 0 (.pps s.now (c.op 0).toNat (fld (c.op 1) 29 0)) s
      else .done (s.stepTime (tsTime c)) 0 s.tick48 }

/-- The row of TIME_SET with the given AT_PPS. -/
def timeSetRow (atPps : Bool) (c : Cmd) : Option CmdRule := if c.flag0 = atPps then some (timeSetRule c) else none

/-! ### 1PPS (R466, R467) -/

/-- A 1PPS input edge is stamped with the present tick. -/
def State.ppsEdge (s : State) : State :=
  let sec := s.nt / (10 ^ 9 * 2 ^ 40)
  let ns := s.nt / 2 ^ 40 % 10 ^ 9
  let s := { s with ppsAt := some s.now }
  let s := ((s.setReg 0x80008 (toWord s.tick48)).setReg 0x80009 (toWord sec)).setReg 0x8000A (toWord ns)
  let s := (s.bump 0x8000B 1).monEv 6 0 1 1
  match s.ppsWait with
  | some (q, a, x) =>
    if a < s.now ∧ s.now ≤ a + 2 * 10 ^ 9 then (s.stepTime x).endExec q stDone 0 s.tick48 else s
  | none => s

/-- The first instant of the 1PPS output at or after network time `x`, in 2^-40 ns. -/
def State.ppsFrom (s : State) (x : Nat) : Nat :=
  let sec : Int := ((10 ^ 9 * 2 ^ 40 : Nat) : Int)
  let off : Int := signed 32 (s.rf 0x80010 31 0) * ((2 ^ 40 : Nat) : Int)
  ((((x : Int) - off + sec - 1).fdiv sec) * sec + off).toNat

/-- The next instant of the 1PPS output: that of this tick, where it has not been dealt with, or the first from the next tick on; a step
passes over those between (R466). -/
def State.ppsNext (s : State) : Nat :=
  let y := s.ppsFrom s.nt
  if s.ppsOut ≠ some s.now ∧ y < min s.nextNt (s.nt + s.ntStep) then y else s.ppsFrom s.nextNt

end Sys2Proof.Machine
end

