-- ==== Sys2Proof/Machine/OhmOps.lean ====
section
/-! DEFINITION. Tokens, commits, mirror records and takeovers of the Ohmad ring (15). -/

namespace Sys2Proof.Machine

/-- The ring control unit runs (Table 4.4). -/
def State.ohmRuns (s : State) : Bool := s.running && s.mode != .spring

/-- Counter `k` of OHM_CNT. -/
def State.ohmCount (s : State) (k : Nat) : State := s.bump (adOhm (0x40 + k)) 1

/-- RTT_LIMIT_US and PERIOD_US in ticks. -/
def State.rttLimit (s : State) : Nat := s.rf (adOhm 2) 31 16 * 1000
def State.ohmPeriod (s : State) : Nat := s.rf (adOhm 2) 15 0 * 1000

/-- COMMITTED. -/
def State.committed (s : State) : Nat := s.rf (adOhm 0x10) 47 16

/-- The member is DIVERGENT. -/
def State.divergent (s : State) : Bool := s.rb (adOhm 8) 47

/-! ### Tokens (Table 15.1, R482, R483) -/

/-- The words of a token that the master sends now. -/
def State.tokenWords (s : State) (seq : Nat) (commit : Option Nat) : List Word :=
  let c := commit.getD 0 / 2 ^ 40
  let v := s.ohm.digDone.isSome
  let d (w : Word) : Word := if v then w else 0
  [ohmWord0 0 s.memberId [(14, b2n commit.isSome), (13, b2n v)], mkWord [(16, s.committed)], mkWord [(16, seq)],
    toWord (s.ntNs / 10 ^ 9), toWord (s.ntNs % 10 ^ 9), toWord (c / 10 ^ 9), toWord (c % 10 ^ 9),
    d (mkWord [(16, s.rf (adOhm 0x1B) 47 16), (8, s.rf (adOhm 0x18) 47 40)]), d (s.raw (adOhm 0x19)),
    d (mkWord [(32, s.rf (adOhm 0x1A) 47 32)]) ||| mkWord [(16, b2n commit.isSome)]]

/-- The master sends a token on each Ohmad port that has link; a commit token counts its own acceptance, and leaves the period of
the others as it is (R482). -/
def State.sendToken (s : State) (commit : Option Nat) : State :=
  let seq := (s.ohm.seq + 1) % 2 ^ 32
  let ps := s.ohmPorts
  let ws := s.tokenWords seq commit
  let t : TokenOut :=
    { seq := seq, at_ := s.now, rtt := 0, left := ps, turned := false, commit := commit.isSome, ack := b2n commit.isSome, nack := 0,
      late := false }
  let out := if ps.isEmpty then s.ohm.out else s.ohm.out ++ [t]
  let sent := if commit.isSome then s.ohm.sentAt else some s.now
  ps.foldl (fun s m => s.sendOhm ws m) { s with ohm := { s.ohm with seq := seq, sentAt := sent, out := out } }

/-- Fields of a token. -/
def tokHops (ws : List Word) : Nat := fld (nth ws 0 0) 27 16
def tokTurn (ws : List Word) : Bool := bitOf (nth ws 0 0) 15
def tokCommit (ws : List Word) : Bool := bitOf (nth ws 0 0) 14
def tokDigv (ws : List Word) : Bool := bitOf (nth ws 0 0) 13
def tokOrigin (ws : List Word) : Nat := fld (nth ws 0 0) 39 28
def tokEpoch (ws : List Word) : Nat := fld (nth ws 1 0) 47 16
def tokSeq (ws : List Word) : Nat := fld (nth ws 2 0) 47 16

/-- The commit time of a token, in 2^-40 ns. -/
def tokC (ws : List Word) : Nat := ntOf (nth ws 5 0).toNat (fld (nth ws 6 0) 29 0)

/-- The other Ohmad port that has link. -/
def State.otherPort (s : State) (m : Nat) : Option Nat := s.ohmPorts.find? (· != m)

/-- A token passes on: with one hop more, on the other port, or turned back where that has no link. -/
def State.passToken (s : State) (m : Nat) (ws : List Word) : State :=
  let w0 := setFld (nth ws 0 0) 27 16 (tokHops ws + 1)
  match s.otherPort m with
  | some n => s.sendOhm (w0 :: ws.drop 1) n
  | none => s.sendOhm (setFld w0 15 15 1 :: ws.drop 1) m

/-- A copy of token `t` comes back on MAC `m` in tick `now`, with ACK and NACK in word `w9`. -/
def TokenOut.back (t : TokenOut) (m : Nat) (turn : Bool) (now : Nat) (w9 : Word) : TokenOut :=
  { t with
    rtt := now - t.at_,
    ack := t.ack + (fld w9 31 16 - 1), nack := t.nack + fld w9 15 0,
    left := if turn then t.left.filter (· != m)
      else match t.left.find? (· != m) with
        | some n => t.left.filter (· != n)
        | none => t.left.filter (· != m),
    turned := t.turned || turn }

/-- A copy of one of the master's own tokens comes back (R483, R487); one that is late is discarded. -/
def State.tokenBack (s : State) (m : Nat) (ws : List Word) : State :=
  match s.ohm.out.find? (fun t => t.seq == tokSeq ws && !t.late) with
  | none => s
  | some t =>
    let s := { s with ohm := { s.ohm with
      out := s.ohm.out.map (fun x => if x.seq = t.seq then x.back m (tokTurn ws) s.now (nth ws 9 0) else x) } }
    let w9 := nth ws 9 0
    if t.commit && fld w9 15 0 != 0 then s.event 2 0x1C4 (toWord (fld w9 31 0)) else s

/-- The epochs and digests of a first copy are compared (R492, R493). -/
def State.tokenCheck (s : State) (ws : List Word) : State :=
  let w7 := nth ws 7 0
  let w9 := nth ws 9 0
  let same := nth ws 8 0 == s.raw (adOhm 0x19) && fld w9 47 32 == s.rf (adOhm 0x1A) 47 32 &&
    fld w7 15 8 == s.rf (adOhm 0x18) 47 40
  let mine := tokDigv ws && s.ohm.digDone == some (fld w7 47 16)
  let bad (s : State) (cause : Nat) : State := (s.ohmCount 7).diverge cause
  let s := if mine && !same then bad s 2 else s
  let s := if !tokCommit ws && !s.commitPending && tokEpoch ws != s.committed then bad s 3 else s
  if s.divergent && mine && same && tokEpoch ws == s.committed && fld w7 47 16 == s.committed then
    (s.setRf (adOhm 8) 47 47 0).alarmClear 10 0x1C1 0
  else s

/-- A first copy is acted on. -/
def State.tokenFirst (s : State) (ws : List Word) : State :=
  let s := { s with ohm := { s.ohm with seen := tokSeq ws :: s.ohm.seen, heardAt := s.now } }
  (s.setRf (adOhm 8) 45 45 0).tokenCheck ws

/-- The SEQ of a token has been seen. -/
def State.tokenSeen (s : State) (ws : List Word) : Bool := s.ohm.seen.contains (tokSeq ws)

/-! ### Epochs (R484 to R489) -/

/-- A staged address lies in a region of R485. -/
def stageAddr (a : Nat) : Bool :=
  (Nat.ble 0x1000000 a && Nat.blt a 0x1C00000) || (Nat.ble 0xA0000 a && Nat.blt a 0xB0000) ||
    (Nat.ble 0x1D00000 a && Nat.blt a 0x1E00000) ||
    (match treeOff a with
      | some o => Nat.blt o 0x1800 || (Nat.ble 0x4000 o && Nat.blt o 0x5000) || (Nat.ble 0x6000 o && Nat.blt o 0x7000) ||
          (Nat.ble 0x8000 o && Nat.blt o 0xC000)
      | none => false)

/-- STAGE_LEN. -/
def State.stageLen (s : State) : Nat := s.rf (adOhm 0x14) 12 0

/-- Staged entry `e`, as a MASK_WRITE. -/
def State.stageEntry (s : State) (e : Nat) : WordWrite :=
  let a := adOhm (0x1000 + 3 * e)
  { addr := s.rf a 24 0, mask := s.raw (a + 1), value := s.raw (a + 2) }

/-- Every staged entry is valid. -/
def State.stageOk (s : State) : Bool := (List.range s.stageLen).all (fun e => stageAddr (s.stageEntry e).addr)

/-- SWAP_GEN asks for a swap while a generation is retiring. -/
def State.stageHeld (s : State) : Bool := s.rb (adOhm 0x14) 47 && s.retiring

/-- OHM_EPOCH.OPEN and OPEN_EPOCH. -/
def State.epochOpen (s : State) : Bool := s.rb (adOhm 0x10) 15
def State.openEpoch (s : State) : Nat := s.rf (adOhm 0x11) 47 16

/-- TIM.SET. -/
def State.timeSet (s : State) : Bool := s.rb 0x80003 1

/-- A commit announced by a token is accepted (R487). -/
def State.acceptsCommit (s : State) (ws : List Word) : Bool :=
  s.epochOpen && s.openEpoch == (tokEpoch ws + 1) % 2 ^ 32 && s.stageOk && !s.stageHeld && s.timeSet &&
    Nat.ble (s.nt + 1000 * 2 ^ 40) (tokC ws)

/-- A commit is pending for commit time `c`. -/
def State.pendCommit (s : State) (c : Nat) : State :=
  { s.setRf (adOhm 8) 41 41 1 with ohm := { s.ohm with commit := some c } }

/-- One staged entry applies, or is skipped, by the state at the start of the tick (R489); a command write of this tick to its word is lost (R476). -/
def State.applyStage (s : State) (e : Nat) : State :=
  let w := s.stageEntry e
  let b := s.atStart
  let x := b.storeWord w
  if regWritable w.addr && argWord b x w && !busyWord b x w then
    ((s.storeWord w).wordHook s w).claim 6 [.reg w.addr]
  else (s.ohmCount 5).notice 0x1C5 e 0

/-- The bank of tree `t`, set in SLU_MASK, is to swap at the tree's next boundary. -/
def State.commitBank (s : State) (t : Nat) : State :=
  if s.bankValid t (1 - s.bankActive t) then
    { s with ohm := { s.ohm with sluSwap := smSet (fun _ => false) s.ohm.sluSwap t true } }
  else (s.ohmCount 5).notice 0x1C5 (0x8000 + t) 0

/-- The commit is over: COMMIT_PENDING clears. -/
def State.dropCommit (s : State) : State :=
  { s.setRf (adOhm 8) 41 41 0 with ohm := { s.ohm with commit := none } }

/-- The commit takes effect at the end of this tick (R489). -/
def State.commitNow (s : State) (c : Nat) : State :=
  let trees := (List.range 128).filter s.sluMasked
  let swap := s.rb (adOhm 0x14) 47
  let s := (List.range s.stageLen).foldl State.applyStage s
  let s := if swap then s.swapGenerations false else s
  let s := trees.foldl State.commitBank s
  let e := s.openEpoch
  let s := ((s.dropCommit.setRf (adOhm 0x10) 47 16 e).setRf (adOhm 0x10) 15 15 0)
  let s := (s.setReg (adOhm 0x12) (toWord (c / 2 ^ 40 / 10 ^ 9))).setReg (adOhm 0x13) (toWord (c / 2 ^ 40 % 10 ^ 9))
  let s := (s.event 2 0x1C6 (mkWord [(16, e)])).startDigest
  match s.findExec (fun w => w == .epoch) with
  | some (q, _) => s.endExec q stDone 0 s.tick48
  | none => s

/-! ### Mirror records (Table 15.3, R495, R496) -/

/-- The key under which keys are mirrored: that of the KIND 0 slot that RING_KEK names. -/
def State.ringKek (s : State) : Option (List Nat) :=
  let n := s.rf (adOhm 1) 19 0
  if (s.slot n).valid && s.slotKind n == 0 then some (s.slotKey n) else none

/-- A key in wrapped form, as 4 words. -/
def wrapWords (kek key : List Nat) : List Word := octetsWords 4 ((aesWrap kek key).map (BitVec.ofNat 8))

/-- The words of an entry that are mirrored, for comparison: without measurements and NALLOC. -/
def State.entryContent (s : State) (h : Nat) : List Word :=
  let w (i : Nat) : Word := s.raw (adOnu h i)
  [w 0, w 1, setFld (w 2) 31 20 0, w 3, w 4, toWord (fld (w 7) 25 0)]

/-- Flags of a pair of slots as the record header holds them. -/
def State.pairFlags (s : State) (n : Nat) : List (Nat × Nat) :=
  let a := s.slot n
  let b := s.slot (n + 1)
  [(22, b2n a.encreq), (21, b2n b.tx), (20, b2n a.tx), (19, b2n b.valid), (18, b2n a.valid)]

/-- A pair of slots, for comparison. -/
def State.pairContent (s : State) (n : Nat) : List Word :=
  let k (i : Nat) : Nat := (s.slot (n + i)).key.toNat
  mkWord (s.pairFlags n) :: [toWord (k 0 / 2 ^ 80), toWord (k 0 / 2 ^ 32), toWord (k 0), toWord (k 1 / 2 ^ 80),
    toWord (k 1 / 2 ^ 32), toWord (k 1)]

/-- One thing that is mirrored: where its last content is kept, its content (empty for one that is all zeros), and its
record; none for keys without a key-encryption key. -/
structure MirItem where
  key : Nat
  content : List Word
  rec_ : Option (List Word)

/-- An all-zero content counts as none. -/
def zeroNone (l : List Word) : List Word := if l.all (· == 0) then [] else l

/-- Entry `h`. -/
def State.mirEntry (s : State) (h : Nat) : MirItem :=
  { key := h, content := zeroNone (s.entryContent h),
    rec_ := some (mirHeader 1 (h / 512) (h % 512) [] :: (List.range 8).map (fun i => s.raw (adOnu h i))) }

/-- A KEYS record. -/
def State.keysRecord (s : State) (t entry n : Nat) (fs : List (Nat × Nat)) : Option (List Word) :=
  s.ringKek.map (fun k =>
    mirHeader 2 t entry (s.pairFlags n ++ fs) :: (wrapWords k (s.slotKey n) ++ wrapWords k (s.slotKey (n + 1))))

/-- The line slots of ONU `h`. -/
def State.mirKeys (s : State) (h : Nat) : MirItem :=
  { key := 2 ^ 24 + h, content := zeroNone (s.pairContent (2 * h)), rec_ := s.keysRecord (h / 512) (h % 512) (2 * h) [] }

/-- The pair of TRE_GRP entry `i` of tree `t`. -/
def State.mirGroup (s : State) (t i : Nat) : MirItem :=
  let n := s.rf (adGrp t i) 17 0
  { key := 2 ^ 25 + 16 * t + i, content := zeroNone (s.pairContent n),
    rec_ := s.keysRecord t 0 n [(27, 1), (23, i)] }

/-- The binding of allocation `a` with ONU `h`, or its end. -/
def mirBind (a h id : Nat) (bound : Bool) : MirItem :=
  { key := 3 * 2 ^ 24 + a, content := if bound then [toWord (h + 1), toWord id] else [],
    rec_ := some [mirHeader 3 (h / 512) (h % 512) [(27, b2n bound)], mkWord [(18, id), (0, a)]] }

/-- The bindings of tree `t`. -/
def State.mirBinds (s : State) (t : Nat) : List MirItem :=
  s.allocs.filterMap (fun (x : Nat × Option (Nat × Nat)) =>
    match x.2 with
    | some (h, id) => if h / 512 = t then some (mirBind x.1 h id true) else none
    | none => none)

/-- The bindings of tree `t` that were mirrored and have ended. -/
def State.mirUnbinds (s : State) (t : Nat) : List MirItem :=
  s.ohm.mirrored.filterMap (fun (x : Nat × List Word) =>
    let a := x.1 - 3 * 2 ^ 24
    let h := (nth x.2 0 0).toNat - 1
    if Nat.ble (3 * 2 ^ 24) x.1 && h / 512 == t && (s.alloc a).isNone then
      some (mirBind a h (nth x.2 1 0).toNat false) else none)

/-- What was mirrored last under a key. -/
def State.mirLast (s : State) (k : Nat) : List Word := smGet (fun _ => []) s.ohm.mirrored k

/-- Everything of tree `t` that is mirrored. -/
def State.mirItems (s : State) (t : Nat) : List MirItem :=
  let hs := (List.range 512).map (512 * t + ·)
  hs.map s.mirEntry ++ hs.map s.mirKeys ++
    ((List.range 16).filter (fun i => s.rb (adGrp t i) 47)).map (s.mirGroup t) ++ s.mirUnbinds t ++ s.mirBinds t

/-- What the last mirroring of tree `t` does not show. -/
def State.mirChanged (s : State) (t : Nat) : List MirItem := (s.mirItems t).filter (fun i => s.mirLast i.key != i.content)

/-- What is sent again at a refresh: used entries, the key pairs of used entries and of the tree's groups, bindings. -/
def State.mirUsed (s : State) (t : Nat) : List MirItem :=
  let hs := ((List.range 512).map (512 * t + ·)).filter s.onuUsed
  hs.map s.mirEntry ++ hs.map s.mirKeys ++
    ((List.range 16).filter (fun i => s.rb (adGrp t i) 47)).map (s.mirGroup t) ++ s.mirBinds t

/-- A list cut into parts of up to 8. -/
def parts8 {α : Type} : Nat → List α → List (List α)
  | 0, _ => []
  | k + 1, l => if l.isEmpty then [] else l.take 8 :: parts8 k (l.drop 8)

/-- Items of tree `t` are sent, 8 records a frame at the most, and noted as mirrored. -/
def State.sendItems (s : State) (t : Nat) (l : List MirItem) : State :=
  let l := l.filter (fun i => i.rec_.isSome)
  let recs := l.filterMap (fun i => i.rec_)
  let s := (parts8 recs.length recs).foldl (fun s p => s.sendMirror t p) s
  { s with ohm := { s.ohm with
    mirrored := l.foldl (fun m i => smSet (fun _ => []) m i.key i.content) s.ohm.mirrored } }

/-- Payload words of a record type. -/
def mirPayload (rtype : Nat) : Option Nat := ([4, 8, 8, 1, 0, 4] : List Nat)[rtype]?

/-- The records of a mirror frame, each as its header and payload; none where one has a reserved type. -/
def mirRecords : Nat → List Word → Option (List (Word × List Word))
  | 0, _ => some []
  | k + 1, ws =>
    let h := nth ws 0 0
    match mirPayload (fld h 47 44) with
    | none => none
    | some n => (mirRecords k (ws.drop (1 + n))).map (fun r => (h, takePad n 0 (ws.drop 1)) :: r)

/-- The tree that a record from `origin` applies to (R496). -/
def State.mirTree (s : State) (origin tree : Nat) : Option Nat :=
  (List.range 128).find? (fun t =>
    let w := s.raw (adOhm (0x100 + 2 * t))
    bitOf w 47 && fld w 45 34 == origin && fld w 33 27 == tree)

/-- An ENTRY record is written; NALLOC is the device's own count, and measurements are 0 (R496). -/
def State.applyEntry (s : State) (h : Nat) (ws : List Word) : State :=
  let n := s.rf (adOnu h 2) 31 20
  let w (i : Nat) : Word := nth ws i 0
  (s.setRegs (adOnu h 0) [w 0, w 1, setFld (w 2) 31 20 n, w 3, w 4, 0, 0, toWord (fld (w 7) 25 0)]).setSkew h

/-- A KEYS record is unwrapped into the pair at slot `n`; none where it fails. -/
def State.applyKeys (s : State) (n : Nat) (hd : Word) (ws : List Word) : Option State :=
  match s.ringKek with
  | none => none
  | some kek =>
    let half (i : Nat) : Option (List Nat) := aesUnwrap kek (bytesNat (wordsOctets ((ws.drop (4 * i)).take 4)))
    match half 0, half 1 with
    | some a, some b =>
      let x := { s.slot n with valid := bitOf hd 18, tx := bitOf hd 20, encreq := bitOf hd 22, key := keyOf a }
      let y := { s.slot (n + 1) with valid := bitOf hd 19, tx := bitOf hd 21, encreq := bitOf hd 22, key := keyOf b }
      some ((s.setSlot n x).setSlot (n + 1) y)
    | _, _ => none

/-- A BIND record acts as ONU_OP would; none where that would be refused. -/
def State.applyBind (s : State) (h : Nat) (hd pay : Word) : Option State :=
  let a := fld pay 17 0
  let id := fld pay 31 18
  if bitOf hd 27 then
    match s.alloc a with
    | some x => if x = (h, id) then some s else none
    | none => if s.onuUsed h && s.rf (adOnu h 2) 31 20 != 4095 then some (s.bindAlloc h a id) else none
  else
    match s.alloc a with
    | some x => if x.1 = h then some (s.unbindAlloc h a) else none
    | none => none

/-! ### Takeover (R498, R499) -/

/-- Tree `t` takes its frame timing from counter `c` at boundary `b` (R499, R472). -/
def State.takeTiming (s : State) (t c b : Nat) : State :=
  let phase : Int := ((s.rf (adTree t 0x20) 16 0 * 2 ^ 40 : Nat) : Int)
  let home := ((b : Int) - phase) % ((frameNt : Nat) : Int) == 0 &&
    unsigned 51 (((b : Int) - phase) / ((frameNt : Nat) : Int)) == c
  if home then s.gridReturn t
  else
    let s := s.regrid t (fun s => s.setTree t { s.tree t with offgrid := some (b, c) })
    let n := s.offset t
    (s.setReg (adTree t 0x21) (mkWord [(47, 1), (0, n)])).notice 0x181 t n

/-- A takeover of tree `t` is stamped now; causes 0 SWITCH, 1 LOSS, 2 silence. It takes effect at the end of the tick, and no
command write of the tick to its words stands (R476, R499). -/
def State.stampTakeover (s : State) (t cause : Nat) : State :=
  if s.ohm.taking.any (fun x => x.1 == t) then s
  else { s with ohm := { s.ohm with taking := s.ohm.taking ++ [(t, cause)] } }.claim 6 [.reg (adTree t 0), .reg (adOhm (0x100 + 2 * t))]

/-- The takeover of tree `t` takes effect. -/
def State.takeover (s : State) (t cause : Nat) : State :=
  let s := match smGet (fun _ => none) s.ohm.sfc t with
    | some (c, b, n) => if s.now ≤ n + 10 ^ 9 then s.takeTiming t c b else s.invalidateKeys t
    | none => s.invalidateKeys t
  let was := s
  let s := (s.setRole t true).setRf (adTree t 0) 0 0 1
  let s := { s with ohm := { s.ohm with
    asked := smSet (fun _ => 0) s.ohm.asked t 0, silent := smSet (fun _ => 0) s.ohm.silent t 0,
    sfcSent := smSet (fun _ => 0) s.ohm.sfcSent t 0 } }
  ((s.reservice was t).ohmCount 6).notice 0x1C8 t cause

/-- The takeovers stamped in this tick take effect at its end, behind its records and its commit (R499). -/
def State.takeoversEnd (s : State) : State :=
  s.ohm.taking.foldl (fun s x => s.takeover x.1 x.2) { s with ohm := { s.ohm with taking := [] } }

/-- AUTO of tree `t`. -/
def State.ohmAuto (s : State) (t : Nat) : Bool := s.rb (adOhm (0x100 + 2 * t)) 26

/-- Tree `t` may be taken over: it is standby on a member that takes part and is not DIVERGENT. -/
def State.mayTake (s : State) (t : Nat) : Bool := s.ohmEn && s.standby t && !s.divergent

/-- HANDOVER of an active tree: ENABLE becomes 0, and RELEASED follows at the stopping boundary; at once where the tree is
not in service. -/
def State.handover (s : State) (t : Nat) : State :=
  let up := s.treeUp t
  let s := { s with ohm := { s.ohm with releasing := smSet (fun _ => false) s.ohm.releasing t true } }
  let s := s.setRf (adTree t 0) 0 0 0
  if up then s.setTree t { s.tree t with stopping := true } else s.sendReleased t (s.sfcPayload t)

/-- The counter, boundary and stamp that an SFC or RELEASED record gives. -/
def State.noteSfc (s : State) (t : Nat) (ws : List Word) : State :=
  let c := fld (nth ws 0 0) 2 0 * 2 ^ 48 + (nth ws 1 0).toNat
  let b := ntOf (nth ws 2 0).toNat (fld (nth ws 3 0) 29 0)
  { s with ohm := { s.ohm with
    sfc := smSet (fun _ => none) s.ohm.sfc t (some (c, b, s.now)),
    silent := smSet (fun _ => 0) s.ohm.silent t (s.now + 1) } }

/-- A record that has no effect. -/
def State.mirDrop (s : State) : State := s.ohmCount 4

/-- A record has been applied, unless it failed. -/
def State.mirDone (s : State) (r : Option State) : State :=
  match r with
  | some x => x.monEv 7 0 2 1
  | none => s.mirDrop

/-- A record for the standby tree `t`. -/
def State.mirStandby (s : State) (t : Nat) (hd : Word) (ws : List Word) : State :=
  let h := 512 * t + fld hd 36 28
  match fld hd 47 44 with
  | 0 =>
    let s := (s.noteSfc t ws).monEv 7 0 2 1
    if bitOf hd 27 && s.ohmAuto t && s.mayTake t then s.stampTakeover t 1 else s
  | 1 => s.mirDone (some (s.applyEntry h ws))
  | 2 =>
    if bitOf hd 27 then
      let i := fld hd 26 23
      s.mirDone (if s.rb (adGrp t i) 47 then s.applyKeys (s.rf (adGrp t i) 17 0) hd ws else none)
    else s.mirDone (s.applyKeys (2 * h) hd ws)
  | 3 => s.mirDone (s.applyBind h hd (nth ws 0 0))
  | 5 =>
    let was := smGet (fun _ => 0) s.ohm.asked t
    let s := (s.noteSfc t ws).monEv 7 0 2 1
    if was != 0 && s.mayTake t then s.stampTakeover t 0 else s
  | _ => s.mirDrop

/-- One record of a frame from `origin`. -/
def State.mirRecord (s : State) (origin : Nat) (r : Word × List Word) : State :=
  match s.mirTree origin (fld r.1 43 37) with
  | none => s.mirDrop
  | some t =>
    if s.standby t then s.mirStandby t r.1 r.2
    else if fld r.1 47 44 = 4 then (s.handover t).monEv 7 0 2 1
    else s.mirDrop

/-- A mirror frame arrives on MAC `m` (R496). -/
def State.mirFrame (s : State) (m : Nat) (ws : List Word) : State :=
  let w0 := nth ws 0 0
  match mirRecords (fld w0 15 8) (ws.drop 2) with
  | none => s.ohmCount 2
  | some recs =>
    let id := (fld w0 39 28, fld (nth ws 1 0) 47 16)
    if fld w0 27 16 ≠ s.memberId then
      match s.otherPort m with
      | some n => s.sendOhm ws n
      | none => s
    else if s.ohm.mirSeen.contains id then s
    else
      let s := { s with ohm := { s.ohm with mirSeen := id :: s.ohm.mirSeen } }
      recs.foldl (fun s r => s.mirRecord id.1 r) (s.ohmCount 3)

end Sys2Proof.Machine
end

