-- ==== Sys2Proof/Machine/SluiceCmds.lean ====
section
/-! DEFINITION. The rules and ticks of SLUICE_LOAD and SLUICE_SWAP (R107, R108). -/

namespace Sys2Proof.Machine

/-- A tenant names only its own trees (Table 3.8). -/
def privTree (t : Nat) (s : State) (p : Priv) : Option (Nat × Word × Word) :=
  if p.owns (s.treeOwner t) then none else some (0x07, 0, toWord t)

/-- The first COUNT words of a SLUICE_LOAD. -/
def sluiceCount (c : Cmd) : Nat := fld (c.op 1) 23 12 + 1

/-- The end of a SLUICE_LOAD, with its words in the bank: with LAST the bank is parsed (R107). -/
def State.loadEnd (s : State) (t n : Nat) (last : Bool) : Ran :=
  let b := 1 - s.bankActive t
  if !last then .done s n 0
  else
    match sluBadWord (fun i => s.raw (adBank t b i)) with
    | none => .done (s.setBankValid t b true) n 0
    | some w => .viol 0x0B (toWord w) (toWord t) s

/-- One tick of a SLUICE_LOAD: of the words for the shadow bank from word `start` on, `prog` have been copied, and of its
`took` ticks `left` are to come with this one. DESIGN CHOICE (entry 146): where the active bank changes during the copy (R241), the
later words enter the bank that is the shadow bank then; the spec does not say which they enter. -/
def State.loadTick (s : State) (t start : Nat) (ws : List Word) (last : Bool) (took left prog : Nat) : Ran :=
  let n := sharesOf ws.length took left
  let s := s.setRegs (adBank t (1 - s.bankActive t) (start + prog)) ((ws.take n).drop prog)
  if left ≤ 1 then s.loadEnd t n last else .wait n (.work 0 (.load t start ws last took (left - 1))) s

/-- The rule of SLUICE_LOAD (R107): it marks the shadow bank not valid, and its words come within the admission tick or over
the ticks that the transfer takes. -/
def sluiceLoadRule (c : Cmd) (io : HostIo) : CmdRule :=
  let t := c.arg 6 0
  let n := sluiceCount c
  let start := fld (c.op 1) 11 0
  { opcode := 0x0D, form := formCheck c 0x7F 1 (c.ops.length == 2) [0, ~~~(maskOf 23 0)], priv := privTree t,
    spMay := false, legal := legalUp, args := fun _ _ => Nat.ble (start + n) 4096,
    run := fun s _ _ =>
      if s.swapDue t || (s.commitPending && s.sluMasked t) then .fin stRejectBusy 0 0 s
      else
        let ws := takePad n 0 (io.slots.map wordOf)
        let s := s.setBankValid t (1 - s.bankActive t) false
        if io.took = 0 then s.loadTick t start ws c.flag0 1 1 0
        else .wait 0 (.work 0 (.load t start ws c.flag0 io.took io.took)) s }

/-- The rule of SLUICE_SWAP (R108). -/
def sluiceSwapRule (c : Cmd) : CmdRule :=
  let t := c.arg 6 0
  { opcode := 0x0E, form := formCheck c 0x7F 0 c.ops.isEmpty [], priv := privTree t, spMay := false,
    legal := legalUp, args := argsFine,
    run := fun s _ _ =>
      if s.swapDue t || (s.commitPending && s.sluMasked t) then .fin stRejectBusy 0 0 s
      else if !s.bankValid t (1 - s.bankActive t) then .fin stRejectArg 0 0 s
      else .wait 0 (.sluiceSwap t) s }

/-- The tick of the last instant that an ALIGN of tree `t` examines, where the word at its program counter is one (R233). -/
def State.alignLast (s : State) (t : Nat) : Nat :=
  match (s.tree t).run with
  | some r =>
    let word (i : Nat) : Word := s.raw (adBank t r.bank i)
    if hdrOpcode (word r.pc) = 0x25 then
      let left := (r.view s).rf (adTree t 0x1000) 14 0 - r.steps
      let r' := (s.runAlign t r (word r.pc) (word (r.pc + 1)) (word (r.pc + 2)) left).2.2
      r.bound + r'.steps - 1
    else s.now
  | none => s.now

end Sys2Proof.Machine
end

