-- ==== Sys2Proof/Machine/SnapCmds.lean ====
section
/-! DEFINITION. The rules and ticks of CRC_SCAN, CTR_SNAP and DUMP_CFG (R115, R116, R503 to R506, R516, R523 to R525, R550). -/

namespace Sys2Proof.Machine

/-! ### CRC_SCAN -/

/-- Word `w` of check unit `n`. -/
def adCrc (n w : Nat) : Nat := 0x60000 + 0x10 * n + w

/-- A 64-bit value in words `w` (bits 63:48) and `w + 1` of unit `n`. -/
def State.crcVal (s : State) (n w : Nat) : Nat := s.rf (adCrc n w) 15 0 * 2 ^ 48 + (s.raw (adCrc n (w + 1))).toNat

/-- Store such a value. -/
def State.setCrcVal (s : State) (n w v : Nat) : State :=
  (s.setReg (adCrc n w) (toWord (v / 2 ^ 48))).setReg (adCrc n (w + 1)) (toWord v)

/-- WIDTH of unit `n`. -/
def State.crcWidth (s : State) (n : Nat) : Nat := s.rf (adCrc n 0) 6 0

/-- The settings of unit `n` are in range (R523). -/
def State.crcOk (s : State) (n : Nat) : Bool :=
  let w := s.crcWidth n
  inRange 1 64 w && [1, 3, 5].all (fun k => Nat.blt (s.crcVal n k) (2 ^ w))

/-- The final value of a running register (R524). -/
def State.crcFinal (s : State) (n reg : Nat) : Nat :=
  let w := s.crcWidth n
  (if s.rb (adCrc n 0) 45 then revBits w reg else reg) ^^^ s.crcVal n 5

/-- A scan processes octets: RUN, OCTETS and FINAL follow (R524). -/
def State.crcScan (s : State) (n : Nat) (again : Bool) (bs : List Byte) : State :=
  let w := s.crcWidth n
  let reg := if again then s.crcVal n 7 else s.crcVal n 3
  let reg := crcOctets w (s.crcVal n 1) (s.rb (adCrc n 0) 46) (reg % 2 ^ w) (bs.map (·.toNat))
  let old : Word := if again then s.raw (adCrc n 11) else 0
  ((s.setCrcVal n 7 reg).setReg (adCrc n 11) (old + toWord bs.length)).setCrcVal n 9 (s.crcFinal n reg)

/-- One tick of a scan of octets: 32 of them; `prog` have been scanned (R115). -/
def State.scanHostTick (s : State) (n : Nat) (bs : List Byte) (prog : Nat) : Ran :=
  let t := (s.crcScan n true (bs.take 32)).monEv 4 n 1 (min 32 bs.length)
  let k := prog + min 32 bs.length
  if bs.length ≤ 32 then .done t k (t.crcVal n 9 % 2 ^ 48) else .wait k (.work 0 (.scanHost n (bs.drop 32))) t

/-- One tick of a scan of device words: the word at `a`, `left` words being to come with it (R115). -/
def State.scanWordTick (s : State) (n a left prog : Nat) : Ran :=
  let bs := if left = 0 then [] else wordsOctets [s.atStart.view a]
  let t := (s.crcScan n true bs).monEv 4 n 1 bs.length
  let k := prog + bs.length
  if left ≤ 1 then .done t k (t.crcVal n 9 % 2 ^ 48) else .wait k (.work 0 (.scanWords n (a + 1) (left - 1))) t

/-- The rule of CRC_SCAN (R115). Its first tick of scanning follows the tick of its admission. -/
def crcScanRule (c : Cmd) (io : HostIo) : CmdRule :=
  let n := c.arg 1 0
  let a := (c.op 0).toNat
  let len := (c.op 1).toNat
  { opcode := 0x13, form := formCheck c 3 3 (c.ops.length == 2) [],
    priv := fun s p =>
      if c.flag0 then none
      else if !p.oper then some (0x05, 0, 0)
      else if 2 ^ 25 < a + len then none
      else (firstOutside (s.mayRead p) a len).map (fun x => (0x06, 0, toWord x)),
    spMay := false, legal := legalUp,
    args := fun s _ =>
      s.crcOk n && (c.flag0 || (Nat.ble (a + len) (2 ^ 25) && (List.range len).all (fun i => regAssigned (a + i)))),
    run := fun s _ _ =>
      if s.crcBusy n then .fin stRejectBusy 0 0 s
      else
        let s := s.crcScan n c.flag1 []
        if c.flag0 then .wait 0 (.work 0 (.scanHost n (takePad len 0 io.octets))) s
        else .wait 0 (.work 0 (.scanWords n a len)) s }

/-! ### CTR_SNAP -/

/-- Counter set `i` of family `f`. -/
def State.setWords (s : State) (f i : Nat) : List Word := (List.range (famWords f)).map (fun w => toWord (s.setCount f i w))

/-- The family and the first set of an HBM block, and its number of sets (Table 16.2). -/
def groupSets (g : Nat) : Option (Nat × Nat × Nat) :=
  if 0x1000 ≤ g ∧ g ≤ 0x17FF then some (0, 512 * (g - 0x1000), 512)
  else if 0x1800 ≤ g ∧ g ≤ 0x1BFF then some (1, 512 * (g - 0x1800), 512)
  else if 0x1C00 ≤ g ∧ g ≤ 0x1C7F then some (2, 512 * (g - 0x1C00), 512)
  else if 0x1C80 ≤ g ∧ g ≤ 0x1E7F then some (3, 512 * (g - 0x1C80), 512)
  else if 0x1E80 ≤ g ∧ g ≤ 0x1EFF then some (4, 512 * (g - 0x1E80), 512)
  else if g = 0x1F00 then some (5, 0, 512)
  else if g = 0x1F01 then some (5, 512, 1)
  else none

/-- The register words of the other groups, in order; none stands for a zero word. -/
def groupWords (g : Nat) : Option (List (Option Nat)) :=
  let span (a n : Nat) : List (Option Nat) := (List.range n).map (fun i => some (a + i))
  if g ≤ 0xFF then
    some (span (adLaneStat (g / 2) (g % 2) 0) 16 ++ span (adBrx (g / 2) (g % 2) 0x40) 14 ++ [none, none])
  else if g ≤ 0x1FF then some (span (adMacStat (g - 0x100) 0) 64)
  else if g ≤ 0x5FF then some (span (0x4C000 + 4 * (g - 0x200)) 4)
  else if g ≤ 0x615 then some (span (0x41000 + 32 * (g - 0x600)) 32)
  else none

/-- GROUP names a group (Table 16.2). -/
def groupOk (g : Nat) : Bool := (groupSets g).isSome || (groupWords g).isSome

/-- The owner tag of the object that counter set `i` of family `f` counts for; none where the family has no owners. -/
def State.setOwner (s : State) (f i : Nat) : Option Nat :=
  if f = 0 then
    some (((s.tbl.keyed.find? (fun x =>
      x.1 / 2 ^ 24 == 4 && bitOf (nth x.2 2 0) 47 && flowHandle x.2 == i)).map (fun x => flowOwner x.2)).getD 0)
  else if f = 1 then some (s.dqOwner i)
  else if f = 2 then some (s.onuOwner i)
  else none

/-- The privilege sees a counter set (R505). -/
def State.setSeen (s : State) (p : Priv) (f i : Nat) : Bool := (s.setOwner f i).all p.owns

/-- The words of group `g` as privilege `p` gets them. -/
def State.groupSnap (s : State) (p : Priv) (g : Nat) : List Word :=
  match groupSets g with
  | some (f, i0, n) =>
    (List.range n).flatMap (fun i =>
      if s.setSeen p f (i0 + i) then s.setWords f (i0 + i) else List.replicate (famWords f) 0)
  | none =>
    match groupWords g with
    | some l => l.map (fun x => (x.map s.view).getD 0)
    | none => []

/-- CLEAR of a group (R506). -/
def State.groupClear (s : State) (g : Nat) : State :=
  match groupSets g with
  | some (f, i0, n) =>
    { s with sets := s.sets.filter (fun x => !(Nat.ble (setKey f i0 0) x.1 && Nat.blt x.1 (setKey f (i0 + n) 0))) }
  | none =>
    if g ≤ 0x1FF then
      ((groupWords g).getD []).foldl (fun s x => match x with
        | some a => s.setReg a 0
        | none => s) s
    else if g ≤ 0x5FF then ([0, 1, 2, 3] : List Nat).foldl (fun s i =>
      s.setReg (0x4C000 + 4 * (g - 0x200) + i) (regFactory (0x4C000 + 4 * (g - 0x200) + i))) s
    else if g ≤ 0x615 then ((List.range 9).map (10 + ·)).foldl (fun s i =>
      s.setReg (0x41000 + 32 * (g - 0x600) + i) 0) s
    else s

/-- The rule of CTR_SNAP (R116, R503 to R506). -/
def ctrSnapRule (c : Cmd) (io : HostIo) : CmdRule :=
  let g := c.arg 15 0
  { opcode := 0x14, form := formCheck c 0xFFFF 1 (c.ops.length == 1) [],
    priv := fun s p =>
      match p with
      | .tenant t =>
        if groupOk g && s.permit g t && !(Nat.ble 0x600 g && Nat.ble g 0x615) then none else some (0x05, 0, 0)
      | _ => none,
    spMay := false, legal := legalUp, args := fun _ p => groupOk g && (p.oper || !c.flag0),
    run := fun s p _ =>
      (if c.flag0 then s.groupClear g else s).giveWords io (hostAddr (c.op 0)) (s.atStart.groupSnap p g) (s.now % 2 ^ 48) }

/-! ### Counter dumps (R516, R517) -/

/-- Word `k` of the body of a dump of the families `fs`: the families in order, sets in ascending index. -/
def State.dumpWordAt (s : State) : List Nat → Nat → Word
  | [], _ => 0
  | f :: fs, k =>
    if k < famSets f * famWords f then toWord (s.setCount f (k / famWords f) (k % famWords f))
    else dumpWordAt s fs (k - famSets f * famWords f)

/-- The body words that a dump in progress reads in the `k` ticks to come, 8 a tick, as they stand before the first of them. -/
def State.dumpReads (s : State) (k : Nat) : State :=
  let d := s.mon.dump
  match d.run with
  | none => s
  | some (_, _, fam) =>
    let n := min (8 * (s.now + k - max s.now d.holdTill)) (dumpBody fam - d.done)
    if n = 0 then s
    else
      let fs := (List.range 6).filter (fun f => fam.testBit f)
      let s := s.emit (.hostWords (d.area + 64 + 8 * d.done) ((List.range n).map (fun i => s.dumpWordAt fs (d.done + i))))
      { s with mon := { s.mon with dump := { d with done := d.done + n } } }.monEv 3 0 1 n

/-! ### DUMP_CFG -/

/-- KIND of a DUMP_CFG. -/
def dumpKind (c : Cmd) : Nat := c.arg 3 0

/-- The area of the counter dump, its period and the retirement tick (R516). -/
def State.setDumpArea (s : State) (addr size period : Nat) : State :=
  let s := s.abandonDump
  { s with mon := { s.mon with dump := { s.mon.dump with
      area := addr, size := size, period := period, from_ := s.now, next := 1 } } }

/-- DUMP_CFG of either KIND. -/
def dumpCfgRule (c : Cmd) : CmdRule :=
  let k := dumpKind c
  let size := (c.op 1).toNat
  let period := (c.op 2).toNat
  { opcode := 0x15, form := formCheck c 0xF 0 (c.ops.length == 3) [],
    priv := fun _ p =>
      match p with
      | .supervisor => none
      | .operator => if k = 0 then none else some (0x05, 0, 0)
      | .tenant _ => some (0x05, 0, 0),
    spMay := false, legal := legalUp,
    args := fun s _ =>
      if k = 0 then
        (period == 0 || inRange 10000 3600000000 period) && Nat.ble (dumpOctets (s.rf 0x40030 45 40)) (size * 1024)
      else k == 1 && period == 0 && (size == 0 || Nat.ble 16384 size),
    run := fun s _ _ =>
      if k = 0 then .done (s.setDumpArea (hostAddr (c.op 0)) (size * 1024) period) 0 0
      else
        let area := if size = 0 then none else some (hostAddr (c.op 0), size)
        .done { s with flt := { s.flt with dump := { s.flt.dump with area := area } } } 0 0 }

/-- The row of DUMP_CFG of KIND 1, or of the other KINDs. -/
def dumpCfgRow (fatal : Bool) (c : Cmd) : Option CmdRule :=
  if decide (dumpKind c = 1) = fatal then some (dumpCfgRule c) else none

end Sys2Proof.Machine
end

