-- ==== Sys2Proof/Machine/Tick.lean ====
section
/-! DEFINITION. What a tick brings of itself (R21, R32, R34, R73, R475 to R477): the work of commands in execution, what
touches table 0x01, the end of the key lease; then the next tick with what falls due at its start. A command comes last of
the command steps of its tick, and with it the tick ends. -/

namespace Sys2Proof.Machine

/-! ### Commands in execution (R34, R97, R122) -/

/-- The port of queue number `n`; 64 stands for the service processor's. -/
def portOf (n : Nat) : Port := if n = 64 then .sp else .queue (BitVec.ofNat 6 n)

/-- One tick of a transfer of words to the host, `prog` of which have gone. -/
def State.giveTick (s : State) (addr : Nat) (ws : List Word) (result took left prog : Nat) : Ran :=
  let n := sharesOf ws.length took left
  let new := (ws.take n).drop prog
  let t := if new.isEmpty then s else s.emit (.hostWords (addr + 8 * prog) new)
  if left ≤ 1 then .done t n result else .wait n (.work 0 (.give addr ws result took (left - 1))) t

/-- One tick of the work of a command, PROGRESS being `prog` so far. -/
def State.workTick (s : State) (p : Priv) (w : Work) (prog : Nat) : Ran :=
  match w with
  | .give addr ws result took left => s.giveTick addr ws result took left prog
  | .insert i replace => s.insertTick p i replace
  | .delete t key => s.deleteTick p t key
  | .flush port all slot removed => s.flushTick port all slot removed
  | .walk x want addr n => s.walkTick p x want addr n
  | .stage t i first ws took left => s.stageTick t i first ws took left
  | .load t start ws last took left => s.loadTick t start ws last took left prog
  | .key c io took left => keyTick c io took left prog s
  | .scanHost n bs => s.scanHostTick n bs prog
  | .scanWords n a left => s.scanWordTick n a left prog
  | .defaults l => s.defaultsTick l prog
  | .omci c bs left => s.omciTick c bs left
  | .inject c bs picks left => injectTick c bs picks left s

/-- Carry one tick's work of the command in execution on queue `q` into the state. -/
def State.resettle (_s : State) (q : Nat) (e : Exec) : Ran → State
  | .fin st pr re t => t.finishCmd q e.header e.seq st pr re
  | .wait pr w t => t.setExec q { e with progress := pr, wait := w }
  | .viol reason operand object t => t.violate (portOf q) e.header e.seq 3 reason operand object

/-- The command in execution on queue `q` does one tick's work. -/
def State.jobTick (s : State) (q : Nat) : State :=
  match (s.queue q).exec with
  | some e =>
    (match e.wait with
      | .work _ w => s.resettle q e (s.workTick (s.privOf (portOf q)) w e.progress)
      | _ => s)
  | none => s

/-- The work waits for an earlier command that changes the same table (R97). -/
def State.workHeld (s : State) (e : Exec) (w : Work) : Bool :=
  s.execs.any (fun x => Nat.blt x.2.since e.since &&
    (([1, 2, 3, 4, 0x20, 0x21, 0x22] : List Nat).any (fun t => w.changes t && x.2.changes t)))

/-- The command in execution works in this tick: it was admitted before it, and no retry and no other command holds it. -/
def State.worksNow (s : State) (e : Exec) : Bool :=
  match e.wait with
  | .work hold w => Nat.blt e.since s.now && Nat.ble hold s.now && !s.workHeld e w
  | _ => false

/-- The queues whose commands work in this tick, in order of admission (R477). -/
def State.jobQueues (s : State) : List Nat :=
  (sortNat ((s.execs.filter (fun x => s.worksNow x.2)).map (fun x => x.2.since * 128 + x.1))).map (· % 128)

/-- The work of this tick of all commands in execution; none in DRY. What higher levels have written in this tick stands (R476). -/
def State.jobs (s : State) : State := if s.running then s.keepClaims (s.jobQueues.foldl State.jobTick s) else s

/-! ### The start of a tick -/

/-- Failed completion writes whose time has come are made again (R80). -/
def State.rewrites (s : State) : State :=
  if s.board.perst then s
  else
    s.execs.foldl (fun s x =>
      match x.2.wait with
      | .rewrite n st pr re => if n ≤ s.now then s.cplAgain x.1 x.2 st pr re else s
      | _ => s) s

/-- Frames that can no longer wait enter the deskew buffer (R304). -/
def State.deskewDue (s : State) : State :=
  s.trees.foldl (fun s x =>
    ([0, 1] : List Nat).foldl (fun s l =>
      ((s.lane x.1 l).toDeskew.filter (fun f => Nat.ble f.2.2.enterBy s.now)).foldl (fun s f =>
        (s.setLane x.1 l { s.lane x.1 l with toDeskew := (s.lane x.1 l).toDeskew.erase f }).deskewIn x.1 f) s) s) s

/-- The RETIRE that the service processor presents for a resource. -/
def policyCmd (cls i : Nat) : Cmd :=
  { port := .sp, silent := false, irq := false, opflags := 0, args := BitVec.ofNat 32 (cls * 2 ^ 28 + i), ops := [] }

/-- The service processor's port presents the oldest RETIRE of the retirement policy (R32, R37). -/
def State.admitSp (s : State) : State :=
  match s.sp.policy with
  | [] => s
  | (cls, i) :: l =>
    if s.tickFree && s.spOpen then
      { s with sp := { s.sp with policy := l } }.takeCommand (policyCmd cls i) (retireRule (policyCmd cls i))
    else s

/-- A TIME_SET whose edge has not come within 2 s ends (R464). -/
def State.ppsLate (s : State) : State :=
  match s.ppsWait with
  | some (q, a, _) => if a + 2 * 10 ^ 9 < s.now then s.endExec q stAborted 0 0 else s
  | none => s

/-- What falls due at the start of a tick. -/
def State.tickBegins (s : State) : State :=
  if s.running then
    let s := s.keysRead
    let s := (s.floodsRead.foldl State.floodRead s.stampsDue).decisionsDue.rewrites.ppsLate
    ((s.cmd.rings.map (·.1)).foldl State.ringAgain s).deskewDue.settleFences.admitSp.admitReserved
  else s

/-! ### Ticks -/

/-- The ticks in which something of a command in execution falls due; a tick that has passed stands for the next one. -/
def State.execDues (s : State) : List Nat :=
  s.execs.filterMap (fun x =>
    match x.2.wait with
    | .work hold _ => some hold
    | .rewrite n _ _ _ => if s.board.perst then none else some n
    | .fence pipe others => if s.fenceWaits pipe others then none else some 0
    | .pps a _ _ => some (a + 2 * 10 ^ 9 + 1)
    | _ => none)

/-- The ticks in which something else falls due of itself. -/
def State.unitDues (s : State) : List Nat :=
  s.cmd.rings.filterMap (fun x => if x.2.waiting.isEmpty || s.board.perst then none else some x.2.retryAt) ++
    s.cls.deciding.map (·.due) ++ (if s.floodsRead.isEmpty then [] else [0]) ++
    s.trees.flatMap (fun x => (x.2.lane0.toDeskew ++ x.2.lane1.toDeskew).map (·.2.2.enterBy)) ++
    s.board.softAt.toList ++ s.stamps.map (fun x => x.at_ / 256 + 1) ++ s.patrolDues.map (·.1) ++ s.oxDues ++ s.keyDues ++ (if s.tbl.going.isSome then [0] else []) ++
    (match s.key.lock with
      | some (h, e) => if s.keyOpRuns h then [] else [e]
      | none => []) ++
    s.gateDues ++ s.searchDues ++
    (if s.sp.policy.isEmpty then [] else if s.spOpen then [0] else if s.now < s.sp.resetTill then [s.sp.resetTill] else [])

/-- The dispatcher has a header to take that no command has (R65). -/
def State.reservedNext (s : State) : Bool :=
  !s.board.perst && s.nextQueue.any (fun q => ((s.queue q).staging.head?.bind reservedOpcode).isSome)

/-- Of the `k` ticks to come, how many pass before the next in which something falls due; at least one. -/
def State.quiet (s : State) (k : Nat) : Nat :=
  if s.reservedNext then 1
  else max 1 ((s.execDues ++ s.unitDues).foldl (fun m d => min m (d - s.now)) k)

/-- What ends a tick beside the commands' work: the grants of cells, what touches table 0x01, takeovers of trees, and the
lease. -/
def State.tickEnds (s : State) : State := if s.running then s.oxDue.grants.finishGoing.stampPages.macTick.takeoversEnd.leaseEnd else s

/-- `k` ticks pass; `fuel` bounds the stretches between things that fall due. -/
def State.runTicks : Nat → Nat → State → State
  | 0, _, s => s
  | fuel + 1, k, s =>
    if k = 0 || !s.running then s
    else
      let s := s.jobs.tickEnds
      let j := s.quiet k
      State.runTicks fuel (k - j) ((s.dumpReads j).advance j).tickBegins

/-- The tick of a fatal cause ends; no other tick follows in DRY (R149). -/
def State.shutFatal (s : State) : State := if s.fatalNow then { s with start := s.toDevice, claims := [] } else s

/-- The present tick ends. -/
def State.endTick (s : State) : State := if s.running then State.runTicks 1 1 s else s.shutFatal

/-- Ticks pass until tick `n`; none where it has come. -/
def State.waitUntil (s : State) (n : Nat) : State := State.runTicks (n - s.now) (n - s.now) s

/-- Ticks pass until the next frame boundary of tree `t`. -/
def State.toBoundary (s : State) (t : Nat) : State := s.waitUntil (s.nextBoundaryTick t)

/-- Where the device still runs after a wait, `f` acts. -/
def State.ifRuns (s : State) (f : State → State) : State := if s.running then f s else s

/-! ### Commands -/

/-- The state in which the dispatcher can look at a command of port `p`: where it has admitted a command in this tick, or one of
the port's queue has retired in it, the next tick (R32, R73). -/
def State.reach (s : State) (p : Port) : State :=
  if s.tickFree && (s.queue p.num).retiredAt != some s.now then s else s.endTick

/-- The tick of an admission ends. -/
def State.shutTick (s : State) : State :=
  if s.running then ((s.tickEnds.dumpReads 1).advance 1).tickBegins else s.shutFatal

/-- The line keys that `v` has invalidated in this tick are so in `s` too. -/
def State.alsoInval (s v : State) : State :=
  v.trees.foldl (fun s x =>
    if x.2.invalAt == some s.now then s.setTree x.1 { s.tree x.1 with invalAt := x.2.invalAt } else s) s

/-- The state from which the command is taken: commands admitted earlier have done their work of this tick (R477). Commands that a
MODE or RETIRE stops do no work in its tick (R122, R123), and a KEY_OP that would write a slot under an invalidation by the command
has no effect (R440). -/
def State.readied (u : State) (c : Cmd) (r : CmdRule) : State :=
  if r.opcode = 0x01 ∨ r.opcode = 0x18 then u
  else
    let v := u.jobs.takeCommand c r
    if !u.execs.isEmpty && v.trees.any (fun x => x.2.invalAt == some u.now) then (u.alsoInval v).jobs else u.jobs

/-- What follows the effects `v` of a command in its tick: what higher levels have written in this tick stands (R35, R476), and
what a MODE or RETIRE has not stopped works on. -/
def State.worked (u : State) (r : CmdRule) (v : State) : State :=
  if r.opcode = 0x01 ∨ r.opcode = 0x18 then (u.keepClaims v).jobs else u.keepClaims v

/-- The admission of a command, with the work of this tick of the commands in execution. -/
def State.admitTick (u : State) (c : Cmd) (r : CmdRule) : State := u.worked r ((u.readied c r).takeCommand c r)

/-- A command row: where the dispatcher can take the command, it does so, and the tick ends; else nothing happens. -/
def State.command (s : State) (c : Cmd) (r : CmdRule) : State :=
  let u := s.reach c.port
  if u.eligible c r.opcode then (u.admitTick c r).shutTick else s

/-- A command row that takes the command only where it is of the row's kind, as the state stands that the dispatcher sees. -/
def State.row (s : State) (c : Cmd) (f : State → Option CmdRule) : State :=
  match f (s.reach c.port) with
  | some r => s.command c r
  | none => s

end Sys2Proof.Machine
end

