-- ==== Sys2Proof/Machine/BufRows.lean ====
section
/-! DEFINITION. The rows of BUF_OP (R121, R412, R413, R425 to R427). -/

namespace Sys2Proof.Machine

/-- BUF_OP RETURN. -/
def execBufReturn (c : Cmd) (s : State) : Host.Outcome State Fault Refusal := .next (s.row c (fun _ => bufReturnRow c))

/-- BUF_OP INJECT. -/
def execInject (c : Cmd) (io : HostIo) (picks : List Nat) (s : State) : Host.Outcome State Fault Refusal :=
  .next (s.row c (fun _ => injectRow c io picks))

end Sys2Proof.Machine
end

