-- ==== Sys2Proof/Machine/BurstRows.lean ====
section
/-! DEFINITION. The rows of burst receivers, Gauge and the deskew buffers (07, 08). A row whose happening has a tick of its own
waits for it, and then looks again whether it can take place. -/

namespace Sys2Proof.Machine

/-! ### Bursts (R286 to R292, R298, R299) -/

/-- The item that a delimiter candidate on lane `l` is judged for: its search is open there, and no more than DLM_ERR symbols
differ (R287, R288). -/
def State.candidateFor (s : State) (t l : Nat) (c : Candidate) : Option Expect :=
  if s.running && s.laneUp t l then
    (s.findExpect t l c.pos).filter (fun e => Nat.ble (s.mismatches t l e.rate c.symbols) (s.rf (adBrx t l 0) 28 24))
  else none

/-- A delimiter candidate and what follows it: the burst is accepted, or rejected by its header (R288 to R292). -/
def execBurstAccepted (t : BitVec 7) (l : Bool) (pos : Nat) (symbols : List (BitVec 2)) (h : BitVec 64 × BitVec 64)
    (s : State) : Host.Outcome State Fault Refusal :=
  let c : Candidate := { pos := pos, symbols := symbols, h1 := h.1, h2 := h.2 }
  .next (match s.candidateFor t.toNat (b2n l) c with
    | none => s
    | some e =>
      let u := s.waitUntil (s.headerTick t.toNat (b2n l) e.rate c.pos)
      (match u.candidateFor t.toNat (b2n l) c with
        | some e => u.candidate t.toNat (b2n l) e c.pos c.h1 c.h2
        | none => u))

/-- A burst is lost: the oldest written one of lane `l` that no candidate has answered, once its search has closed; or, where
the receive FIFO has filled, the one being received (R24, R298). `first` is the first block of the burst that is lost. -/
def execBurstLost (t : BitVec 7) (l : Bool) (fifo : Bool) (first : Nat) (s : State) : Host.Outcome State Fault Refusal :=
  let t := t.toNat
  let l := b2n l
  .next (if !s.running || !s.laneUp t l then s
    else if fifo then (if (s.receiving t l).any (fun e => e.first == first) then s.fifoLost t l else s)
    else
      match (s.unanswered t l).filter (fun e => e.first == first) with
      | none => s
      | some e =>
        let u := s.waitUntil (s.closeTick t l e)
        (match u.unanswered t l with
          | some x => if u.running && x.base == e.base && x.items == e.items then u.loseUnanswered t l x else u
          | none => u))

/-- LOSS_N consecutive lost bursts of entry `h` on lane `l` are reported once (R299). -/
def execBurstsLost (h : BitVec 16) (l : Bool) (s : State) : Host.Outcome State Fault Refusal :=
  let l := b2n l
  let n := s.lossCount h.toNat l
  .next (if s.running && Nat.ble (2 ^ 17) n then
    (s.setLoss h.toNat l (n - 2 ^ 16)).notice 0x342 h.toNat (l * 2 ^ 23) else s)

/-! ### What leaves the decoder (R277 to R281, R293, R294) -/

/-- The tick in which `x` leaves the decoder of lane `l`. -/
def NextOut.tick : NextOut → Nat
  | .element e _ p => outTick p e.rate
  | .answer x => outTick x.begins x.rate

/-- It leaves the decoder. -/
def State.decode (s : State) (t l : Nat) (rx : List Byte) (fixed : Option (List Nat)) : NextOut → State
  | .element e x p => s.elementOut t l e x p rx fixed
  | .answer x => s.answerOut t l x rx fixed

/-- What it is: 0 a report block, 1 a PLOAM codeword, 2 a data codeword, 3 the codeword of a response in QUIET lane time. -/
def NextOut.kind : NextOut → Nat
  | .element _ x _ => x.what
  | .answer _ => 3

/-- The next report block, PLOAM codeword or data codeword of lane `l`, in line order, leaves the decoder: of kind `kind`, at line
position `pos`; `rx` its octets as received, `fixed` the bits that the LDPC decoder corrects in its information part, which with
`bad` it cannot. -/
def execCodewordDecoded (t : BitVec 7) (l : Bool) (kind : BitVec 2) (pos : Nat) (rx : List Byte) (bad : Bool)
    (fixed : List Nat) (s : State) : Host.Outcome State Fault Refusal :=
  let fixed := if bad then none else some fixed
  .next (match (if s.running then s.nextOut t.toNat (b2n l) else none).filter
      (fun x => x.kind == kind.toNat && x.pos == pos) with
    | none => s
    | some x =>
      let u := s.waitUntil x.tick
      (match (if u.running then u.nextOut t.toNat (b2n l) else none) with
        | some x => if x.tick ≤ u.now then u.decode t.toNat (b2n l) rx fixed x else u
        | none => u))

/-- The oldest decoded report of lane `l`, of occupancy `occ` for allocation `alloc`, is stamped and becomes its bucket (R30,
R204). -/
def execReportReceived (t : BitVec 7) (l : Bool) (alloc occ : Nat) (s : State) : Host.Outcome State Fault Refusal :=
  let t := t.toNat
  let l := b2n l
  .next (match (if s.running then (s.lane t l).reports.head? else none).filter
      (fun r => r.alloc == alloc && r.occ == occ) with
    | none => s
    | some r =>
      let u := s.waitUntil (stampTick r.out)
      (match (if u.running then (u.lane t l).reports else []) with
        | r :: rest =>
          let u := u.setLane t l { u.lane t l with reports := rest }
          (u.report t l r.alloc r.occ).traceStage r.trace 4
        | [] => u))

/-! ### Messages (R260, R261, R267, R268) -/

/-- The oldest decoded PLOAM message of a granted burst on lane `l`, `msg` of ONU `onu`, becomes a record, where its entry is in
use (R267). -/
def execPloamReceived (t : BitVec 7) (l : Bool) (onu : Nat) (msg : List Byte) (s : State) : Host.Outcome State Fault Refusal :=
  let t := t.toNat
  let l := b2n l
  .next (match (if s.running then s.takePloam t l (fun m => m.kind == 0) else none).filter (fun x => x.1.onu == onu && x.1.msg == msg) with
    | none => s
    | some (m, _) =>
      let n := ploamTick m.at_ m.rate
      let u := s.waitUntil n
      (match (if u.running then u.takePloam t l (fun m => m.kind == 0) else none) with
        | some (m, v) =>
          if v.onuUsed m.onu then
            (v.bump (adLaneStat t l 9) 1).ringMsg t 0 l (m.onu % 512) false false 0 n m.msg
          else v
        | none => u))

/-- The oldest decoded message of a response in QUIET lane time, `msg` at line position `pos`, is measured (R260, R261). -/
def execSerialNumberResponse (t : BitVec 7) (l : Bool) (pos : Nat) (msg : List Byte) (s : State) : Host.Outcome State Fault Refusal :=
  let t := t.toNat
  let l := b2n l
  .next (match (if s.running then s.takePloam t l (fun m => m.kind == 1) else none).filter (fun x => x.1.at_ == pos && x.1.msg == msg) with
    | none => s
    | some (m, _) =>
      let n := ploamTick m.at_ m.rate
      let u := s.waitUntil n
      (match (if u.running then u.takePloam t l (fun m => m.kind == 1) else none) with
        | some (m, v) => v.snMeasured t l m n
        | none => u))

/-- The oldest ranging window of lane `l` that has had no record. -/
def State.rangeOpen (s : State) (t l : Nat) : Option Expect :=
  if s.running then (s.lane t l).expects.find? (fun e => e.kind == 2 && e.state != 3) else none

/-- The window has had its record. -/
def State.rangeDone (s : State) (t l : Nat) (e : Expect) : State := s.setExpect t l e (fun e => { e with state := 3 })

/-- The record of a window whose response has been decoded; a stale one is only counted. -/
def State.rangeFound (s : State) (t l : Nat) (e : Expect) (m : PloamIn) : State :=
  let s := s.rangeDone t l e
  if s.rangeFresh e then s.rangeMeasured t l e.onu m (ploamTick m.at_ m.rate) else s.bump (adTree t 0x4014) 1

/-- The record of a window that ends without a response; a stale one is only counted. -/
def State.rangeEmpty (s : State) (t l : Nat) (e : Expect) : State :=
  let s := s.rangeDone t l e
  if s.rangeFresh e then s.rangeMissed t l e.onu else s.bump (adTree t 0x4014) 1

/-- The tick in which a window ends. -/
def State.rangeEnd (s : State) (t l : Nat) (e : Expect) : Nat := ceilDiv (s.window t l e).2.toNat tickPos

/-- The decoded response of ranging window `e` of lane `l`: the oldest message of its ONU, where a burst was accepted in it. -/
def State.takeRanging (s : State) (t l : Nat) (e : Expect) : Option (PloamIn × State) :=
  if e.state = 1 then s.takePloam t l (fun m => m.kind == 2 && m.onu == e.onu) else none

/-- The oldest ranging window on lane `l` has its end: with a decoded response, which is `msg`, or with none (R268). One whose
response is on its way through the decoder waits for CODEWORD_DECODED. -/
def execRangingResult (t : BitVec 7) (l : Bool) (msg : Option (List Byte)) (s : State) : Host.Outcome State Fault Refusal :=
  let t := t.toNat
  let l := b2n l
  .next (match s.rangeOpen t l with
    | none => s
    | some e =>
      match s.takeRanging t l e with
      | some (m, _) =>
        if msg != some m.msg then s
        else
        let u := s.waitUntil (ploamTick m.at_ m.rate)
        (match u.rangeOpen t l with
          | some e =>
            (match u.takeRanging t l e with
              | some (m, v) => v.rangeFound t l e m
              | none => u)
          | none => u)
      | none =>
        if e.state = 1 || msg.isSome then s
        else
          let u := s.waitUntil (s.rangeEnd t l e)
          (match u.rangeOpen t l with
            | some e => if e.state = 1 then u else u.rangeEmpty t l e
            | none => u))

/-! ### Frames and SDUs (R296, R300 to R306) -/

/-- The oldest released frame of lane `l`, of XGEM port `port`, comes into the core, is decrypted and forwarded, or goes to the deskew buffer;
`sduLen` is the length of the SDU that it opens or continues. -/
def execXgemRelease (t : BitVec 7) (l : Bool) (port : Nat) (sduLen : BitVec 14) (s : State) : Host.Outcome State Fault Refusal :=
  let t := t.toNat
  let l := b2n l
  .next (match (if s.running then (s.lane t l).released.head? else none).filter (fun x => x.port == port) with
    | none => s
    | some x =>
      let u := s.waitUntil (releaseTick x)
      (match (if u.running then (u.lane t l).released else []) with
        | x :: rest => (u.setLane t l { u.lane t l with released := rest }).takeXgem t l x sduLen.toNat
        | [] => u))

/-- The open SDU of tree `t` that has waited longest for a fragment. -/
def State.oldestSdu (s : State) (t : Nat) : Option Sdu :=
  (s.tree t).sdus.foldl (fun (m : Option Sdu) d =>
    match m with
    | some x => if d.at_ < x.at_ then some d else m
    | none => some d) none

/-- An open SDU that has had no fragment for 250 microseconds ends bad (R300): the one of tree `t` that waits longest. -/
def execSduTimeout (t : BitVec 7) (s : State) : Host.Outcome State Fault Refusal :=
  .next (match (if s.running then s.oldestSdu t.toNat else none) with
    | some d =>
      let u := s.waitUntil (d.at_ + 250000)
      if u.running && (u.tree t.toNat).sdus.contains d then u.endSdu t.toNat d else u
    | none => s)

/-- The oldest braided frame on its way from lane `l` enters the deskew buffer (R304, R306). -/
def execDeskewEntry (t : BitVec 7) (l : Bool) (s : State) : Host.Outcome State Fault Refusal :=
  .next (if s.running then s.deskewNext t.toNat (b2n l) else s)

/-- The tick in which the first hold of a frame in tree `t`'s deskew buffer expires. -/
def State.firstExpiry (s : State) (t : Nat) : Option Nat :=
  match (s.tree t).dsk.flatMap (fun x => x.2.held.map (·.expires)) with
  | [] => none
  | n :: l => some (l.foldl min n)

/-- The hold of the oldest held frame of tree `t` expires, which releases its sequence up to it (R305). -/
def execDeskewHoldExpiry (t : BitVec 7) (s : State) : Host.Outcome State Fault Refusal :=
  .next (match (if s.running then s.firstExpiry t.toNat else none) with
    | none => s
    | some n =>
      let u := s.waitUntil n
      if u.running then ((u.tree t.toNat).dsk.map (·.1)).foldl (fun s p => s.expireDsk t.toNat p) u else u)

end Sys2Proof.Machine
end

