-- ==== Sys2Proof/Machine/EvtOps.lean ====
section
/-! DEFINITION. The event writer and its signals, traces, bandwidth windows and counter dumps (16). -/

namespace Sys2Proof.Machine

/-! ### Event records (R526, R527, R531, R532) -/

/-- The two words of a record (Table 16.13). -/
def evWords (r : EvRec) (phase : Bool) : List Word :=
  [mkWord [(47, b2n phase), (45, r.cls), (34, r.code), (26, r.rep), (0, r.tick % 2 ^ 26)], r.arg]

/-- Alarm record `a` goes before record `r` (R479); of one place, the alarm. -/
def alarmFirst (a r : EvRec) : Bool := Nat.blt a.tick r.tick || (a.tick == r.tick && Nat.ble (evRank a) (evRank r))

/-- The record that is due next: of the heads of the alarm queue and the staging buffer, the first in the order of R479. -/
def State.nextRecord (s : State) : Option EvRec :=
  match s.evt.alarms, s.evt.staged with
  | a :: _, r :: _ => if alarmFirst a r then some a else some r
  | a :: _, [] => some a
  | [], r :: _ => some r
  | [], [] => none

/-- The record due next leaves its queue. -/
def State.popRecord (s : State) : State :=
  match s.evt.alarms, s.evt.staged with
  | a :: l, r :: m =>
    if alarmFirst a r then { s with evt := { s.evt with alarms := l } } else { s with evt := { s.evt with staged := m } }
  | _ :: l, [] => { s with evt := { s.evt with alarms := l } }
  | [], _ :: m => { s with evt := { s.evt with staged := m } }
  | [], [] => s

/-- The BASE record that goes before record `r`, where one is due. -/
def State.baseDue (s : State) (r : EvRec) : Option EvRec :=
  if s.evt.base = some (r.tick % 2 ^ 48 / 2 ^ 26) then none
  else some { cls := 2, code := 0x080, rep := 0, tick := r.tick, arg := toWord r.tick }

/-- The event ring has room for a record. -/
def State.evtRoom (s : State) : Bool :=
  let n := s.rf 0x20001 4 0
  n != 0 && !s.evt.parked &&
    Nat.blt ((s.rf 0x20003 15 0 + 2 ^ n - s.rf 0x20002 15 0 % 2 ^ n) % 2 ^ n) (2 ^ n - 1)

/-- The records of classes 1 to 3 that are visible and not signalled are signalled. -/
def State.signal9 (s : State) : State := { s with evt := { s.evt with unsignalled := 0, oldest := none } }.msix 0 9

/-- A record of class `cls` has become visible (R532). -/
def State.visible (s : State) (cls : Nat) : State :=
  if cls = 0 then
    if s.evt.last8 = some s.now then s else { s with evt := { s.evt with last8 := some s.now } }.msix 0 8
  else
    let n := s.evt.unsignalled + 1
    let s := { s with evt := { s.evt with unsignalled := n, oldest := some (s.evt.oldest.getD s.now) } }
    if s.rf 0x20005 47 32 ≤ n then s.signal9 else s

/-- A record goes to the event ring, word 1 first. -/
def State.putEvent (s : State) (r : EvRec) : State :=
  let n := s.rf 0x20001 4 0
  let i := s.rf 0x20003 15 0
  let a := (s.raw 0x20000).toNat * 16 + 16 * i
  let ws := evWords r s.evt.phase
  let s := (s.emit (.hostWords (a + 8) (ws.drop 1))).emit (.hostWords a (ws.take 1))
  let j := (i + 1) % 2 ^ n
  let s := s.setReg 0x20003 (toWord j)
  let s := { s with evt := { s.evt with
    phase := if j = 0 then !s.evt.phase else s.evt.phase, wroteAt := some s.now, retryAt := none } }
  (s.monEv 2 0 1 1).visible r.cls

/-- The next record, or the BASE record that it needs, is written (R527, R531). -/
def State.writeRecord (s : State) : State :=
  match s.nextRecord with
  | none => s
  | some r =>
    match s.baseDue r with
    | some b => ({ s with evt := { s.evt with base := some (r.tick % 2 ^ 48 / 2 ^ 26) } }).putEvent b
    | none => s.popRecord.putEvent r

/-- The writer can write: the link is up, a record waits and the ring has room. -/
def State.writerOpen (s : State) : Bool :=
  s.running && !s.board.perst && s.nextRecord.isSome && s.evtRoom

/-- The tick from which the writer may write again: at most one record a tick, and 10 microseconds after a failure. -/
def State.writerTick (s : State) : Nat :=
  max ((s.evt.wroteAt.map (· + 1)).getD 0) (s.evt.retryAt.getD 0)

/-! ### Traces (R522) -/

/-- A stage as the record shows it. -/
def traceTicks (o : Option Nat) : Nat :=
  match o with
  | some n => min n 0xFFFFFE
  | none => 0xFFFFFF

/-- The record of a trace slot (Table 16.9), without PHASE. -/
def traceRecord (i : Nat) (t : TraceSlot) (ended : Bool × Bool × Bool) : List Word :=
  let st (k : Nat) : Nat := traceTicks (nth t.stages (k - 1) none)
  [mkWord [(46, t.kind), (45, b2n ended.1), (44, b2n ended.2.1), (43, b2n ended.2.2), (37, i), (27, t.src),
      (0, t.len % 2 ^ 14)], toWord t.base] ++
    ([1, 3, 5, 7] : List Nat).map (fun k => mkWord [(24, st k), (0, st (k + 1))]) ++ [t.dest, 0]

/-- A trace record leaves its slot for the trace ring; vector 11 is sent at most once in 1,000 ticks (R532). -/
def State.putTrace (s : State) (i : Nat) (t : TraceSlot) (ended : Bool × Bool × Bool) : State :=
  let ws := traceRecord i t ended
  let shown := s.ringOpen ringTrace && !s.board.perst
  let s := s.ringPut ringTrace (nth ws 0 0) (ws.drop 1) []
  let s := s.setTrace i none
  if shown && s.evt.last11.all (fun n => Nat.ble (n + 1000) s.now) then
    { s with evt := { s.evt with last11 := some s.now } }.msix 0 11
  else s

/-! ### Bandwidth windows (R513) -/

/-- Point `b` takes the count of a window. -/
def State.bwPoint (s : State) (b : Nat) : State :=
  let a := 0x4C000 + 4 * b
  let n := smGet (fun _ => 0) s.mon.bw b
  let s := s.setReg a (toWord n)
  let s := if n < (s.raw (a + 1)).toNat then s.setReg (a + 1) (toWord n) else s
  let s := if (s.raw (a + 2)).toNat < n then s.setReg (a + 2) (toWord n) else s
  s.bump (a + 3) 1

/-! ### Counter dumps (R516 to R519) -/

/-- The tick at which the next dump is due. -/
def State.dumpDue (s : State) : Option Nat :=
  let d := s.mon.dump
  if d.period = 0 ∨ d.size = 0 then none else some (d.from_ + d.next * d.period * 1000)

/-- Eight words at an octet address, words 1 to 7 before word 0. -/
def State.putFrame (s : State) (addr : Nat) (ws : List Word) : State :=
  (s.emit (.hostWords (addr + 8) (ws.drop 1))).emit (.hostWords addr (ws.take 1))

/-- A dump starts: its header is written (Table 16.8). -/
def State.startDump (s : State) : State :=
  let s := s.bump 0x40031 1
  let fam := s.rf 0x40030 45 40
  let seq := (s.raw 0x40031).toNat
  let s := { s with mon := { s.mon with dump := { s.mon.dump with run := some (seq, s.now, fam), done := 0, holdTill := 0 } } }
  if s.board.perst then s.abandonDump
  else
    s.putFrame s.mon.dump.area [toWord seq, toWord s.tick48, mkWord [(40, fam)], toWord (dumpBody fam),
      toWord (s.ntNs / 10 ^ 9), toWord (s.ntNs % 10 ^ 9), 0, 0]

end Sys2Proof.Machine
end

