-- ==== Sys2Proof/Machine/DumpOps.lean ====
section
/-! DEFINITION. The fatal dump (R551, R552, Tables 17.11 and 17.12). -/

namespace Sys2Proof.Machine

/-- Entry `q` of section QUEUES (Table 17.12); entry 64 is the service processor's port. -/
def State.dumpQueue (s : State) (q : Nat) : List Word :=
  let u := s.queue q
  let e (f : Exec → Nat) : Nat := (u.exec.map f).getD 0
  let sp := q == 64
  [mkWord [(47, b2n u.exec.isSome), (0, if sp then 0 else s.qstate q)], if sp then 0 else s.raw (adQueue q 8),
    toWord (e (fun x => x.seq)), (u.exec.map (fun x => x.header)).getD 0, toWord (e (fun x => x.progress)),
    if sp then 0 else mkWord [(20, u.fetch), (0, u.tail)],
    if sp then 0 else mkWord [(47, b2n u.phase), (16, u.cplWr), (0, s.rf (adQueue q 5) 15 0)], 0]

/-- Words from a first address on, as reads show them. -/
def State.viewWords (s : State) (a n : Nat) : List Word := (List.range n).map (fun i => s.view (a + i))

/-- Records of two words, filled up with zeros to `n` records. -/
def dumpRecords (n : Nat) (l : List EvRec) : List Word := takePad (2 * n) 0 (l.flatMap (fun r => evWords r false))

/-- The bits of the resources of a class, 48 a word. -/
def State.dumpBitmap (s : State) (cls n : Nat) : List Word :=
  (List.range (ceilDiv n 48)).map (fun k =>
    toWord (bitsNat 48 (fun i => Nat.blt (48 * k + i) n && s.isRetired cls (48 * k + i))))

/-- One entry of section UNCORR. -/
def dumpUncorr (e : UncorrEntry) : List Word :=
  [mkWord [(43, e.unit), (38, e.structure_), (24, e.src % 2 ^ 14), (0, e.detail % 2 ^ 24)], toWord e.tick]

/-- The trace slots in flight, with TIMEOUT set, by slot. -/
def State.dumpTraces (s : State) : List Word :=
  takePad 512 0 ((List.range 64).flatMap (fun i =>
    match s.traceSlot i with
    | some t => traceRecord i t (false, false, true)
    | none => []))

/-- A word that section REGISTERS holds: a register, not a bank image or an ONU entry. -/
def dumpWord (a : Nat) : Bool :=
  regAssigned a &&
    (match treeOff a with
      | some off => !(Nat.ble 0x2000 off && Nat.blt off 0x4000) && !(Nat.ble 0x5000 off && Nat.blt off 0x6000)
      | none => true)

/-- Runs of neighbouring addresses, each with its first address and its count; at most 65,535 words a run. -/
def runsOf : List Nat → List (Nat × Nat)
  | [] => []
  | a :: l =>
    match runsOf l with
    | (b, n) :: r => if b = a + 1 ∧ n < 65535 then (a, n + 1) :: r else (a, 1) :: (b, n) :: r
    | [] => [(a, 1)]

/-- Section REGISTERS. -/
def State.dumpRegs (s : State) : List Word :=
  (runsOf ((List.range (2 ^ 25)).filter dumpWord)).flatMap (fun r =>
    mkWord [(32, r.2), (0, r.1)] :: s.viewWords r.1 r.2)

/-- The text of the service processor's log, which the spec does not give. -/
def State.spLog (s : State) : List Word := (List.range 8192).map (fun i => Config.freeWord (s.free + i))

/-- The body of section `id` (Table 17.11). -/
def State.dumpSection (s : State) (id : Nat) : List Word :=
  let f := s.raw 0x222
  let nt := [toWord (s.ntNs / 10 ^ 9), toWord (s.ntNs % 10 ^ 9)]
  if id = 1 then
    s.view 0 :: s.viewWords 0x20 5 ++ [0, toWord s.sp.fwVersion, toWord (s.rf 0x220 31 0)] ++ nt ++ List.replicate 5 0
  else if id = 2 then [s.raw 0x221, f, toWord (s.flt.dump.further % 256)] ++ List.replicate 5 0
  else if id = 3 then (List.range 65).flatMap s.dumpQueue
  else if id = 4 then s.viewWords 0x400 520
  else if id = 5 then s.viewWords 0x20100 256 ++ dumpRecords 64 s.evt.alarms
  else if id = 6 then takePad 24 0 (s.viewWords 0x20000 21) ++ dumpRecords 1024 s.evt.staged
  else if id = 7 then
    s.viewWords 0x210 2 ++ s.dumpBitmap 0 256 ++ s.dumpBitmap 3 256 ++ s.dumpBitmap 2 32 ++
      takePad 1025 0 ((s.retiredOf 4).map toWord)
  else if id = 8 then takePad 512 0 (s.flt.uncorr.flatMap dumpUncorr)
  else if id = 9 then s.dumpTraces
  else if id = 10 then s.spLog
  else if id = 11 then s.viewWords 0x42000 8192 ++ s.viewWords 0x44000 16384
  else s.dumpRegs

/-- A section with its frame. -/
def State.dumpFramed (s : State) (id : Nat) : List Word :=
  let b := s.dumpSection id
  mkWord [(40, id), (0, b.length)] :: b ++ [toWord (crc32cWords b)]

/-- The whole dump: header, sections, trailer (R552). -/
def State.fatalDump (s : State) (flash : Bool) : List Word :=
  let w0 := mkWord [(32, 1), (0, s.rf 0x220 31 0)]
  let n := if flash then 10 else 12
  let l := [w0, s.view 0, s.raw 0x222, toWord (b2n flash), 0, 0, 0, 0] ++
    (List.range n).flatMap (fun i => s.dumpFramed (i + 1))
  l ++ [w0, toWord (l.length + 8), toWord (crc32cWords l), toWord n, 0, 0, 0, 0]

/-- The dump into the flash slot (R551). -/
def State.dumpToFlash (s : State) (fail : Bool) : State :=
  if fail then s.setRf 0x220 47 45 4
  else
    let d := s.fatalDump true
    { (s.setRf 0x220 44 44 1).setRf 0x220 47 45 3 with flt := { s.flt with dump := { s.flt.dump with flash := d } } }

/-- The dump into the host area; trailer word 0 comes last. -/
def State.dumpToHost (s : State) (addr : Nat) : State :=
  let d := s.fatalDump false
  let n := d.length - 8
  let s := s.emit (.hostWords addr (d.take n))
  let s := s.putFrame (addr + 8 * n) (d.drop n)
  (s.setRf 0x220 47 45 2).msix 0 13

end Sys2Proof.Machine
end

