-- ==== Sys2Proof/Machine/DumpRows.lean ====
section
/-! DEFINITION. FATAL_DUMP_COMPLETE (R551). -/

namespace Sys2Proof.Machine

/-- FATAL_DUMP_COMPLETE (R551): a failed write into the host area starts again into flash. -/
def execFatalDumpComplete (hostFail flashFail : Bool) (s : State) : Host.Outcome State Fault Refusal :=
  .next (if s.rf 0x220 47 45 = 1 ∧ s.mode = .dry ∧ !s.board.inReset then
      let s := match s.flt.dump.area with
        | some x => if s.flt.dump.toFlash || hostFail || s.board.perst then s.dumpToFlash flashFail else s.dumpToHost x.1
        | none => s.dumpToFlash flashFail
      { s with free := s.free + 8192 }
    else s)

end Sys2Proof.Machine
end

