-- ==== Sys2Proof/Machine/EvtRows.lean ====
section
/-! DEFINITION. The rows of the event writer, of traces, bandwidth windows and counter dumps (16). -/

namespace Sys2Proof.Machine

/-- EVENT_RECORD_WRITE (R526, R531). -/
def execEventRecordWrite (s : State) : Host.Outcome State Fault Refusal :=
  .next (if s.writerOpen then
      let s := s.waitUntil s.writerTick
      if s.writerOpen then s.writeRecord else s
    else s)

/-- The write of the next record fails and is tried again 10 microseconds later (R531). -/
def execEventWriteRetry (s : State) : Host.Outcome State Fault Refusal :=
  .next (if s.writerOpen then
      let s := s.waitUntil s.writerTick
      if !s.writerOpen then s else { s with evt := { s.evt with retryAt := some (s.now + 10000) } }
    else s)

/-- GAP (R531): the counts of the records dropped, saturated. -/
def execEvtGap (s : State) : Host.Outcome State Fault Refusal :=
  let g (k : Nat) : Nat := min 65535 (smGet (fun _ => 0) s.evt.gap k)
  let r : EvRec :=
    { cls := 2, code := 0x081, rep := 0, tick := s.now, arg := mkWord [(32, g 1), (16, g 2), (0, g 3)] }
  .next (if s.running && s.evt.gapped && Nat.blt s.evt.staged.length (8 * s.rf 0x20008 6 0) then
      { s with evt := { s.evt with staged := insertRec r s.evt.staged, gap := [], gapped := false } }
    else s)

/-- HOLDOFF_US (R532). -/
def execHoldoffUs (s : State) : Host.Outcome State Fault Refusal :=
  .next (match s.evt.oldest with
    | none => s
    | some n =>
      if s.running then
        let s := s.waitUntil (n + s.rf 0x20005 31 0 * 1000)
        if s.running && s.evt.oldest == some n then s.signal9 else s
      else s)

/-- TRACE_END (R522). -/
def execTraceEnd (slot : BitVec 6) (s : State) : Host.Outcome State Fault Refusal :=
  .next (if s.running then
      match s.traceSlot slot.toNat with
      | some t =>
        (match t.ended with
          | some e => s.putTrace slot.toNat t e
          | none => s)
      | none => s
    else s)

/-- TRACE_TIMEOUT (R522). -/
def execTraceTimeout (slot : BitVec 6) (s : State) : Host.Outcome State Fault Refusal :=
  .next (if s.running then
      match s.traceSlot slot.toNat with
      | some t =>
        if t.ended.isNone then
          let s := s.waitUntil (t.base + 10 ^ 9)
          if s.running && s.traceSlot slot.toNat == some t then s.putTrace slot.toNat t (false, false, true) else s
        else s
      | none => s
    else s)

/-- BANDWIDTH_WINDOW_END (R513). -/
def execBandwidthWindowEnd (s : State) : Host.Outcome State Fault Refusal :=
  .next (if s.running && s.rb 0x40020 47 then
      let e := s.mon.bwFrom + s.rf 0x40020 29 0
      let s := s.waitUntil e
      if s.running && s.rb 0x40020 47 then
        let s := (List.range 1024).foldl State.bwPoint s
        { s with mon := { s.mon with bwFrom := e, bw := [] } }
      else s
    else s)

/-- COUNTER_DUMP_START (R516). -/
def execCounterDumpStart (s : State) : Host.Outcome State Fault Refusal :=
  .next (match s.dumpDue with
    | none => s
    | some e =>
      if s.running then
        let s := s.waitUntil e
        if s.running && s.dumpDue == some e then
          let s := { s with mon := { s.mon with dump := { s.mon.dump with next := s.mon.dump.next + 1 } } }
          if s.mon.dump.run.isSome then (s.bump 0x40032 1).notice 0x0C0 0 ((s.raw 0x40031).toNat % 2 ^ 24)
          else s.startDump
        else s
      else s)

/-- COUNTER_DUMP_END (R517): the body has been read, and the trailer follows. -/
def execCounterDumpEnd (s : State) : Host.Outcome State Fault Refusal :=
  .next (match s.mon.dump.run with
    | none => s
    | some (seq, n, fam) =>
      if s.running then
        let b := dumpBody fam
        let s := s.waitUntil (max s.now s.mon.dump.holdTill + ceilDiv (b - s.mon.dump.done) 8)
        if s.running && s.mon.dump.run == some (seq, n, fam) && s.mon.dump.done == b then
          let a := s.mon.dump.area
          let s := s.putFrame (a + 64 + 8 * b) [toWord seq, toWord s.tick48, s.raw 0x40032, 0, 0, 0, 0, 0]
          { s with mon := { s.mon with dump := { s.mon.dump with run := none } } }.msix 0 10
        else s
      else s)

end Sys2Proof.Machine
end

