-- ==== Sys2Proof/Machine/FaultRows.lean ====
section
/-! DEFINITION. The rows of faults and retirement (R25, R26, R39, R40, R420, R421, R528, R535 to R551). -/

namespace Sys2Proof.Machine

/-- RETIRE (R538 to R540); the service processor's port presents its automatic retirements. -/
def execRetire (c : Cmd) (s : State) : Host.Outcome State Fault Refusal := .next (s.command c (retireRule c))

/-- RESTORE (R541). -/
def execRestore (c : Cmd) (s : State) : Host.Outcome State Fault Refusal := .next (s.command c (restoreRule c))

/-- A class-3 RETIRE has moved its pages and retires (R420); `picks` choose the pages that take them. -/
def execPseudoChannelMoveDone (pc : BitVec 8) (picks : List Nat) (s : State) : Host.Outcome State Fault Refusal :=
  .next (match (if s.running then s.movingExec pc.toNat else none) with
    | none => s
    | some (q, _) =>
      let r := s.movePages pc.toNat picks
      (r.2.setRf (adPc pc.toNat) 20 20 0).endExec q stDone r.1 0)

/-- A class-3 RESTORE has rebuilt the free list, at 4 pages a tick (R421). -/
def execPseudoChannelRebuildDone (pc : BitVec 8) (s : State) : Host.Outcome State Fault Refusal :=
  .next (match (if s.running then s.rebuildExec pc.toNat else none) with
    | none => s
    | some (q, n) =>
      let s := s.waitUntil (n + 65536)
      if s.running then ((s.pcRebuilt pc.toNat).restored 3 pc.toNat).endExec q stDone 0 0 else s)

/-- The copy of an SRAM row to its spare, or back, is complete (Table 17.3, R541). -/
def execSpareRowCopyDone (row : BitVec 24) (s : State) : Host.Outcome State Fault Refusal :=
  .next (match (if s.running then s.flt.copying.find? (fun x => x.1 == row.toNat) else none) with
    | none => s
    | some (_, back) =>
      let s := { s with flt := { s.flt with copying := s.flt.copying.filter (fun x => x.1 != row.toNat) } }
      let s := if back then
          ({ s with flt := { s.flt with rows := smSet (fun _ => 0) s.flt.rows row.toNat 0 } }).restored 4 row.toNat
        else s
      match s.findExec (fun w => w == .rowCopy row.toNat) with
      | some (q, _) => s.endExec q stDone 0 0
      | none => s)

/-- A transient fault of a resource (R536, R537). -/
def execTransientFault (cls : BitVec 4) (index : BitVec 24) (s : State) : Host.Outcome State Fault Refusal :=
  .next (if s.running && s.mode != .spring && Nat.ble cls.toNat 5 && resOk cls.toNat index.toNat then
      s.transient cls.toNat index.toNat
    else s)

/-- A retry ends; that of a pipe lasts 1,000 ticks (Table 17.2). -/
def execRetryEnd (cls : BitVec 4) (index : BitVec 24) (s : State) : Host.Outcome State Fault Refusal :=
  .next (if s.running then
      let h := s.hist cls.toNat index.toNat
      let s := if cls.toNat = 5 ∧ h.busy then s.waitUntil (h.starts.headD 0 + 1000) else s
      if s.running then s.endRetry cls.toNat index.toNat else s
    else s)

/-- An uncorrectable memory error (R544). -/
def execMemUncorr (e : MemErr) (s : State) : Host.Outcome State Fault Refusal :=
  .next (if s.records && Nat.blt e.unit.toNat 22 then s.memError e else s)

/-- 64 ticks without a handshake from an island in service (R25). The host sees its own as a PCIe fault, and that of the
service processor is a watchdog expiry (R528). -/
def execHandshakeLoss (i : Island) (s : State) : Host.Outcome State Fault Refusal :=
  .next (if !s.running || s.mode == .spring then s
    else match i with
    | .tree t => if s.treeUp t.toNat then (s.treeLoss t.toNat (fun u => { u with handshake := true })).transient 1 t.toNat
      else s
    | .laneRx t l => if s.laneUp t.toNat (b2n l) then s.laneLoss t.toNat (b2n l) (fun v => { v with handshake := true }) else s
    | .port p => if s.rb (adPort p.toNat 0) 3 && !s.rb (adPort p.toNat 1) 16 then s.portHandshake p.toNat true else s
    | .hbm k => s.hbmLoss k.toNat true
    | .host => s
    | .sp => s)

/-- A PON lane's loss begins or ends: at the line, or of its receive island's handshake. -/
def execLaneLoss (t : BitVec 7) (l begins hs : Bool) (s : State) : Host.Outcome State Fault Refusal :=
  .next (if s.records then
      s.laneLoss t.toNat (b2n l) (fun v => if hs then { v with handshake := begins } else { v with lineLoss := begins })
    else s)

/-- An uplink MAC's loss begins or ends: at the line, or of its port island's handshake. -/
def execPortLoss (m : BitVec 8) (begins hs : Bool) (s : State) : Host.Outcome State Fault Refusal :=
  .next (if s.records then
      if hs then s.portHandshake (m.toNat / 8) begins else s.lineLoss m.toNat begins
    else s)

/-- The handshake loss of a tree transmit island begins or ends. -/
def execTreeLoss (t : BitVec 7) (begins : Bool) (s : State) : Host.Outcome State Fault Refusal :=
  .next (if s.records then s.treeLoss t.toNat (fun u => { u with handshake := begins }) else s)

/-- The handshake loss of an HBM island begins or ends. -/
def execHbmLoss (stack : BitVec 3) (begins : Bool) (s : State) : Host.Outcome State Fault Refusal :=
  .next (if s.records then s.hbmLoss stack.toNat begins else s)

/-- A fatal cause that no row of its own detects (R548). -/
def execFatalError (cause : BitVec 8) (src : BitVec 16) (detail : BitVec 24) (s : State) :
    Host.Outcome State Fault Refusal :=
  .next (if inRange 3 9 cause.toNat then s.fatal cause.toNat src.toNat detail.toNat else s)

/-- The core PLL loses lock (R26). -/
def execCorePllLockLost (s : State) : Host.Outcome State Fault Refusal := .next (s.fatal 0x03 0 0)

/-- TIM_TICK has not changed for 1 ms on the service processor's clock (R548). -/
def execCoreIslandHang (s : State) : Host.Outcome State Fault Refusal := .next (s.fatal 0x07 0 0)

/-- The watchdog expires, no earlier than 100 ms after the firmware started: the service processor's island is in reset for a
time that the spec leaves open, and its firmware starts again (R39). DESIGN CHOICE (entry 101): as after a device reset, its
command port goes first again (R32). -/
def execWatchdogExpiry (s : State) : Host.Outcome State Fault Refusal :=
  .next (if s.board.inReset || s.sp.held then s
    else
      let s := s.waitUntil (s.sp.started + 100000000)
      let l := s.expiriesNow
      let till := s.now + (if s.running then Config.spReset s.free else 0)
      let s := { s.drew with sp := { s.sp with
        expiries := l, expiryCount := s.sp.expiryCount + 1, started := till, resetTill := till, lastAdmission := none } }
      s.alarm 2 0x004 0 l.length)

/-- The watchdog has expired three times within 60 s: the service processor is held in reset (R40). -/
def execSpHeld (s : State) : Host.Outcome State Fault Refusal :=
  .next (if !s.board.inReset && !s.sp.held &&
        Nat.ble 3 (s.sp.expiries.filter (fun n => Nat.blt s.now (n + 60000000000))).length then
      ({ s with sp := { s.sp with held := true, policy := [] } }).alarm 3 0x005 0 0
    else s)

end Sys2Proof.Machine
end

