-- ==== Sys2Proof/Machine/LoadOps.lean ====
section
/-! DEFINITION. What the image loader does in SPRING: the choice of the slot, the sections applied (R564 to R568), and
the resources that fail (R570). -/

namespace Sys2Proof.Machine

/-! ### The commands of a section (R566, R567) -/

/-- STATUS of a refusal for an excluded word, opcode or sub-operation. -/
def stExcluded : Nat := 0xFF

/-- The command at the front of `ws`, its opcode, and the words after it; none where the section ends inside it. -/
def takeCmd (ws : List Word) : Option (Cmd × Nat × List Word) :=
  match ws with
  | [] => none
  | h :: r =>
    let n := hdrNops h
    if r.length < n then none
    else
      some ({ port := .queue 0, silent := hdrSilent h, irq := hdrIrq h, opflags := BitVec.ofNat 2 (fld h 33 32),
              args := BitVec.ofNat 32 (fld h 31 0), ops := r.take n }, hdrOpcode h, r.drop n)

/-- The steps of an insertion into a keyed table, to their end. -/
def State.loadSteps : Nat → Work → State → Nat × State
  | k + 1, .insert i replace, s =>
    match { s with start := s.toDevice }.insertTick .supervisor i replace with
    | .fin st _ _ x => (st, x)
    | .wait _ (.work _ w) x => State.loadSteps k w x
    | .wait _ _ x => (stDone, x)
    | .viol _ _ _ x => (stAborted, x)
  | _, _, s => (stDone, s)

/-- A command of a section is executed for the supervisor, in ticks of its own: its status, and the state that it leaves.
Violations end as on queue 0. -/
def State.loadRule (s : State) (r : CmdRule) : Nat × State :=
  let s := { s with start := s.toDevice, claims := [] }
  if r.form.isSome || (r.priv s .supervisor).isSome then (stAborted, s)
  else if !r.args s .supervisor then (stRejectArg, s)
  else
    match r.run s .supervisor 0 with
    | .fin st _ _ x => (st, x)
    | .wait _ (.work _ w) x => State.loadSteps 1000 w x
    | .wait _ _ x => (stDone, x)
    | .viol _ _ _ x => (stAborted, x)

/-- A REGDEF section may not name word `a`. -/
def regdefExcluded (a : Nat) : Bool :=
  Nat.blt a 0x4000 || (Nat.ble 0xC000 a && Nat.blt a 0x40000) || (Nat.ble 0x70000 a && Nat.blt a 0x80000) ||
    (Nat.ble 0x40018 a && Nat.ble a 0x4001C) || (Nat.ble 0x80020 a && Nat.ble a 0x80024) || a == 0x90010 ||
    (Nat.ble 0x1D00204 a && Nat.ble a 0x1D00207) ||
    (match treeOff a with
      | some o => Nat.ble 0x4008 o && Nat.ble o 0x400B
      | none => false)

/-- The effective default of the fields that a write of REGDEF sets (R557). -/
def State.noteDefault (s : State) (w : WordWrite) : State :=
  { s with regdef := smSet regFactory s.regdef w.addr (merge (s.effDefault w.addr) (regSetMask w.addr) w.value) }

/-- A command of REGDEF. -/
def State.loadReg (s : State) (c : Cmd) (op : Nat) : Nat × State :=
  let ws := writeWords c false
  if op ≠ 2 ∨ ws.any (fun w => regdefExcluded w.addr) then (stExcluded, s)
  else
    let x := s.loadRule (writeRule c false)
    (x.1, ws.foldl State.noteDefault x.2)

/-- The two copies of the generational tables change their part: the staging copy is the active one, and back. -/
def State.flipCopy (s : State) : State := s.setRf 0x1400408 16 16 (1 - s.rf 0x1400408 16 16)

/-- A command of TABLES; RULE_STAGE writes the active copy. -/
def State.loadTable (s : State) (c : Cmd) (op : Nat) : Nat × State :=
  if op = 0x06 then s.loadRule (tblInsertRule c)
  else if op = 0x0B then
    let x := s.flipCopy.loadRule (ruleStageRule c { slots := [], octets := [], took := 0 })
    (x.1, x.2.flipCopy)
  else if op = 0x0F ∧ onuOp c = 0 then
    s.loadRule (onuRule c (fun s => s.admitOk (onuArg c) c.ops) (fun s => s.admitWork c))
  else if op = 0x0F ∧ onuOp c = 4 then
    s.loadRule (onuRule c (fun s => (s.alloc (bindHandle c)).isNone) (fun s => s.bindWork c))
  else (stExcluded, s)

/-- How a section ends: refused, with the status and the body word of what was refused, or applied. -/
inductive Loaded where
  | refused (status offset : Nat)
  | applied (s : State)

/-- The commands of a section, of which `n` words have been read, are executed in order by `f`. -/
def loadCmds (f : State → Cmd → Nat → Nat × State) : Nat → Nat → List Word → State → Loaded
  | 0, _, _, s => .applied s
  | _ + 1, _, [], s => .applied s
  | k + 1, n, ws, s =>
    match takeCmd ws with
    | none => .refused stAborted n
    | some (c, op, rest) =>
      let x := f s c op
      if x.1 = stDone then loadCmds f k (n + (ws.length - rest.length)) rest x.2 else .refused x.1 n

/-- The bank records of SLUICE (R566); `seen` lists the banks filled, as 2 * tree + bank, with ACTIVE. -/
def loadBanks : Nat → Nat → List (Nat × Bool) → List Word → State → Loaded
  | 0, _, _, _, s => .applied s
  | _ + 1, _, _, [], s => .applied s
  | k + 1, n, seen, h :: r, s =>
    let count := fld h 34 22
    let t := fld h 21 15
    let b := fld h 14 14
    let on := bitOf h 13
    let bad := h &&& ~~~(maskOf 34 13) != 0 || count == 0 || Nat.blt 4096 count || Nat.blt r.length count ||
      seen.any (fun x => x.1 == 2 * t + b || (on && x.2 && x.1 / 2 == t))
    if bad then .refused stRejectArg n
    else
      let s := s.setRegs (adBank t b 0) (r.take count)
      if (sluBadWord (fun i => s.raw (adBank t b i))).isSome then .refused stAborted n
      else
        let s := s.setBankValid t b true
        let s := if on then s.setRf (adSluStatus t) 0 0 b else s
        loadBanks k (n + 1 + count) ((2 * t + b, on) :: seen) (r.drop count) s

/-- The body of a section of type `t` is applied. -/
def State.loadBody (s : State) (t : Nat) (ws : List Word) : Loaded :=
  if t = 2 then loadCmds State.loadReg ws.length 0 ws s
  else if t = 3 then loadCmds State.loadTable ws.length 0 ws s
  else loadBanks ws.length 0 [] ws s

/-- The section of type `t` of slot `b` is checked and applied: its status code, and the state. A refused section leaves
nothing, and the first one is told in IMG_FAIL. -/
def State.applySection (s : State) (b t : Nat) : Nat × State :=
  let code := s.secStatus b t
  if code ≠ 1 then (code, s)
  else
    let off := (s.section? b t).getD 0
    let body := s.flashWords (slotBase b) (off + 4) (s.secWords b off - 8)
    match { s with mode := .still }.loadBody t body with
    | .applied x => (1, { x with mode := s.mode, start := s.start, claims := s.claims })
    | .refused st n =>
      (7, if s.rf 0xC002 47 40 = 0 then s.setReg 0xC002 (mkWord [(40, t), (32, st), (0, n)]) else s)

/-! ### The choice of the slot and of the firmware (R564, R565) -/

/-- What the loader chose: the record's SEQ and slot, the slot booted, whether on trial, and FALLBACK. -/
structure BootPick where
  seq : Nat
  named : Nat
  slot : Option Nat
  trial : Bool
  fallback : Bool

/-- STRAP1: the loader acts as if no slot were usable. -/
def State.recovery (s : State) : Bool := s.board.straps.testBit 1

/-- A slot that the loader may boot. -/
def State.bootable (s : State) (b : Nat) : Bool := !s.recovery && s.slotUsable_ b

/-- The choice; `fail` tells that the record write of a trial fails. -/
def State.chooseSlot (s : State) (fail : Bool) : BootPick × State :=
  let r := s.newestBoot.getD { copy := 1, seq := 0, trial := false, slot := 0 }
  let x := if r.trial && !fail then s.writeBoot (1 - r.copy) ((r.seq + 1) % 2 ^ 32) false (1 - r.slot) else s
  let p := if r.trial && fail then 1 - r.slot else r.slot
  let slot := if s.bootable p then some p else if s.bootable (1 - p) then some (1 - p) else none
  ({ seq := r.seq, named := r.slot, slot := slot, trial := r.trial && !fail && slot == some r.slot,
     fallback := slot != some p || slot != some r.slot }, x)

/-- The firmware that runs: FW_SRC, its version and its RB. -/
def State.chooseFw (s : State) (slot : Option Nat) : Nat × Nat × Nat :=
  let of (b : Nat) : Nat × Nat :=
    let h := s.flashWords (slotBase b) ((s.section? b 1).getD 0) 3
    (fld (nth h 1 0) 47 16, fld (nth h 2 0) 6 0)
  match slot with
  | none => (2, Config.romVersion.toNat, 0)
  | some b =>
    if s.secStatus b 1 = 1 then (0, of b)
    else if s.slotUsable_ (1 - b) ∧ s.secStatus (1 - b) 1 = 1 then (1, of (1 - b))
    else (2, Config.romVersion.toNat, 0)

/-- Firmware starts; that of the ROM raises an alarm (R36). -/
def State.startFw (s : State) (fw : Nat × Nat × Nat) : State :=
  let s := { s with
    sp := { s.sp with fwVersion := fw.2.1, romFw := fw.1 == 2 }, img := { s.img with fwRb := fw.2.2 } }
  if fw.1 = 2 then s.alarm 1 0x003 0 0 else s

/-- A status that makes a section invalid is told (R565). -/
def State.tellInvalid (s : State) (t code : Nat) : State := if 2 ≤ code then s.alarm 14 0x025 t code else s

/-- The sections of the booted slot are applied in their order; RWS fields that a soft reset kept stay. -/
def State.applySections (s : State) (b fwCode : Nat) : State :=
  let keep := s.modeTick != 0
  let was := s
  let s := s.tellInvalid 1 fwCode
  let (c2, s) := s.applySection b 2
  let s := if keep then
      s.regdef.foldl (fun s x => s.setReg x.1 (merge (s.raw x.1) (regKeepMask x.1) (was.raw x.1))) s
    else s
  let s := s.tellInvalid 2 c2
  let (c3, s) := s.applySection b 3
  let s := s.tellInvalid 3 c3
  let (c4, s) := s.applySection b 4
  let s := s.tellInvalid 4 c4
  let rb (t code : Nat) : List Nat :=
    if code = 1 then [fld (s.flashWord (slotBase b) ((s.section? b t).getD 0 + 2)) 6 0] else []
  let s := { s with img := { s.img with rbs := rb 2 c2 ++ rb 3 c3 ++ rb 4 c4 } }
  (s.setReg 0xC001 (mkWord [(12, fwCode), (8, c2), (4, c3), (0, c4)])).setReg 0xC003
    (mkWord [(16, fld (s.flashWord (slotBase b) 1) 47 16)])

/-- The loader's part of SPRING (R564 to R567). -/
def State.loadImage (s : State) (fail : Bool) : State :=
  let (p, s) := s.chooseSlot fail
  let fw := s.chooseFw p.slot
  let none_ := p.slot.isNone
  let s := s.setReg 0xC000
    (mkWord [(16, p.seq), (11, b2n p.trial), (10, b2n p.fallback), (8, fw.1), (1, b2n none_), (0, p.slot.getD 0)])
  let s := s.startFw fw
  let s := if none_ || p.slot != some p.named then s.alarm 15 0x026 (p.slot.getD 0) (fw.1 + 4 * b2n none_) else s
  match p.slot with
  | some b => s.applySections b (s.secStatus b 1)
  | none => (s.setReg 0xC001 (sectWord (fun _ => 8))).setReg 0xC003 0

/-! ### Training and calibration (R570) -/

/-- A resource that fails in SPRING is retired; the answer tells that the retirement was refused. -/
def State.springRetire (s : State) (cls i : Nat) : Bool × State :=
  match s.retireRes true cls i with
  | .wait _ _ x => (false, if cls = 3 then x.setRf (adPc i) 20 20 0 else x)
  | .fin st _ _ x => (st != stDone, x)
  | .viol _ _ _ x => (true, x)

/-- Pseudo-channels that fail training: the stack of the first that cannot be retired, or of the 33rd. -/
def State.springPcs (s : State) (l : List Nat) : Option Nat × State :=
  let y : Option Nat × State := l.foldl (fun y i =>
    let x := y.2.springRetire 3 i
    (if x.1 && y.1.isNone then some (i / 32) else y.1, x.2)) (none, s)
  (if Nat.blt 32 l.length && y.1.isNone then some (nth l 32 0 / 32) else y.1, y.2)

/-- The free lists of the pseudo-channels in service (Table 18.7 step 8). -/
def State.freeLists (s : State) : State :=
  (List.range 256).foldl (fun s c => if s.isRetired 3 c then s else s.setRf (adPc c) 18 0 pcPages) s

/-- Both XTS keys of every tenant are drawn (R442). -/
def State.drawAllXts (s : State) : State :=
  (List.range 64).foldl (fun s t => ((s.drawXts t 0).drawXts t 1).setRf (adXts t 0) 45 45 1) s

end Sys2Proof.Machine
end

