-- ==== Sys2Proof/Machine/ImgRows.lean ====
section
/-! DEFINITION. The end of SPRING and of a flash operation (18). -/

namespace Sys2Proof.Machine

/-- SPRING_COMPLETE (R564 to R570): `pcs`, `lanes` and `ports` fail training or calibration; `writeFail`: the record
write of a trial fails. A pseudo-channel that cannot be retired is fatal. -/
def execSpringComplete (pcs lanes ports : List Nat) (writeFail : Bool) (s : State) : Host.Outcome State Fault Refusal :=
  let pcs := (pcs.filter (Nat.blt · 256)).eraseDups
  let lanes := (lanes.filter (Nat.blt · 256)).eraseDups
  let ports := (ports.filter (Nat.blt · 32)).eraseDups
  .next (if s.running && s.mode == .spring then
      let s := s.drawAllXts.loadImage writeFail
      let s := lanes.foldl (fun s i => (s.springRetire 0 i).2) s
      let s := ports.foldl (fun s i => (s.springRetire 2 i).2) s
      let (bad, s) := s.springPcs pcs
      match bad with
      | some k => s.fatal 9 k 0
      | none => s.freeLists.changeMode .still 1
    else s)

/-- ERASE (R571). -/
def State.imgErase (s : State) (o : ImgOp) (fail : Bool) (done : Nat) : State :=
  let d := if fail then min done o.len else o.len
  ((s.eraseFlash o.flash (o.flash + d)).setRf 0xC016 25 0 d).endImg o (if fail then 3 else 0)

/-- The octets of PROGRAM before the first target octet that is not erased. -/
def State.erasedRun (s : State) (a n : Nat) : Nat :=
  match s.img.flash.find? (fun x => Nat.ble a x.1 && Nat.blt x.1 (a + n)) with
  | some x => x.1 - a
  | none => n

/-- PROGRAM (R571). -/
def State.imgProgram (s : State) (o : ImgOp) (octets : List Byte) (hostFail flashFail : Bool) (done : Nat) : State :=
  let e := if hostFail || flashFail then min done o.len else o.len
  let d := s.erasedRun o.flash e
  let s := (s.putFlash o.flash (takePad d 0 octets)).setRf 0xC016 25 0 d
  s.endImg o (if d < e then 3 else if hostFail then 4 else if flashFail then 3 else 0)

/-- SET_BOOT and CONFIRM (R571). -/
def State.imgBoot (s : State) (o : ImgOp) (trial : Bool) (slot : Nat) (fail : Bool) (done : Nat) : State :=
  let (c, seq) := s.nextBoot
  let s := if fail && done == 0 then s else s.writeBoot c seq trial slot
  let s := if trial && !fail then s.eraseFlash (0x10000 * (1 - c)) (0x10000 * (1 - c) + 0x10000) else s
  s.endImg o (if fail then 3 else 0)

/-- ROLLBACK (R571). -/
def State.imgRollback (s : State) (o : ImgOp) (fail : Bool) : State :=
  if fail then s.endImg o 3
  else
    let f := max s.img.fwMin s.img.fwRb
    let i := s.img.rbs.foldl max s.img.imgMin
    let raised := f != s.img.fwMin || i != s.img.imgMin
    let s := { s with img := { s.img with fwMin := f, imgMin := i } }
    (if raised then s.notice 0x028 0 (f * 256 + i) else s).endImg o 0

/-- KEY_PROGRAM (R571). -/
def State.imgKey (s : State) (o : ImgOp) (octets : List Byte) (hostFail flashFail : Bool) : State :=
  if hostFail then s.endImg o 4
  else if flashFail then s.endImg o 3
  else { s with img := { s.img with key := some (keyOf (bytesNat (takePad 16 0 octets))) } }.endImg o 0

/-- IMG_OP_DONE (R571): the octets that come from host memory, failures, and how far the operation came. -/
def execImgOpDone (octets : List Byte) (hostFail flashFail : Bool) (done : Nat) (s : State) :
    Host.Outcome State Fault Refusal :=
  .next (match (if s.running then s.img.op else none) with
    | none => s
    | some o =>
      if o.bad ≠ 0 then s.endImg o o.bad
      else
        match o.op with
        | 0 => s.imgErase o flashFail done
        | 1 => s.imgProgram o octets hostFail flashFail done
        | 2 => if flashFail then s.endImg o 3 else (s.setReg 0xC015 (s.checkSlot (b2n o.slot))).endImg o 0
        | 3 => s.imgBoot o o.trial (b2n o.slot) flashFail done
        | 4 => s.imgBoot o false (s.rf 0xC000 0 0) flashFail done
        | 5 => s.imgRollback o flashFail
        | _ => s.imgKey o octets hostFail flashFail)

end Sys2Proof.Machine
end

