-- ==== Sys2Proof/Machine/KeyRows.lean ====
section
/-! DEFINITION. The rows of KEY_LOCK and KEY_OP, and the events of the key unit (R113, R438 to R452). -/

namespace Sys2Proof.Machine

/-- KEY_LOCK (R113, R448). -/
def execKeyLock (c : Cmd) (s : State) : Host.Outcome State Fault Refusal :=
  .next (s.command c (keyLockRule c))

/-- LOAD: a 16-octet key from the host into a slot. -/
def execKeyLoad (c : Cmd) (io : HostIo) (s : State) : Host.Outcome State Fault Refusal :=
  .next (s.row c (fun _ => keyRow c 0 (keyStart c io)))

/-- GEN: a random key into a slot. -/
def execKeyGen (c : Cmd) (io : HostIo) (s : State) : Host.Outcome State Fault Refusal :=
  .next (s.row c (fun _ => keyRow c 1 (keyStart c io)))

/-- ERASE: VALID 0, key zeroed. -/
def execKeyErase (c : Cmd) (s : State) : Host.Outcome State Fault Refusal :=
  .next (s.row c (fun _ => keyRow c 2 (keyStart c { slots := [], octets := [], took := 0 })))

/-- ECB_ENC. -/
def execEcbEnc (c : Cmd) (io : HostIo) (s : State) : Host.Outcome State Fault Refusal :=
  .next (s.row c (fun _ => keyRow c 3 (keyStart c io)))

/-- ECB_DEC. -/
def execEcbDec (c : Cmd) (io : HostIo) (s : State) : Host.Outcome State Fault Refusal :=
  .next (s.row c (fun _ => keyRow c 4 (keyStart c io)))

/-- ECB_DEC_SLOT: 16 host octets decrypted under a key-encryption key into a slot. -/
def execEcbDecSlot (c : Cmd) (io : HostIo) (s : State) : Host.Outcome State Fault Refusal :=
  .next (s.row c (fun _ => keyRow c 5 (keyStart c io)))

/-- CMAC_GEN: the tag of a host buffer. -/
def execCmacGen (c : Cmd) (io : HostIo) (s : State) : Host.Outcome State Fault Refusal :=
  .next (s.row c (fun _ => keyRow c 6 (keyStart c io)))

/-- CMAC_VERIFY: a message and its tag; TAG_FAIL where they disagree (R451). -/
def execCmacVerify (c : Cmd) (io : HostIo) (s : State) : Host.Outcome State Fault Refusal :=
  .next (s.row c (fun _ => keyRow c 7 (keyStart c io)))

/-- WRAP: a slot's key under a key-encryption key to host memory. -/
def execWrap (c : Cmd) (io : HostIo) (s : State) : Host.Outcome State Fault Refusal :=
  .next (s.row c (fun _ => keyRow c 8 (keyStart c io)))

/-- UNWRAP: 24 host octets into a slot, or TAG_FAIL with the slot unchanged (R451). -/
def execUnwrap (c : Cmd) (io : HostIo) (s : State) : Host.Outcome State Fault Refusal :=
  .next (s.row c (fun _ => keyRow c 9 (keyStart c io)))

/-- SET_TX: a switch of the transmit key index at a named frame (R438). -/
def execSetTx (c : Cmd) (s : State) : Host.Outcome State Fault Refusal :=
  .next (s.row c (fun _ => keyRow c 0xA (setTxWork c)))

/-- SET_ATTR. -/
def execSetAttr (c : Cmd) (s : State) : Host.Outcome State Fault Refusal :=
  .next (s.row c (fun _ => keyRow c 0xB (setAttrWork c)))

/-- SET_TX_SWITCH: at the target boundary the named slot takes over, and SET_TX retires (R438). -/
def execSetTxSwitch (s : State) : Host.Outcome State Fault Refusal :=
  .next (match s.nextTx with
    | some (_, _, d) =>
      let s := s.waitUntil d
      (match s.nextTx with
        | some (q, n, e) => if s.running && e == s.now then s.switchTx q n else s
        | none => s)
    | none => s)

/-- LEASE_EXP: the tick comes in which the lease runs out, and at its end the lock is released (R448). -/
def execLeaseExp (s : State) : Host.Outcome State Fault Refusal :=
  .next (match s.key.lock with
    | some (h, e) => if s.keyOpRuns h then s else (s.waitUntil e).endTick
    | none => s)

/-- XTS_KEY_DRAW: the other epoch of tenant `t` holds no page, so that its new key is drawn (R444). -/
def execXtsKeyDraw (t : BitVec 6) (s : State) : Host.Outcome State Fault Refusal :=
  let n := t.toNat
  let other := 1 - s.xtsEpoch n
  .next (if !s.xtsReady n && s.raw (adXts n (2 + other)) == 0 && s.running then
      (s.drawXts n other).setRf (adXts n 0) 45 45 1
    else s)

end Sys2Proof.Machine
end

