-- ==== Sys2Proof/Machine/MboxRows.lean ====
section
/-! DEFINITION. The service processor's answers to mailbox requests (R55, R547). -/

namespace Sys2Proof.Machine

/-- The answer to the request in progress: RSP_CODE, and the response words from 0x0111 on that Table 17.8 names. -/
def State.respond (s : State) (r : MboxReq) (code : Nat) (data : List Word) : State :=
  let s := s.setRegs 0x111 (data.take 15)
  let s := ((s.setRf 0x110 47 40 code).setRf 0x110 39 32 r.tag).setRf 0x110 0 0 1
  { s with sp := { s.sp with req := none } }

/-- The request in progress, where its code satisfies `p` and the service processor runs. -/
def State.mboxReq (s : State) (p : Nat → Bool) : Option MboxReq :=
  if s.board.inReset || s.spInReset then none else s.sp.req.filter (fun r => p r.code)

/-- HEALTH; a request of an unknown code is answered here too. -/
def execHealth (s : State) : Host.Outcome State Fault Refusal :=
  .next (match s.mboxReq (fun c => c == 1 || c == 0 || Nat.ble 7 c) with
    | none => s
    | some r =>
      if r.code = 1 then
        s.respond r 0 ([toWord s.sp.fwVersion, toWord ((s.now - s.sp.started) / 10 ^ 9), toWord s.sp.expiryCount] ++
          (List.range 6).map (fun c => toWord (smGet (fun _ => 0) s.flt.retries c)))
      else s.respond r 1 [])

/-- SENSOR: a temperature of sensors 0 to 19, or the voltage of rail i as sensor 32 + i. -/
def execSensor (s : State) : Host.Outcome State Fault Refusal :=
  .next (match s.mboxReq (· == 2) with
    | none => s
    | some r =>
      let i := fld (nth r.args 0 0) 7 0
      if i < 20 then s.respond r 0 [toWord (unsigned 48 (signed 24 (s.rf (0x8010 + i) 23 0)))]
      else if inRange 32 47 i then s.respond r 0 [toWord (s.rf (0x4010 + (i - 32)) 15 0)]
      else s.respond r 2 [])

/-- EYE: what the lane's eye monitor reads. -/
def execEye (height width : Word) (s : State) : Host.Outcome State Fault Refusal :=
  .next (match s.mboxReq (· == 3) with
    | none => s
    | some r => if fld (nth r.args 0 0) 8 0 < 256 then s.respond r 0 [height, width] else s.respond r 2 [])

/-- DUMP_FETCH: the flash dump goes to the host dump area, unless the transfer fails. -/
def execDumpFetch (hostFail : Bool) (s : State) : Host.Outcome State Fault Refusal :=
  .next (match s.mboxReq (· == 4) with
    | none => s
    | some r =>
      if !s.rb 0x220 44 then s.respond r 3 []
      else
        match s.flt.dump.area with
        | none => s.respond r 2 []
        | some x =>
          if hostFail || s.board.perst then s.respond r 4 []
          else (s.emit (.hostWords x.1 s.flt.dump.flash)).respond r 0 [toWord s.flt.dump.flash.length])

/-- DUMP_ERASE. -/
def execDumpErase (s : State) : Host.Outcome State Fault Refusal :=
  .next (match s.mboxReq (· == 5) with
    | none => s
    | some r =>
      ({ s.setRf 0x220 44 44 0 with flt := { s.flt with dump := { s.flt.dump with flash := [] } } }).respond r 0 [])

/-- An entry of the retirement history as the response shows it. -/
def retireWord (e : RetireEntry) : Word :=
  mkWord [(45, e.cls), (44, b2n e.restore), (24, bitsOf e.tick 47 28), (0, e.index)]

/-- RETIRE_LOG: 15 entries from the one asked for, newest first; no data where there is none. -/
def execRetireLog (s : State) : Host.Outcome State Fault Refusal :=
  .next (match s.mboxReq (· == 6) with
    | none => s
    | some r =>
      let l := s.flt.log.drop (fld (nth r.args 0 0) 9 0)
      if l.isEmpty then s.respond r 3 [] else s.respond r 0 (takePad 15 0 (l.map retireWord)))

end Sys2Proof.Machine
end

