-- ==== Sys2Proof/Machine/ModeCmds.lean ====
section
/-! DEFINITION. The rule of MODE (04). -/

namespace Sys2Proof.Machine

/-- TARGET of a MODE command. -/
def modeTarget (c : Cmd) : Nat := c.arg 2 0

/-- Table 4.2 leads from a mode to a target by a MODE command. -/
def modeReach (m : Mode) (target : Nat) : Bool :=
  match m, target with
  | .still, 2 => true
  | .flow, 3 => true
  | .flow, 4 => true
  | .weir, 2 => true
  | .dry, _ => false
  | _, 5 => true
  | _, _ => false

/-- MODE (R127 to R131, Table 4.6). -/
def modeRule (c : Cmd) : CmdRule :=
  let t := modeTarget c
  { opcode := 0x01, form := formCheck c 7 0 c.ops.isEmpty [],
    priv := fun _ p =>
      match p with
      | .supervisor => none
      | .operator => if inRange 1 4 t then none else some (0x05, 0, 0)
      | .tenant _ => some (0x05, 0, 0),
    spMay := t == 5,
    legal := fun s =>
      s.mode != .dry &&
        ([0, 5, 6, 7].contains t ||
          ((s.mode == .still || s.mode == .flow || s.mode == .weir) && (t == s.mode.code || modeReach s.mode t))),
    args := fun _ _ => inRange 1 5 t,
    run := fun s _ _ =>
      let m := s.start.mode.code
      if t = m then .done s 0 (m * 8 + m)
      else if s.start.mode == .weir && s.commitPending then .fin stRejectBusy 0 0 s
      else
        match modeOfCode t with
        | some .dry => .done (s.fatal (if c.port == .sp then 2 else 1) (if c.port == .sp then 64 else 0) 0) 0 (m * 8 + 5)
        | some x => .done (s.changeMode x 0) 0 (m * 8 + t)
        | none => .fin stRejectArg 0 0 s }

end Sys2Proof.Machine
end

