-- ==== Sys2Proof/Machine/ModeRows.lean ====
section
/-! DEFINITION. The rows of the modes, of frame boundaries and of lanes (04, R136 to R159, R178, R283 to R285). -/

namespace Sys2Proof.Machine

/-- The row of the MODE commands of the targets `l`. -/
def modeRow (c : Cmd) (l : List Nat) : Option CmdRule := if l.contains (modeTarget c) then some (modeRule c) else none

/-- MODE with TARGET 2 (R138). -/
def execModeFlow (c : Cmd) (s : State) : Host.Outcome State Fault Refusal := .next (s.row c (fun _ => modeRow c [2]))

/-- MODE with TARGET 3 (R140). -/
def execModeWeir (c : Cmd) (s : State) : Host.Outcome State Fault Refusal := .next (s.row c (fun _ => modeRow c [3]))

/-- MODE with TARGET 4 (R142). -/
def execModeDrain (c : Cmd) (s : State) : Host.Outcome State Fault Refusal := .next (s.row c (fun _ => modeRow c [4]))

/-- MODE with TARGET 5 (R149). -/
def execModeDry (c : Cmd) (s : State) : Host.Outcome State Fault Refusal := .next (s.row c (fun _ => modeRow c [5]))

/-- MODE with TARGET 1, and the reserved targets (R127, R128). -/
def execModeStill (c : Cmd) (s : State) : Host.Outcome State Fault Refusal := .next (s.row c (fun _ => modeRow c [0, 1, 6, 7]))

/-- The drain completes (R146). -/
def execDrainComplete (s : State) : Host.Outcome State Fault Refusal :=
  .next (if s.running && s.drainReady then s.drainDone else s)

/-- The drain limit expires (R147). -/
def execDrainLimit (s : State) : Host.Outcome State Fault Refusal :=
  .next (match s.limitTick with
    | some n =>
      if s.running then
        let u := s.waitUntil n
        if u.running && u.limitTick == some n then u.drainLimit else u
      else s
    | none => s)

/-- With the drain complete and no tree left in service, the device enters STILL (R146). -/
def execEnterStill (s : State) : Host.Outcome State Fault Refusal :=
  .next (match s.drain with
    | some d =>
      if s.running && d.done.isSome && !allTrees.any s.treeUp then
        s.changeMode .still (if s.drainLimited then 3 else 2)
      else s
    | none => s)

/-- A frame boundary of tree `t` (R136, R198). -/
def execFrameBoundary (t : BitVec 7) (s : State) : Host.Outcome State Fault Refusal :=
  .next (if s.running && s.mode != .spring then
      (s.toBoundary t.toNat).ifRuns (State.boundary · t.toNat) else s)

/-- The tree's stopping boundary (R178). -/
def execStoppingBoundary (t : BitVec 7) (s : State) : Host.Outcome State Fault Refusal :=
  .next (if s.running && (s.treeUp t.toNat && ((s.tree t.toNat).stopping || s.drain.any (fun d => d.done.isSome))) then
    (s.toBoundary t.toNat).ifRuns (State.stopBoundary · t.toNat) else s)

/-- The tree's first boundary 20,000 ticks after it came into service: it sends its first frame and starts its first
run (R138). -/
def execTreeFirstFrame (t : BitVec 7) (s : State) : Host.Outcome State Fault Refusal :=
  .next (match (s.tree t.toNat).since with
    | some n =>
      if s.running && s.treeUp t.toNat then
        let b := max (s.nextBoundaryTick t.toNat) (s.boundaryFrom t.toNat (max s.now (n + 20000)))
        (s.waitUntil b).ifRuns (State.boundary · t.toNat)
      else s
    | none => s)

/-- Lane `l` comes back into service (R159). -/
def execLaneReturnToService (t : BitVec 7) (l : Bool) (s : State) : Host.Outcome State Fault Refusal :=
  .next (match (s.lane t.toNat (b2n l)).returnAt with
    | some n =>
      if s.running then
        let b := max (s.nextBoundaryTick t.toNat) (s.boundaryFrom t.toNat (max s.now (n + 20000)))
        (s.waitUntil b).ifRuns (State.laneBoundary · t.toNat (b2n l))
      else s
    | none => s)

/-- One message of a lane is framed (R112). -/
def execMsgSendFramed (t : BitVec 7) (l : Bool) (s : State) : Host.Outcome State Fault Refusal :=
  .next (if s.running && s.laneUp t.toNat (b2n l) && (s.tree t.toNat).sending then s.frameMsg t.toNat (b2n l) else s)

/-- The pin of a lane with the edge that comes next, 1 PBRST or 2 PRSSI, and the tick of that edge. -/
def State.firstEdge (s : State) (t l : Nat) : Option (Nat × Nat) :=
  match s.nextEdge t l 1, s.nextEdge t l 2 with
  | some a, some b => if b < a then some (2, b) else some (1, a)
  | some a, none => some (1, a)
  | none, some b => some (2, b)
  | none, none => none

/-- The next edge on a burst-reset or RSSI pin of a lane, once no delimiter that is still being judged can move it (R283 to
R285). -/
def execBurstResetPulse (t : BitVec 7) (l : Bool) (s : State) : Host.Outcome State Fault Refusal :=
  let t := t.toNat
  let l := b2n l
  .next (match (if s.running then s.firstEdge t l else none) with
    | none => s
    | some (_, e) =>
      let u := s.waitUntil (e + s.pinLag t l)
      (match (if u.running then u.firstEdge t l else none) with
        | some (k, n) => if n + u.pinLag t l ≤ u.now then u.drivePin t l k n (u.pinLevel t l k n) else u
        | none => u))

end Sys2Proof.Machine
end

