-- ==== Sys2Proof/Machine/OhmRows.lean ====
section
/-! DEFINITION. The rows of the Ohmad ring: epochs, tokens, commits, mirror frames and takeovers (15). -/

namespace Sys2Proof.Machine

/-! ### Epoch commands (R117, R484 to R486) -/

/-- EPOCH of a command. -/
def epochArg (c : Cmd) : Nat := c.arg 31 0

/-- The epoch opens: nothing is staged. -/
def State.beginEpoch (s : State) (e : Nat) : State :=
  let s := (s.setRf (adOhm 0x10) 15 15 1).setRf (adOhm 0x11) 47 16 e
  (s.setRf (adOhm 0x14) 47 47 0).setRf (adOhm 0x14) 12 0 0 |>.setRegs (adOhm 0x15) [0, 0, 0]

/-- EPOCH_BEGIN (R117, R484). -/
def epochBeginRule (c : Cmd) : CmdRule :=
  { opcode := 0x16, form := formCheck c (2 ^ 32 - 1) 0 c.ops.isEmpty [], priv := privOper, spMay := false,
    legal := fun s => s.mode == .still || s.mode == .flow || s.mode == .weir,
    args := fun s _ => epochArg c == (s.committed + 1) % 2 ^ 32,
    run := fun s _ _ => .done (s.beginEpoch (epochArg c)) 0 (epochArg c) }

/-- EPOCH_BEGIN. -/
def execEpochBegin (c : Cmd) (s : State) : Host.Outcome State Fault Refusal := .next (s.command c (epochBeginRule c))

/-- The commit time of an EPOCH_COMMIT admitted now, in 2^-40 ns (R486). -/
def State.commitTime (s : State) : Nat :=
  (s.ntNs + (s.rf (adOhm 2) 31 16 + s.rf (adOhm 3) 15 0) * 1000) * 2 ^ 40

/-- EPOCH_COMMIT (R117, R485, R486). -/
def epochCommitRule (c : Cmd) : CmdRule :=
  { opcode := 0x17, form := formCheck c (2 ^ 32 - 1) 0 c.ops.isEmpty [], priv := privOper, spMay := false,
    legal := fun s => s.mode == .still || s.mode == .weir,
    args := fun s _ => s.epochOpen && epochArg c == s.openEpoch && s.ohmMaster && s.timeSet && s.stageOk,
    run := fun s _ _ =>
      if s.stageHeld || s.commitPending then .fin stRejectBusy 0 0 s
      else
        let t := s.commitTime
        .wait 0 .epoch ((s.pendCommit t).sendToken (some t)) }

/-- EPOCH_COMMIT. -/
def execEpochCommit (c : Cmd) (s : State) : Host.Outcome State Fault Refusal := .next (s.command c (epochCommitRule c))

/-! ### Tokens (R481 to R483, R487) -/

/-- VERSION, KIND and ORIGIN of an Ohmad frame. -/
def ohmVersion (ws : List Word) : Nat := fld (nth ws 0 0) 47 44
def ohmKind (ws : List Word) : Nat := fld (nth ws 0 0) 43 40

/-- An Ohmad frame can arrive on MAC `m`. -/
def State.ohmHears (s : State) (m : Nat) : Bool := s.ohmRuns && s.ohmPorts.contains m

/-- The OHM unit discards the frame (R481). -/
def State.ohmForeign (s : State) (ws : List Word) : Bool :=
  !s.ohmEn || ohmVersion ws != 1 || Nat.ble 2 (ohmKind ws)

/-- A token copy that is not discarded is counted. -/
def State.countToken (s : State) : State := (s.ohmCount 0).monEv 7 0 1 1

/-- A token from another origin (R482). -/
def State.strangeToken (s : State) (ws : List Word) : State :=
  let s := s.ohmCount 2
  if s.ohmMaster then (s.setRf (adOhm 8) 46 46 1).alarm 9 0x1C0 (tokOrigin ws) 0 else s

/-- A token arrives on MAC `m`, with nothing said of a commit. -/
def State.takeToken (s : State) (m : Nat) (ws : List Word) : State :=
  if s.ohmForeign ws then s.ohmCount 2
  else if tokOrigin ws != s.rf (adOhm 1) 47 36 then s.strangeToken ws
  else if s.ohmMaster then
    if s.ohm.out.any (fun t => t.seq == tokSeq ws && !t.late) then s.countToken.tokenBack m ws else s
  else
    let s := s.countToken
    (if s.tokenSeen ws then s else s.tokenFirst ws).passToken m ws

/-- The frame is the first copy of a commit token at a member that is not master. -/
def State.firstCommit (s : State) (ws : List Word) : Bool :=
  !s.ohmForeign ws && ohmKind ws == 0 && tokOrigin ws == s.rf (adOhm 1) 47 36 && !s.ohmMaster && tokCommit ws &&
    !s.tokenSeen ws

/-- TOKEN_RECEIVED (R481, R482). -/
def execTokenReceived (m : BitVec 8) (ws : List Word) (s : State) : Host.Outcome State Fault Refusal :=
  .next (if s.ohmHears m.toNat && ohmKind ws != 1 && !s.firstCommit ws then s.takeToken m.toNat ws else s)

/-- The commit of a token is accepted or refused, and the token counts that (R487). -/
def State.answerCommit (s : State) (ws : List Word) : State × List Word :=
  let w9 := nth ws 9 0
  if s.acceptsCommit ws then
    (s.pendCommit (tokC ws), takePad 9 0 ws ++ setFld w9 31 16 (fld w9 31 16 + 1) :: ws.drop 10)
  else (s.diverge 0, takePad 9 0 ws ++ setFld w9 15 0 (fld w9 15 0 + 1) :: ws.drop 10)

/-- COMMIT_TOKEN_RECEIVED (R487). -/
def execCommitTokenReceived (m : BitVec 8) (ws : List Word) (s : State) : Host.Outcome State Fault Refusal :=
  .next (if s.ohmHears m.toNat && s.firstCommit ws then
      let r := (s.countToken.tokenFirst ws).answerCommit ws
      r.1.passToken m.toNat r.2
    else s)

/-- MASTER_TOKEN_SEND (R482): every PERIOD_US from the last token on. -/
def execMasterTokenSend (s : State) : Host.Outcome State Fault Refusal :=
  .next (if s.ohmRuns && s.ohmMaster then
      let s := s.waitUntil ((s.ohm.sentAt.map (· + s.ohmPeriod)).getD 0)
      if s.ohmRuns && s.ohmMaster then s.sendToken none else s
    else s)

/-- TOKEN_COMPLETE (R483): every copy of a token has come back. -/
def execTokenComplete (s : State) : Host.Outcome State Fault Refusal :=
  .next (match (if s.ohmRuns then s.ohm.out.find? (fun t => t.left.isEmpty) else none) with
    | none => s
    | some t =>
      let s := (s.setRf (adOhm 8) 31 0 t.rtt).setRf (adOhm 8) 44 43 (if t.turned then 1 else 2)
      { s with ohm := { s.ohm with out := s.ohm.out.filter (fun x => x.seq != t.seq) } })

/-- A token's copies that are out have not come back in time (R483). -/
def State.lateToken (s : State) (t : TokenOut) : State :=
  let s := s.bump (adOhm 0x41) t.left.length
  let s := s.notice 0x1C2 0 (t.seq % 2 ^ 24)
  { s with ohm := { s.ohm with
    out := if t.commit then s.ohm.out.map (fun x => if x.seq = t.seq then { x with late := true } else x)
      else s.ohm.out.filter (fun x => x.seq != t.seq) } }

/-- TOKEN_LATE (R483). -/
def execTokenLate (s : State) : Host.Outcome State Fault Refusal :=
  .next (match (if s.ohmRuns then s.ohm.out.find? (fun t => !t.left.isEmpty && !t.late) else none) with
    | none => s
    | some t =>
      let s := s.waitUntil (t.at_ + s.rttLimit)
      if s.ohmRuns && s.ohm.out.contains t then s.lateToken t else s)

/-- The tick at which a member misses the token (R483). -/
def State.lostTick (s : State) : Nat := s.ohm.heardAt + s.ohmPeriod + s.rttLimit

/-- A member waits for a token and has not missed it yet. -/
def State.listens (s : State) : Bool := s.ohmRuns && s.ohmEn && !s.ohmMaster && !s.rb (adOhm 8) 45

/-- TOKEN_LOST (R483). -/
def execTokenLost (s : State) : Host.Outcome State Fault Refusal :=
  .next (if s.listens then
      let s := s.waitUntil s.lostTick
      if s.listens then (s.setRf (adOhm 8) 45 45 1).notice 0x1C3 0 0 else s
    else s)

/-! ### Commits and digests (R489, R490) -/

/-- The commit tick of the pending commit `c`; a NOTICE tells what has come back of a commit token that is still out (R487). -/
def State.commitAt (s : State) (c : Nat) : State :=
  let s := match (if s.ohmMaster then s.ohm.out.find? (fun t => t.commit && !t.left.isEmpty) else none) with
    | some t => s.event 2 0x1C4 (mkWord [(16, t.ack), (0, t.nack)])
    | none => s
  let s := if s.start.mode == .still || s.start.mode == .weir then s.commitNow c else s.dropCommit.diverge 1
  { s with ohm := { s.ohm with out := s.ohm.out.filter (fun t => !t.commit) } }

/-- COMMIT (R489). -/
def execRingCommit (s : State) : Host.Outcome State Fault Refusal :=
  .next (match s.ohm.commit with
    | none => s
    | some c =>
      if s.ohmRuns then
        let s := s.waitUntil (s.tickOfNt c)
        if s.ohmRuns && s.ohm.commit == some c then s.commitAt c else s
      else s)

/-- DIGEST_COMPLETE (R490). -/
def execDigestComplete (s : State) : Host.Outcome State Fault Refusal :=
  .next (match s.ohm.digRun with
    | none => s
    | some e =>
      if s.running then
        let s := s.waitUntil s.ohm.digAt
        if s.running && s.ohm.digRun == some e then s.endDigest e else s
      else s)

/-! ### Mirrored subscriber state (R495, R496) -/

/-- The device sends mirror records of tree `t`. -/
def State.mirrors (s : State) (t : Nat) : Bool := s.ohmRuns && s.ohmEn && s.activeRole t

/-- SFC_RECORD_SEND (R495). -/
def execSfcRecordSend (t : BitVec 7) (s : State) : Host.Outcome State Fault Refusal :=
  let t := t.toNat
  .next (if s.mirrors t then
      let n := smGet (fun _ => 0) s.ohm.sfcSent t
      let s := s.waitUntil (if n = 0 then 0 else n - 1 + s.ohmPeriod)
      if s.mirrors t then
        { s with ohm := { s.ohm with sfcSent := smSet (fun _ => 0) s.ohm.sfcSent t (s.now + 1) } }.sendMirror t
          [s.sfcRecord t false]
      else s
    else s)

/-- MIRROR_CHANGE_SEND (R495). -/
def execMirrorChangeSend (t : BitVec 7) (s : State) : Host.Outcome State Fault Refusal :=
  .next (if s.mirrors t.toNat then s.sendItems t.toNat (s.mirChanged t.toNat) else s)

/-- MIRROR_REFRESH (R495). -/
def execMirrorRefresh (t : BitVec 7) (s : State) : Host.Outcome State Fault Refusal :=
  let t := t.toNat
  .next (if s.mirrors t then
      let n := smGet (fun _ => 0) s.ohm.refreshed t
      let s := s.waitUntil (if n = 0 then 0 else n - 1 + s.rf (adOhm 4) 15 0 * 10 ^ 6)
      if s.mirrors t then
        { s with ohm := { s.ohm with refreshed := smSet (fun _ => 0) s.ohm.refreshed t (s.now + 1) } }.sendItems t
          (s.mirUsed t)
      else s
    else s)

/-- What a mirror frame holds: a HANDOVER record, or else a RELEASED or LOSS record, or neither. -/
inductive MirKind where
  | handover | release | plain
deriving DecidableEq, Repr

/-- The kind of a mirror frame. -/
def mirKind (ws : List Word) : MirKind :=
  match mirRecords (fld (nth ws 0 0) 15 8) (ws.drop 2) with
  | none => .plain
  | some recs =>
    if recs.any (fun r => fld r.1 47 44 == 4) then .handover
    else if recs.any (fun r => fld r.1 47 44 == 5 || (fld r.1 47 44 == 0 && bitOf r.1 27)) then .release
    else .plain

/-- A mirror frame of one kind arrives on MAC `m`. -/
def State.takeMirror (s : State) (m : Nat) (ws : List Word) (k : MirKind) : State :=
  if s.ohmHears m && ohmKind ws == 1 && mirKind ws == k then
    if s.ohmForeign ws then s.ohmCount 2 else s.mirFrame m ws
  else s

/-- MIRROR_FRAME_RECEIVED (R496). -/
def execMirrorFrameReceived (m : BitVec 8) (ws : List Word) (s : State) : Host.Outcome State Fault Refusal :=
  .next (s.takeMirror m.toNat ws .plain)

/-! ### Protection switchover (R498, R499) -/

/-- HANDOVER: a frame with a HANDOVER record (R498). -/
def execHandover (m : BitVec 8) (ws : List Word) (s : State) : Host.Outcome State Fault Refusal :=
  .next (s.takeMirror m.toNat ws .handover)

/-- TAKEOVER on a RELEASED or LOSS record (R499); that on silence is SILENCE_TIMEOUT's. -/
def execTakeover (m : BitVec 8) (ws : List Word) (s : State) : Host.Outcome State Fault Refusal :=
  .next (s.takeMirror m.toNat ws .release)

/-- Silence of the active member of tree `t` counts (R498). -/
def State.awaitsSfc (s : State) (t : Nat) : Bool := s.ohmRuns && s.ohmAuto t && s.mayTake t

/-- SILENCE_TIMEOUT (R498). -/
def execSilenceTimeout (t : BitVec 7) (s : State) : Host.Outcome State Fault Refusal :=
  let t := t.toNat
  let n := smGet (fun _ => 0) s.ohm.silent t
  .next (if s.awaitsSfc t && n != 0 then
      let s := s.waitUntil (n - 1 + s.rf (adOhm 3) 31 16 * 10 ^ 6)
      if s.awaitsSfc t && smGet (fun _ => 0) s.ohm.silent t == n then s.stampTakeover t 2 else s
    else s)

/-- HANDOVER_TIMEOUT (R498). -/
def execHandoverTimeout (t : BitVec 7) (s : State) : Host.Outcome State Fault Refusal :=
  let t := t.toNat
  let n := smGet (fun _ => 0) s.ohm.asked t
  .next (if s.ohmRuns && n != 0 then
      let s := s.waitUntil (n - 1 + 2 * s.rttLimit)
      if s.ohmRuns && smGet (fun _ => 0) s.ohm.asked t == n then
        { s with ohm := { s.ohm with asked := smSet (fun _ => 0) s.ohm.asked t 0 } }.notice 0x1C7 t 0
      else s
    else s)

end Sys2Proof.Machine
end

