-- ==== Sys2Proof/Machine/OnuRows.lean ====
section
/-! DEFINITION. The rows of ONU_OP and MSG_SEND (R109 to R112, R250 to R257). -/

namespace Sys2Proof.Machine

/-- ADMIT. -/
def execOnuAdmit (c : Cmd) (s : State) : Host.Outcome State Fault Refusal :=
  .next (s.row c (fun _ => onuAdmitRow c))

/-- UPDATE (R252). -/
def execOnuUpdate (c : Cmd) (s : State) : Host.Outcome State Fault Refusal :=
  .next (s.row c (fun _ => onuUpdateRow c))

/-- REMOVE (R256). -/
def execOnuRemove (c : Cmd) (s : State) : Host.Outcome State Fault Refusal :=
  .next (s.row c (fun _ => onuRemoveRow c))

/-- SET_OWNER (R61). -/
def execSetOwner (c : Cmd) (s : State) : Host.Outcome State Fault Refusal :=
  .next (s.row c (fun _ => setOwnerRow c))

/-- BIND_ALLOC. -/
def execBindAlloc (c : Cmd) (s : State) : Host.Outcome State Fault Refusal :=
  .next (s.row c (fun _ => bindAllocRow c))

/-- UNBIND_ALLOC (R255). -/
def execUnbindAlloc (c : Cmd) (s : State) : Host.Outcome State Fault Refusal :=
  .next (s.row c (fun _ => unbindAllocRow c))

/-- SET_EQD (R253, R254, R257). -/
def execSetEqd (c : Cmd) (s : State) : Host.Outcome State Fault Refusal :=
  .next (s.row c (fun _ => setEqdRow c))

/-- MSG_SEND of type 0 (R110). -/
def execPloamUnicast (c : Cmd) (s : State) : Host.Outcome State Fault Refusal := .next (s.row c (fun _ => ploamRow 0 c))

/-- MSG_SEND of type 1 (R110). -/
def execPloamBroadcast (c : Cmd) (s : State) : Host.Outcome State Fault Refusal := .next (s.row c (fun _ => ploamRow 1 c))

/-- MSG_SEND of type 2 (R111). -/
def execOmci (c : Cmd) (io : HostIo) (s : State) : Host.Outcome State Fault Refusal := .next (s.row c (fun _ => omciRow c io))

end Sys2Proof.Machine
end

