-- ==== Sys2Proof/Machine/PathRows.lean ====
section
/-! DEFINITION. The rows of the data plane: uplink reception, decisions, Confluence, Catchment, queues, lanes, MACs and gates
(05, 09, 10, 12). A row whose happening has a tick of its own waits for it, and then looks again whether it can take place. -/

namespace Sys2Proof.Machine

/-! ### Uplink reception (R142, R191, R469) -/

/-- MAC `m` receives: its island runs, and the mode is not SPRING. -/
def State.uplReceives (s : State) (m : Nat) : Bool := s.running && s.start.mode != .spring && s.macReceives m

/-- Octets received on an uplink MAC leave it 95 ns after they were at the balls (R191, Table 1.4). -/
def execUplinkFrameReceived (m : BitVec 8) (f : UplFrame) (s : State) : Host.Outcome State Fault Refusal :=
  .next (if s.uplReceives m.toNat then
      let n := (((s.rxOf m.toNat).map (·.octets)).getD []).length + f.octets.length
      let u := s.waitUntil (s.rxTick m.toNat n f.sfd)
      if u.uplReceives m.toNat then (u.rxFrame m.toNat f).finishGoing else u
    else s)

/-! ### Decisions -/

/-- The next parsed packet head enters a lookup pipe, behind re-entries that are due, whose tables may give words that had a single-bit error (R342, R343,
R543). -/
def execPipeDecision (pipe : BitVec 5) (x : LookupIn) (s : State) : Host.Outcome State Fault Refusal :=
  .next (match (if s.traffic && s.pipeUp pipe.toNat then s.headAt else none) with
    | some n =>
      let u := s.waitUntil n
      (match (if u.traffic && u.pipeUp pipe.toNat then u.nextArrival u.now else none) with
        | some a => (u.oxDue.firstPass pipe.toNat a x.pick).wordsFixed x.fixed
        | none => u)
    | none => s)

/-- A packet re-enters a pipe 20 ns after its first decision (R358). -/
def execOxbowReentry (pipe : BitVec 5) (x : LookupIn) (s : State) : Host.Outcome State Fault Refusal :=
  .next (match (if s.traffic && s.pipeUp pipe.toNat then s.nextOx else none) with
    | some o =>
      let u := s.waitUntil (o.at_ + 20)
      (match (if u.traffic && u.pipeUp pipe.toNat then u.nextOx else none) with
        | some o => (u.secondPass pipe.toNat o x.pick).wordsFixed x.fixed
        | none => u)
    | none => s)

/-- The oldest flooded packet whose list has been walked. -/
def State.floodWalked (s : State) : Option Flood := s.cls.floods.find? (fun f => Nat.ble f.len f.next)

/-- A list has been walked, the first to be so, and its packet's copies are made (R401). -/
def execReplication (picks : List Nat) (s : State) : Host.Outcome State Fault Refusal :=
  let left := s.floodsRead.map (fun f => ceilDiv (f.len - f.next) 3)
  .next (match (if s.traffic then s.cls.floods.head? else none) with
    | some _ =>
      let u := if s.floodWalked.isSome then s else s.waitUntil (s.now + left.foldl min (left.headD 0))
      (match (if u.traffic then u.floodWalked else none) with
        | some f => u.replicate f picks
        | none => u)
    | none => s)

/-! ### Catchment and Confluence -/

/-- The next cell of a packet is requested (R408). -/
def execCellAllocation (pkt pick : Nat) (s : State) : Host.Outcome State Fault Refusal :=
  .next (if s.traffic then s.laterCell pkt pick else s)

/-- A bank's free list has been rebuilt: from the allocation bitmap of its 24,576 cells, at 4 cells per tick (R411). -/
def execFreeListRebuild (bank : BitVec 6) (s : State) : Host.Outcome State Fault Refusal :=
  .next (match (if s.running then smGet (fun _ => none) s.cat.rebuild bank.toNat else none) with
    | some n =>
      let u := s.waitUntil (n + bankCells / 4)
      if u.running && smGet (fun _ => none) u.cat.rebuild bank.toNat == some n then
        { u with cat := { u.cat with rebuild := smSet (fun _ => none) u.cat.rebuild bank.toNat none } }
      else u
    | none => s)

/-- One slot of Confluence (R394): that of the present tick, or of the next one where that has been done. -/
def execConfluenceSlot (s : State) : Host.Outcome State Fault Refusal :=
  .next (if s.traffic then
      let u := match s.cfl.lastSlot with
        | some n => s.waitUntil (n + 1)
        | none => s
      if u.traffic then u.cflSlot.finishGoing else u
    else s)

/-- The cell that output `o` holds longest. -/
def State.heldLongest (s : State) (o : Nat) : Option (FCell × Nat) := (smGet (fun _ => []) s.cfl.reseq o).head?

/-- A spread cell has been held for 128 slots at output `o` (R399). -/
def execResequencerTimeout (o : BitVec 6) (s : State) : Host.Outcome State Fault Refusal :=
  .next (match (if s.traffic then s.heldLongest o.toNat else none) with
    | some x =>
      let u := s.waitUntil (x.2 + 128)
      if u.traffic && u.heldLongest o.toNat == some x then (u.reseqSkip o.toNat x.1).finishGoing else u
    | none => s)

/-- A packet with cells becomes bad through an error that hits it (R403). -/
def execPacketBad (pkt : Nat) (cut : Bool) (s : State) : Host.Outcome State Fault Refusal :=
  .next (match (if s.running then s.pkt pkt else none) with
    | some p => (s.makeBad p.grp cut).finishGoing
    | none => s)

/-! ### Queues -/

/-- A packet's first cell leaves Confluence and it is checked into its downstream queue (R316). -/
def execEnqueue (pkt : Nat) (picks : List Nat) (s : State) : Host.Outcome State Fault Refusal :=
  .next (match (if s.traffic then s.pkt pkt else none) with
    | some p =>
      (match p.nextQueue with
        | some (h, x) => s.enqueue pkt p h x picks
        | none => s)
    | none => s)

/-- Packet `i`, `p`, enters queue `c` of MAC `m`, or is dropped and counted by the state at the start of the tick (R195, R197, R332). The queue's own counters have no
address in the spec; they are counter set family 6 (entry 102). -/
def State.egressEnqueue (s : State) (i : Nat) (p : Packet) (m c : Nat) : State :=
  let q := 8 * m + c
  let b := s.atStart
  let up := b.macUp m && (!b.macOhmad m || isPtp p.octets)
  if up && Nat.blt (b.egCells q) (b.rf (adEgQueue m c 0) 19 0) then
    let s := s.setEgq q (s.egq q ++ [{ pkt := i, len := p.len, at_ := s.now }])
    (s.modPkt i (fun p => { p with dests := p.dests.erase (.mac m c) })).traceStage p.trace 5
  else
    let s := if up then s.bumpSet 6 q 0 1 else s.bump (adMacStat m 33) 1
    (s.traceEnds p.trace true false false).dropDest i (.mac m c)

/-- A packet enters an egress queue, or is dropped (R195, R332). -/
def execEgressEnqueue (pkt : Nat) (s : State) : Host.Outcome State Fault Refusal :=
  .next (match (if s.traffic then s.pkt pkt else none) with
    | some p =>
      (match p.nextMac with
        | some (m, c) => s.egressEnqueue pkt p m c
        | none => s)
    | none => s)

/-- Lane `l` of tree `t` asks for an SDU in this tick. -/
def State.laneAsks (s : State) (t l : Nat) : Bool := s.traffic && s.laneAccepts t l && !s.laneBusy t l

/-- The tick from which a request of the lane can be served: 4 ticks after its last one (R326). -/
def State.laneTick (s : State) (t l : Nat) : Nat :=
  let last := smGet (fun _ => 0) s.dsq.lastReq (2 * t + l)
  if last = 0 then s.now else max s.now (last + 3)

/-- The other lane asks in this tick too and comes first: its transmit position is earlier, or equal and it is lane 0 (R170,
R326). -/
def State.otherFirst (s : State) (t l : Nat) : Bool :=
  let o := 1 - l
  s.laneAsks t o && s.laneTick t o == s.now &&
    (Nat.blt (s.lane t o).txPos (s.lane t l).txPos || ((s.lane t o).txPos == (s.lane t l).txPos && Nat.blt o l))

/-- A lane asks for an SDU (R326). -/
def execLaneRequest (t : BitVec 7) (l : Bool) (s : State) : Host.Outcome State Fault Refusal :=
  .next (if s.laneAsks t.toNat (b2n l) then
      let u := s.waitUntil (s.laneTick t.toNat (b2n l))
      if u.laneAsks t.toNat (b2n l) && !u.otherFirst t.toNat (b2n l) then u.serveLane t.toNat (b2n l) else u
    else s)

/-- A node on the coarse wheel moves to the fine one where its coarse slot has begun (R328). -/
def State.toFine (s : State) (node r : Nat) : State :=
  match s.bucket? node r with
  | some b =>
    match b.coarse with
    | some n =>
      let b := { b with coarse := none }
      let u := s.waitUntil n
      if u.running then (u.wheelEv node b).putBucket node r (some b) else u
    | none => s
  | none => s

/-- A node's slot on the calendar wheels arrives, and its bucket is available again (R328). -/
def execCalendarEligible (node : Nat) (excess : Bool) (s : State) : Host.Outcome State Fault Refusal :=
  .next (match (if s.running then (s.bucket? node (b2n excess)).bind (·.slot) else none) with
    | some n =>
      let u := (s.toFine node (b2n excess)).waitUntil n
      (match (if u.running then u.bucket? node (b2n excess) else none) with
        | some b => if b.slot = some n then u.putBucket node (b2n excess) (some { b with slot := none }) else u
        | none => u)
    | none => s)

/-! ### Pages (R319, R417) -/

/-- A full page is written, in a tick after that of its stamp (R417, R443). -/
def execPageWrite (p : BitVec 26) (s : State) : Host.Outcome State Fault Refusal :=
  .next (match (if s.traffic then s.page p.toNat else none) with
    | some _ =>
      let u := if s.cat.stamped.contains p.toNat then s.endTick else s
      (match (if u.traffic then u.page p.toNat else none) with
        | some g => if !g.written && g.fill == pageData && u.pagePresent g then u.writePage p.toNat g else u
        | none => u)
    | none => s)

/-- The open page of queue `h`, where its octets are present. -/
def State.flushable (s : State) (h : Nat) : Option (Nat × Page) :=
  (if s.traffic then (s.dq h).openPage else none).bind (fun p =>
    ((s.page p).filter s.pagePresent).map (fun g => (p, g)))

/-- The tick in which the open page of queue `h` has got nothing for FLUSH_NS. -/
def State.pageFlushTick (s : State) (h : Nat) : Nat := (s.dq h).lastAdd + s.rf 0x1D00210 15 0

/-- An open page to which nothing was added for FLUSH_NS is written partly filled (R417). -/
def execPageFlush (h : BitVec 19) (s : State) : Host.Outcome State Fault Refusal :=
  .next (match s.flushable h.toNat with
    | some _ =>
      let u := s.waitUntil (s.pageFlushTick h.toNat)
      (match (if u.pageFlushTick h.toNat ≤ u.now then u.flushable h.toNat else none) with
        | some (p, g) => ((u.setDq h.toNat { u.dq h.toNat with openPage := none }).bump 0x1D00409 1).writePage p g
        | none => u)
    | none => s)

/-- Up to 8 pages of the queue's oldest HBM-held packets are read back; words with a single-bit error are
corrected and counted (R319, R543). -/
def execPageReadBack (x : PagesIn) (s : State) : Host.Outcome State Fault Refusal :=
  let pages := ((((s.dq x.queue.toNat).entries.flatMap (·.pages)).eraseDups).take 8).filter (fun p =>
    (s.page p).any (fun g => g.written && !g.back))
  .next (if s.traffic && !pages.isEmpty then
      (pages.foldl (fun s p =>
        (s.setPage p ((s.page p).map (fun g => { g with back := true }))).monEv 20 (p / pcPages / 32) 2 1) s).bump
          (0x300 + 2 * 20) x.fixed
    else s)

/-! ### MACs and gates -/

/-- Two frames of port `p` have started in this tick. -/
def State.twoStarted (s : State) (p : Nat) : Bool :=
  Nat.ble 2 ((smGet (fun _ => []) s.dsq.lastStart p).filter (· == s.now)).length

/-- MAC `m` selects its next frame, once its line is free (R333). -/
def execMacFrameStart (m : BitVec 8) (s : State) : Host.Outcome State Fault Refusal :=
  .next (if s.traffic && s.macUp m.toNat then
      let u := s.waitUntil (ceilDiv (smGet (fun _ => 0) s.dsq.lineFree m.toNat) 100)
      if u.traffic && u.macUp m.toNat && !u.twoStarted (m.toNat / 8) then u.startFrame m.toNat else u
    else s)

/-- The gate list of MAC `m` comes to an entry of a bank. -/
def State.enterGate (s : State) (m bank i : Nat) : State :=
  let s := (s.setRf (adGate m 6) 9 0 i).settleEgress m
  if bitOf (s.gateEntry (m / 8) bank i) 32 then s.traceEv 0x3C0 m (bank * 1024 + i) else s

/-- The next entry of the gate list of MAC `m` starts (R335). -/
def execGateEntry (m : BitVec 8) (s : State) : Host.Outcome State Fault Refusal :=
  .next (match (if s.running then (s.gatesAt m.toNat s.gateNow).2.2 else none) with
    | some y =>
      let u := s.waitUntil (s.tickOfNt (y * 2 ^ 40))
      (match (if u.running then (u.gatesAt m.toNat u.gateNow).2.1 else none) with
        | some (bank, i) => u.enterGate m.toNat bank i
        | none => u)
    | none => s)

/-- CCT of a pending change (R335). -/
def execGateListChangeTime (m : BitVec 8) (s : State) : Host.Outcome State Fault Refusal :=
  .next (match (if s.running then (s.gates m.toNat).pending else none) with
    | some cct =>
      let u := s.waitUntil (s.tickOfNt (cct * 2 ^ 40))
      if u.running && (u.gates m.toNat).pending == some cct then u.changeGates m.toNat u.gateNow else u
    | none => s)

/-- A member that is not up gives up its packets (R195). -/
def execLagMemberDown (m : BitVec 8) (s : State) : Host.Outcome State Fault Refusal :=
  .next (if s.running then s.emptyMac m.toNat else s)

/-! ### The punt path (R423, R424) -/

/-- The next punted packet, while the punt path runs. -/
def State.puntDue (s : State) : Option (Nat × Packet) :=
  if s.running && s.start.mode != .spring then s.nextPunt else none

/-- The next punted packet, once the punt shaper releases it, is written to the punt ring. -/
def execPuntRecordWrite (s : State) : Host.Outcome State Fault Refusal :=
  .next (match s.puntDue with
    | some (i, p) =>
      if p.bad then (s.bump (0x1C00001 + 4 * 31) 1).killPkt i
      else
        let u := match (s.bucket? ndPunt 0).bind (·.slot) with
          | some n => s.waitUntil n
          | none => s
        (match u.puntDue with
          | some (i, p) => if p.bad then (u.bump (0x1C00001 + 4 * 31) 1).killPkt i else u.puntRecord i p
          | none => u)
    | none => s)

end Sys2Proof.Machine
end

