-- ==== Sys2Proof/Machine/QueueRows.lean ====
section
/-! DEFINITION. NOP, FENCE and THAW, the host's writes to queue pages, fetches, failed transfers and function-level resets
(02, 03). -/

namespace Sys2Proof.Machine

/-- NOP (R89). -/
def execNop (c : Cmd) (s : State) : Host.Outcome State Fault Refusal := .next (s.command c (nopRule c))

/-- FENCE (R96). -/
def execFence (c : Cmd) (s : State) : Host.Outcome State Fault Refusal := .next (s.command c (fenceRule c))

/-- THAW (R88). -/
def execThaw (c : Cmd) (s : State) : Host.Outcome State Fault Refusal := .next (s.command c (thawRule c))

/-! ### Host writes to queue pages (R57, R68, R70, R78); the device ignores bits 63:48 of a slot (R44) -/

/-- CMD_DOORBELL (R70). -/
def execCmdDoorbell (fn q : BitVec 6) (value : BitVec 64) (s : State) : Host.Outcome State Fault Refusal :=
  let t := fld (wordOf value) 19 0
  .next (s.barWrite (s.pageOpen fn.toNat q.toNat && s.doorbellOk q.toNat t) (fun s => s.ringDoorbell q.toNat t))

/-- CMD_RING_BASE, CMD_RING_SIZE, CMD_CPL_BASE and CMD_CPL_SIZE (R68). -/
def execRingControlWrite (fn q : BitVec 6) (off : BitVec 2) (value : BitVec 64) (s : State) :
    Host.Outcome State Fault Refusal :=
  .next (s.barWrite (s.pageOpen fn.toNat q.toNat && s.ringFree q.toNat) (fun s =>
    s.ringControl q.toNat off.toNat (wordOf value)))

/-- CMD_CPL_HEAD (R78). -/
def execCmdCplHead (fn q : BitVec 6) (value : BitVec 64) (s : State) : Host.Outcome State Fault Refusal :=
  .next (s.barWrite (s.pageOpen fn.toNat q.toNat) (fun s => s.cplConsumed q.toNat (fld (wordOf value) 15 0)))

/-- A host write of fewer than 8 octets, or to a word that the host does not write, has no effect and is counted (R31, R42,
R57). -/
def execHostBarWriteDiscard (fn : BitVec 6) (addr : BitVec 28) (_value : BitVec 64) (short : Bool) (s : State) :
    Host.Outcome State Fault Refusal :=
  .next (if short || !s.hostWord fn.toNat addr.toNat then s.barWrite false id else s)

/-! ### Fetches and failed transfers (R72, R80, R599) -/

/-- Words of the command ring arrive (R67, R72). -/
def execCommandFetch (q : BitVec 6) (slots : List (BitVec 64)) (s : State) : Host.Outcome State Fault Refusal :=
  let u := s.waitUntil (s.queue q.toNat).fetchAt
  .next (if u.fetches q.toNat then u.fetchWords q.toNat (slots.map wordOf) else u)

/-- A transfer of queue `q` fails: 0 a fetch, 1 the completion write made last, 2 and 3 a data transfer. It is made again 10
microseconds later, or gives up with the queue's budget (R80). -/
def State.transferFails (s : State) (q kind : Nat) : State :=
  if kind = 0 then
    let u := s.waitUntil (s.queue q).fetchAt
    if u.fetches q && u.fetchable q != 0 then u.fetchFails q else u
  else if kind = 1 then s.cplFails q
  else s.dataFails q

/-- HOST_TRANSFER_RETRY (R80). -/
def execHostTransferRetry (q : BitVec 6) (kind : BitVec 2) (s : State) : Host.Outcome State Fault Refusal :=
  .next (if !s.running || s.board.perst then s else s.transferFails q.toNat kind.toNat)

/-- A write to the counter-dump area fails: it is made again 10 microseconds later, or the dump is abandoned (R519, R599). -/
def State.dumpFails (s : State) : State :=
  if s.mon.dump.run.isNone then s
  else if s.ringBudget ringDump then
    let s := s.ringCharge ringDump
    { s with mon := { s.mon with dump := { s.mon.dump with holdTill := s.now + 10000 } } }
  else s.abandonDump

/-- RING_WRITE_RETRY (R599). -/
def execRingWriteRetry (ring : Nat) (s : State) : Host.Outcome State Fault Refusal :=
  .next (if !s.running || s.board.perst || Nat.blt ringDump ring then s
    else if ring = ringDump then s.dumpFails
    else s.ringFails ring)

/-! ### Function-level reset (R82) -/

/-- VF_RESET (R82). -/
def execVfReset (v : BitVec 6) (s : State) : Host.Outcome State Fault Refusal :=
  .next (if !s.running || v = 0 then s
    else ((List.range 56).map (8 + ·)).foldl (fun s q => if s.qbind q = v.toNat then s.vfQueue q else s) s)

end Sys2Proof.Machine
end

