-- ==== Sys2Proof/Machine/RegRows.lean ====
section
/-! DEFINITION. The rows WRITE, READ and MASK_WRITE (R93 to R95), and the writes whose effect is a row of its own. -/

namespace Sys2Proof.Machine

/-- WRITE (R93). -/
def execWrite (c : Cmd) (s : State) : Host.Outcome State Fault Refusal := .next (s.command c (writeRule c false))

/-- MASK_WRITE (R95). -/
def execMaskWrite (c : Cmd) (s : State) : Host.Outcome State Fault Refusal := .next (s.command c (writeRule c true))

/-- READ (R94). -/
def execRead (c : Cmd) (io : HostIo) (s : State) : Host.Outcome State Fault Refusal :=
  .next (s.command c (readRule c io))

/-! ### Writes that are rows of their own -/

/-- A one-word write is admitted where it is of the row's kind; else nothing happens. -/
def State.regWrite (s : State) (w : RegWrite) (isRow : State → Bool) : State :=
  s.row w.cmd (fun x => if isRow x then some (writeRule w.cmd w.masked) else none)

/-- REQ_GO (R55). -/
def execReqGo (w : RegWrite) (s : State) : Host.Outcome State Fault Refusal :=
  .next (s.regWrite w (rowReqGo w))

/-- GLB_RESET.SOFT (R582). -/
def execSoftReset (w : RegWrite) (s : State) : Host.Outcome State Fault Refusal :=
  .next (s.regWrite w (rowSoftReset w))

/-- TRE_CTRL.ENABLE from 0 to 1 (R179). -/
def execEnableSet (w : RegWrite) (s : State) : Host.Outcome State Fault Refusal :=
  .next (s.regWrite w (rowEnableSet w))

/-- TRE_CTRL.ENABLE from 1 to 0 (R178). -/
def execEnableClear (w : RegWrite) (s : State) : Host.Outcome State Fault Refusal :=
  .next (s.regWrite w (rowEnableClear w))

/-- LINE_MODE or STD_LANE changes (R185). -/
def execLineMode (w : RegWrite) (s : State) : Host.Outcome State Fault Refusal :=
  .next (s.regWrite w (rowLineMode w))

/-- TRE_PINCTL.TXDIS_FORCE (R183). -/
def execTxdisForce (w : RegWrite) (s : State) : Host.Outcome State Fault Refusal :=
  .next (s.regWrite w (rowTxdisForce w))

/-- TRE_PONID (R181). -/
def execTrePonid (w : RegWrite) (s : State) : Host.Outcome State Fault Refusal :=
  .next (s.regWrite w (rowTrePonid w))

/-- TRE_FTIME.FPHASE (R473). -/
def execFphase (w : RegWrite) (s : State) : Host.Outcome State Fault Refusal :=
  .next (s.regWrite w (rowFphase w))

/-- CHANGE of a gate list (R335). -/
def execGateChange (w : RegWrite) (s : State) : Host.Outcome State Fault Refusal :=
  .next (s.regWrite w (rowGateChange w))

/-- KEY_XTS.REKEY (R445). -/
def execRekey (w : RegWrite) (s : State) : Host.Outcome State Fault Refusal :=
  .next (s.regWrite w (rowRekey w))

/-- MON_BW_CTL.RESET (R514). -/
def execBandwidthReset (w : RegWrite) (s : State) : Host.Outcome State Fault Refusal :=
  .next (s.regWrite w (rowBandwidthReset w))

/-- MON_CTL.RUN (R508). -/
def execMonRun (w : RegWrite) (s : State) : Host.Outcome State Fault Refusal :=
  .next (s.regWrite w (rowMonRun w))

/-- MON_TAG.SEED (R520). -/
def execTagSeed (w : RegWrite) (s : State) : Host.Outcome State Fault Refusal :=
  .next (s.regWrite w (rowTagSeed w))

/-- A level bit of an alarm written as 1 (R529). -/
def execAlarmLevelClear (w : RegWrite) (s : State) : Host.Outcome State Fault Refusal :=
  .next (s.regWrite w (rowAlarmLevelClear w))

/-- BASE or SIZE of a device ring (R270, R531). -/
def execRingReset (w : RegWrite) (s : State) : Host.Outcome State Fault Refusal :=
  .next (s.regWrite w (rowRingReset w))

/-- RECOMPUTE (R490). -/
def execRecompute (w : RegWrite) (s : State) : Host.Outcome State Fault Refusal :=
  .next (s.regWrite w (rowRecompute w))

/-- COMMITTED while DIVERGENT (R493). -/
def execCommitted (w : RegWrite) (s : State) : Host.Outcome State Fault Refusal :=
  .next (s.regWrite w (rowCommitted w))

/-- SWITCH (R498). -/
def execRingSwitch (w : RegWrite) (s : State) : Host.Outcome State Fault Refusal :=
  .next (s.regWrite w (rowRingSwitch w))

/-- IMG_OP ERASE (R571). -/
def execImgErase (w : RegWrite) (s : State) : Host.Outcome State Fault Refusal := .next (s.regWrite w (rowImg 0 w))

/-- IMG_OP PROGRAM (R571). -/
def execImgProgram (w : RegWrite) (s : State) : Host.Outcome State Fault Refusal := .next (s.regWrite w (rowImg 1 w))

/-- IMG_OP CHECK (R571). -/
def execImgCheck (w : RegWrite) (s : State) : Host.Outcome State Fault Refusal := .next (s.regWrite w (rowImg 2 w))

/-- IMG_OP SET_BOOT (R571). -/
def execSetBoot (w : RegWrite) (s : State) : Host.Outcome State Fault Refusal := .next (s.regWrite w (rowImg 3 w))

/-- IMG_OP CONFIRM (R571). -/
def execConfirm (w : RegWrite) (s : State) : Host.Outcome State Fault Refusal := .next (s.regWrite w (rowImg 4 w))

/-- IMG_OP ROLLBACK (R571). -/
def execRollback (w : RegWrite) (s : State) : Host.Outcome State Fault Refusal := .next (s.regWrite w (rowImg 5 w))

/-- IMG_OP KEY (R571). -/
def execKeyProgram (w : RegWrite) (s : State) : Host.Outcome State Fault Refusal := .next (s.regWrite w (rowImg 6 w))

end Sys2Proof.Machine
end

