-- ==== Sys2Proof/Machine/ResetRows.lean ====
section
/-! DEFINITION. Resets, supplies, temperatures and the test access port (R577 to R593). -/

namespace Sys2Proof.Machine

/-! ### PCIe resets (R581, R582) -/

/-- PCIE_HOT_RESET: a soft reset begins at once. -/
def execPcieHotReset (s : State) : Host.Outcome State Fault Refusal :=
  .next (if s.board.inReset || s.board.perst then s else s.softReset)

/-- One queue stops and stays disabled; a command in execution goes on to its end (R82, R581). -/
def State.queueGone (s : State) (q : Nat) : State :=
  let s := s.vfQueue q
  let s := if (s.queue q).resetDue then s.setQueue q { s.queue q with keepDown := true } else s
  s.setQstate q 3

/-- What PERST_N does to the command queues, to records that wait for a host write, and to the counter dump. -/
def State.hostGone (s : State) : State :=
  let s := (List.range 64).foldl State.queueGone s
  let s := (s.cmd.rings.map (·.1)).foldl State.ringFlush s
  { s.abandonDump with evt := { s.evt with parked := true } }

/-- PERST_N is asserted (R581). -/
def execPerstN (s : State) : Host.Outcome State Fault Refusal :=
  .next (if s.board.perst then s
    else
      let s := if s.running then s.hostGone else s
      { s with board := { s.board with perst := true, msixOn := false } })

/-- PERST_N is released (R581); `msix`: the host has enabled MSI-X again. -/
def execPerstNRelease (msix : Bool) (s : State) : Host.Outcome State Fault Refusal :=
  .next { s with board := { s.board with perst := false, msixOn := s.board.msixOn || msix } }

/-! ### Reset pin and supplies (R577 to R580) -/

/-- The pins are the device's own again. -/
def Tap.letGo (t : Tap) : Tap := { t with drives := false }

/-- A rising edge of RESET_N: the straps and OPT33 are sampled, and reset is released unless a rail is low. -/
def execResetN (straps : BitVec 5) (s : State) : Host.Outcome State Fault Refusal :=
  .next (if s.board.resetLow then
      let s := { s with board := { s.board with resetLow := false, straps := straps.toNat }, tap := s.tap.letGo }
      if s.board.railsLow.isEmpty then
        let s := { s with board := { s.board with inReset := false } }
        { s with start := s.toDevice }
      else s
    else s)

/-- A falling edge of RESET_N. -/
def execDeviceResetPin (s : State) : Host.Outcome State Fault Refusal :=
  .next (if s.board.resetLow then s
    else
      let s := if s.board.inReset then s else s.hardReset
      { s with board := { s.board with resetLow := true } })

/-- Rail `rail` falls below 90 % of nominal, or rises above it. With every rail low, THERMTRIP_N lets go (R593). -/
def execRailBelow90Percent (rail : BitVec 4) (low : Bool) (s : State) : Host.Outcome State Fault Refusal :=
  let s := if low && !s.board.inReset then s.hardReset else s
  let l := smSet (fun _ => false) s.board.railsLow rail.toNat low
  let s := { s with board := { s.board with railsLow := l } }
  .next (if s.board.thermtrip && l.length == 16 then
      { s with board := { s.board with thermtrip := false } }.emit (.pin 4 0 true s.now)
    else s)

/-- The operating range of rail `i` in mV (Table 19.1); VDDIO_OPT's follows OPT33. -/
def State.railRange (s : State) (i : Nat) : Nat × Nat :=
  if i ≤ 4 ∨ i = 14 then (728, 773)
  else if i ≤ 8 ∨ i = 15 then (1164, 1236)
  else if i = 9 then (1067, 1133)
  else if i = 10 then (388, 412)
  else if i = 13 then (if s.board.straps.testBit 4 then (3135, 3465) else (1710, 1890))
  else (1746, 1854)

/-- One rail reads `v` mV. -/
def State.railReads (s : State) (i v : Nat) : State :=
  let out := !inRange (s.railRange i).1 (s.railRange i).2 v
  let was := smGet (fun _ => false) s.board.railOut i
  let s := s.setReg (0x4010 + i) (toWord v)
  let s := { s with board := { s.board with railOut := smSet (fun _ => false) s.board.railOut i out } }
  if out && was then s.fatal 5 i v else s

/-- Sensor samples are counted by the monitor, except in DRY. -/
def State.sampled (s : State) (n : Nat) : State := if s.running then s.monEv 0 0 2 n else s

/-- RAIL_SAMPLE (R579): one reading of each rail. -/
def execRailSample (mv : List (BitVec 16)) (s : State) : Host.Outcome State Fault Refusal :=
  .next (if s.board.inReset then s
    else (List.range 16).foldl (fun s i => s.railReads i (nth mv i 0).toNat) (s.sampled 16))

/-! ### Temperatures (R592, R593) -/

/-- The shutdown and warning thresholds of sensor `i` in °C. -/
def State.tempLimits (s : State) (i : Nat) : Nat × Nat :=
  if i < 12 then (s.rf 0x8000 31 24, s.rf 0x8000 23 16) else (s.rf 0x8000 15 8, s.rf 0x8000 7 0)

/-- One sensor reads `v` thousandths of a degree. -/
def State.tempReads (s : State) (i : Nat) (v : BitVec 24) : State :=
  let (shut, warn) := s.tempLimits i
  let x := v.toInt
  let deg := unsigned 24 (x.fdiv 1000)
  let hot := decide (1000 * (shut : Int) ≤ x)
  let was := smGet (fun _ => false) s.board.tempOut i
  let warned := smGet (fun _ => false) s.board.warned i
  let up := decide (1000 * (warn : Int) ≤ x)
  let stays := warned && decide (1000 * ((warn : Int) - 5) < x)
  let s := s.setReg (0x8010 + i) (toWord v.toNat)
  let s := { s with board := { s.board with
    tempOut := smSet (fun _ => false) s.board.tempOut i hot,
    warned := smSet (fun _ => false) s.board.warned i (up || stays) } }
  let s := if up && !warned then s.alarm 16 0x029 i deg else s
  if hot && was then s.fatal 4 i deg else s

/-- TEMPERATURE_SAMPLE (R592): one reading of each sensor. -/
def execTemperatureSample (mc : List (BitVec 24)) (s : State) : Host.Outcome State Fault Refusal :=
  .next (if s.board.inReset then s
    else (List.range 20).foldl (fun s i => s.tempReads i (nth mc i 0)) (s.sampled 20))

/-- THERMTRIP (R593): a sensor reads 125 °C or more. -/
def execThermtrip (sensor : BitVec 5) (mc : BitVec 24) (s : State) : Host.Outcome State Fault Refusal :=
  .next (if sensor.toNat < 20 ∧ 125000 ≤ mc.toInt ∧ !s.board.thermtrip then
      { s with board := { s.board with thermtrip := true } }.emit (.pin 4 0 false s.now)
    else s)

/-! ### The test access port (R589) -/

/-- The instruction that acts: those that take control of pins act as BYPASS while RESET_N is high, as does every code
that has no name. -/
def Tap.acts (t : Tap) (resetLow : Bool) : Nat :=
  if t.ir = 1 ∨ t.ir = 2 ∨ (resetLow ∧ t.ir ≤ 6) then t.ir else 0xFF

/-- Bits of a number, the least significant first. -/
def bitList (n x : Nat) : List Bool := (List.range n).map x.testBit

/-- The number of a list of bits, the least significant first. -/
def bitsValue (l : List Bool) : Nat := l.foldr (fun b a => b2n b + 2 * a) 0

/-- A register with content `captured` is shifted by `bits`: what it holds then, and what leaves on TDO, first to last. -/
def scan (captured bits : List Bool) : List Bool × List Bool :=
  let all := captured ++ bits
  (all.drop bits.length, all.take bits.length)

/-- The instruction takes control of pins: EXTEST and its pulse and train forms, HIGHZ, CLAMP. -/
def takesPins (ir : Nat) : Bool := ([0, 3, 4, 5, 6] : List Nat).contains ir

/-- The instruction that acts drives the pins from the boundary cells, or lets them float. -/
def State.tapDrive (s : State) : State :=
  let ir := s.tap.acts s.board.resetLow
  let on := takesPins ir
  let s := { s with tap := { s.tap with drives := on } }
  if on then s.emit (.tapPins ir (if ir = 5 then [] else s.tap.dr)) else s

/-- Bits leave on TDO. -/
def State.tapOut (s : State) (bits : List Bool) : State :=
  { s with tap := { s.tap with tdo := bits.reverse ++ s.tap.tdo } }

/-- What a scan of the data register captures: IDCODE, the pins into the boundary register, or the one bit of the bypass
register. -/
def tapCapture (ir : Nat) (pins : List Bool) : List Bool :=
  if ir = 1 then bitList 32 0x17128B87
  else if ir ≤ 4 then takePad 1873 false pins
  else [false]

/-- TEST_ACCESS_PORT. The two least significant bits that an instruction scan captures are 01; the others are not given.-/
def execTestAccessPort (op : TapOp) (s : State) : Host.Outcome State Fault Refusal :=
  .next (match op with
    | .trst => { s with tap := { s.tap with ir := 1, drives := false } }
    | .scanIr bits =>
      let x := scan ([true, false] ++ bitList 6 s.freeWord.toNat) bits
      ({ s with tap := { s.tap with ir := bitsValue x.1 } }.tapOut x.2).drew.tapDrive
    | .scanDr bits pins =>
      let ir := s.tap.acts s.board.resetLow
      let x := scan (tapCapture ir pins) bits
      let s := s.tapOut x.2
      if ir = 0 ∨ inRange 2 4 ir then { s with tap := { s.tap with dr := x.1 } }.tapDrive else s)

end Sys2Proof.Machine
end

