-- ==== Sys2Proof/Machine/SluiceRows.lean ====
section
/-! DEFINITION. The rows SLUICE_LOAD and SLUICE_SWAP, the Sluice instructions and the events of a run (06, R107, R108). -/

namespace Sys2Proof.Machine

/-- SLUICE_LOAD (R107). -/
def execSluiceLoad (c : Cmd) (io : HostIo) (s : State) : Host.Outcome State Fault Refusal :=
  .next (s.command c (sluiceLoadRule c io))

/-- SLUICE_SWAP (R108). -/
def execSluiceSwap (c : Cmd) (s : State) : Host.Outcome State Fault Refusal :=
  .next (s.command c (sluiceSwapRule c))

/-- The pending SLUICE_SWAP takes effect at the tree's next frame boundary (R108). -/
def execSluiceSwapTakesEffect (t : BitVec 7) (s : State) : Host.Outcome State Fault Refusal :=
  .next (if s.running && s.swapDue t.toNat then
    (s.toBoundary t.toNat).ifRuns (State.bankBoundary · t.toNat) else s)

/-- A reversion takes effect at the tree's next frame boundary (R241). -/
def execReverted (t : BitVec 7) (s : State) : Host.Outcome State Fault Refusal :=
  .next (if s.running && (s.tree t.toNat).revert then
    (s.toBoundary t.toNat).ifRuns (State.bankBoundary · t.toNat) else s)

/-- OVERRUN (R240): the run of the tree has used its budget. -/
def execOverrun (t : BitVec 7) (s : State) : Host.Outcome State Fault Refusal :=
  .next (match (s.tree t.toNat).run with
    | some r =>
      if s.running && Nat.ble ((r.view s).rf (adTree t.toNat 0x1000) 14 0) r.steps then s.overrun t.toNat r else s
    | none => s)

/-- FRAME (R228). -/
def execSluFrame (t : BitVec 7) (s : State) : Host.Outcome State Fault Refusal :=
  .next ((s.waitUntil (s.sluAt t.toNat 0x20)).sluStep t.toNat 0x20 (fun h _ _ s r =>
    let c := s.cursor t.toNat r (fld h 16 0)
    (s, { r with prog := fld h 31 20, l0 := { r.l0 with cur := c }, l1 := { r.l1 with cur := c } })))

/-- GRANT (R220). -/
def execGrant (t : BitVec 7) (s : State) : Host.Outcome State Fault Refusal :=
  .next ((s.waitUntil (s.sluAt t.toNat 0x21)).sluStep t.toNat 0x21 (fun h _ _ s r => s.runGrant t.toNat r h))

/-- GRANTT (R221). -/
def execGrantt (t : BitVec 7) (s : State) : Host.Outcome State Fault Refusal :=
  .next ((s.waitUntil (s.sluAt t.toNat 0x22)).sluStep t.toNat 0x22 (fun h o1 _ s r => s.runGrantt t.toNat r h o1))

/-- QUIET (R223). -/
def execQuiet (t : BitVec 7) (s : State) : Host.Outcome State Fault Refusal :=
  .next ((s.waitUntil (s.sluAt t.toNat 0x23)).sluStep t.toNat 0x23 (fun h _ _ s r => s.runQuiet t.toNat r h))

/-- RANGEW (R224). -/
def execRangew (t : BitVec 7) (s : State) : Host.Outcome State Fault Refusal :=
  .next ((s.waitUntil (s.sluAt t.toNat 0x24)).sluStep t.toNat 0x24 (fun h _ _ s r => s.runRangew t.toNat r h))

/-- ALIGN (R233 to R235): one step for each instant that it examines; where the budget ends first, it stays the present
instruction. -/
def execSluAlign (t : BitVec 7) (s : State) : Host.Outcome State Fault Refusal :=
  .next ((s.waitUntil (s.alignLast t.toNat)).sluStep t.toNat 0x25 (fun h o1 o2 s r =>
    let used := r.steps - 1
    let left := (r.view s).rf (adTree t.toNat 0x1000) 14 0 - used
    let (ended, s, r') := s.runAlign t.toNat { r with steps := used } h o1 o2 left
    (s.monEv 11 t.toNat 1 (r'.steps - r.steps), if ended then r' else { r' with pc := r.pc - 3 })))

/-- SKIPLT (R225). -/
def execSkiplt (t : BitVec 7) (s : State) : Host.Outcome State Fault Refusal :=
  .next ((s.waitUntil (s.sluAt t.toNat 0x26)).sluStep t.toNat 0x26 (fun h _ _ s r =>
    let (b, s) := s.skipBucket t.toNat r h
    (s, r.skip (Nat.blt b (fld h 11 8)) (fld h 7 0))))

/-- SKIPGE (R225). -/
def execSkipge (t : BitVec 7) (s : State) : Host.Outcome State Fault Refusal :=
  .next ((s.waitUntil (s.sluAt t.toNat 0x27)).sluStep t.toNat 0x27 (fun h _ _ s r =>
    let (b, s) := s.skipBucket t.toNat r h
    (s, r.skip (Nat.ble (fld h 11 8) b) (fld h 7 0))))

/-- LOOP (R226). -/
def execLoopN (t : BitVec 7) (s : State) : Host.Outcome State Fault Refusal :=
  .next ((s.waitUntil (s.sluAt t.toNat 0x28)).sluStep t.toNat 0x28 (fun h _ _ s r =>
    let n := fld h 12 0
    if n = 0 then (s, { r with pc := afterLoop (fun i => s.raw (adBank t.toNat r.bank i)) 4096 r.pc 0 })
    else (s, { r with loops := (r.pc, n - 1, 0) :: r.loops })))

/-- ENDLOOP (R226). -/
def execEndloop (t : BitVec 7) (s : State) : Host.Outcome State Fault Refusal :=
  .next ((s.waitUntil (s.sluAt t.toNat 0x29)).sluStep t.toNat 0x29 (fun _ _ _ s r =>
    match r.loops with
    | [] => (s, r)
    | (body, left, i) :: rest =>
      if left = 0 then (s, { r with loops := rest })
      else (s, { r with pc := body, loops := (body, left - 1, i + 1) :: rest })))

/-- JUMP (R227). -/
def execSluJump (t : BitVec 7) (s : State) : Host.Outcome State Fault Refusal :=
  .next ((s.waitUntil (s.sluAt t.toNat 0x2A)).sluStep t.toNat 0x2A (fun h _ _ s r => (s, { r with pc := fld h 11 0 })))

/-- CREDIT (R230, R231). -/
def execSluCredit (t : BitVec 7) (s : State) : Host.Outcome State Fault Refusal :=
  .next ((s.waitUntil (s.sluAt t.toNat 0x2B)).sluStep t.toNat 0x2B (fun h _ _ s r =>
    let c := fld h 31 24
    let v := signed 23 (fld h 22 0)
    let was := s.credit t.toNat c
    let new : Int := if bitOf h 32 then was - (r.lastL : Int) else if bitOf h 23 then v else was + v
    (s.setCredit t.toNat c new, r)))

/-- SKIPCR (R225). -/
def execSkipcr (t : BitVec 7) (s : State) : Host.Outcome State Fault Refusal :=
  .next ((s.waitUntil (s.sluAt t.toNat 0x2C)).sluStep t.toNat 0x2C (fun h _ _ s r =>
    let v := s.credit t.toNat (fld h 31 24)
    let th := signed 16 (fld h 23 8)
    (s, r.skip (if bitOf h 32 then decide (th ≤ v) else decide (v < th)) (fld h 7 0))))

/-- MARK (R232). -/
def execSluMark (t : BitVec 7) (s : State) : Host.Outcome State Fault Refusal :=
  .next ((s.waitUntil (s.sluAt t.toNat 0x2D)).sluStep t.toNat 0x2D (fun h _ _ s r =>
    let id := fld h 15 0
    (s.traceEv 0x2C3 t.toNat id, if bitOf h 32 then { r with tagNext := some id } else r)))

/-- LANE (R229). -/
def execLaneSel (t : BitVec 7) (s : State) : Host.Outcome State Fault Refusal :=
  .next ((s.waitUntil (s.sluAt t.toNat 0x2E)).sluStep t.toNat 0x2E (fun h _ _ s r =>
    let l := fld h 0 0
    let v := r.ln l
    let r := if bitOf h 31 then r.setLn l { v with cur := s.cursor t.toNat r (max v.cur (fld h 17 1)) } else r
    let m := max r.l0.cur r.l1.cur
    let r := if bitOf h 32 then { r with l0 := { r.l0 with cur := m }, l1 := { r.l1 with cur := m } } else r
    (s, { r with lane := l })))

/-- PAD (R229). -/
def execSluPad (t : BitVec 7) (s : State) : Host.Outcome State Fault Refusal :=
  .next ((s.waitUntil (s.sluAt t.toNat 0x2F)).sluStep t.toNat 0x2F (fun h _ _ s r =>
    let v := r.ln r.lane
    (s, r.setLn r.lane { v with cur := s.cursor t.toNat r (v.cur + fld h 16 0) })))

/-- END (R228): the run ends, and its overruns are forgotten (R240). -/
def execEndRun (t : BitVec 7) (s : State) : Host.Outcome State Fault Refusal :=
  let s := (s.waitUntil (s.sluAt t.toNat 0x30)).sluStep t.toNat 0x30 (fun _ _ _ s r => (s, { r with pc := 4096 }))
  .next (match (s.tree t.toNat).run with
    | some r =>
      if r.pc = 4096 then (s.endRun t.toNat r).setRf (adSluStatus t.toNat) 5 4 0 else s
    | none => s)

end Sys2Proof.Machine
end

