-- ==== Sys2Proof/Machine/SnapRows.lean ====
section
/-! DEFINITION. The rows CRC_SCAN, CTR_SNAP, DUMP_CFG and DEFAULTS (R115, R116, R503 to R506, R516, R524, R550, R573). -/

namespace Sys2Proof.Machine

/-- CRC_SCAN (R115, R524). -/
def execCrcScan (c : Cmd) (io : HostIo) (s : State) : Host.Outcome State Fault Refusal := .next (s.command c (crcScanRule c io))

/-- CTR_SNAP (R116, R503). -/
def execCtrSnap (c : Cmd) (io : HostIo) (s : State) : Host.Outcome State Fault Refusal := .next (s.command c (ctrSnapRule c io))

/-- DUMP_CFG of KIND 0 (R516), and of the reserved KINDs. -/
def execCounterDumpCfg (c : Cmd) (s : State) : Host.Outcome State Fault Refusal := .next (s.row c (fun _ => dumpCfgRow false c))

/-- DUMP_CFG of KIND 1 (R550). -/
def execFatalDumpCfg (c : Cmd) (s : State) : Host.Outcome State Fault Refusal := .next (s.row c (fun _ => dumpCfgRow true c))

/-- DEFAULTS (R119, R573). -/
def execDefaults (c : Cmd) (s : State) : Host.Outcome State Fault Refusal := .next (s.command c (defaultsRule c))

end Sys2Proof.Machine
end

