-- ==== Sys2Proof/Machine/TableRows.lean ====
section
/-! DEFINITION. The rows of the table commands, of rule generations, of learning, aging and scrubs (R97 to R106, R363, R374 to R387). -/

namespace Sys2Proof.Machine

/-- The rule of a command in whose admission tick the tables give `n` words with a single-bit error, which is corrected and
counted where the command passes its checks (R543). -/
def CmdRule.meets (r : CmdRule) (n : Nat) : CmdRule := { r with run := fun s => r.run (s.wordsFixed n) }

/-- The rule of a command that reads a keyed table, of whose words a free number had a single-bit error. -/
def CmdRule.reads (r : CmdRule) : CmdRule := { r with run := fun s => r.run s.someFixed }

/-- TBL_INSERT (R98 to R100, R370). -/
def execTblInsert (c : Cmd) (fixed : Nat) (s : State) : Host.Outcome State Fault Refusal :=
  .next (s.command c ((tblInsertRule c).meets fixed))

/-- TBL_DELETE (R100, R377). -/
def execTblDelete (c : Cmd) (s : State) : Host.Outcome State Fault Refusal := .next (s.command c (tblDeleteRule c).reads)

/-- TBL_SEARCH (R100, R376). -/
def execTblSearch (c : Cmd) (io : HostIo) (s : State) : Host.Outcome State Fault Refusal :=
  .next (s.command c (tblSearchRule c io).reads)

/-- TBL_NEXT (R101, R102, R374, R375). -/
def execTblNext (c : Cmd) (fixed : Nat) (s : State) : Host.Outcome State Fault Refusal :=
  .next (s.command c ((tblNextRule c).meets fixed))

/-- A walk context that nobody continues is released after CMD_WALK.IDLE_S seconds (R101). -/
def execWalkContextRelease (x : BitVec 3) (s : State) : Host.Outcome State Fault Refusal :=
  .next (match s.walk x.toNat with
    | some w =>
      if s.running && !s.walkBusy x.toNat then
        let s := s.waitUntil (w.used + s.rf 0x11007 15 0 * 10 ^ 9)
        if s.running then s.setWalk x.toNat none else s
      else s
    | none => s)

/-- TBL_FLUSH_PORT (R103, R104, R386). -/
def execTblFlushPort (c : Cmd) (fixed : Nat) (s : State) : Host.Outcome State Fault Refusal :=
  .next (s.command c ((tblFlushPortRule c).meets fixed))

/-- RULE_STAGE (R105). -/
def execRuleStage (x : StageIn) (s : State) : Host.Outcome State Fault Refusal :=
  .next (s.command x.cmd (ruleStageRule x.cmd x.io))

/-- GEN_SWAP (R106). -/
def execGenSwap (c : Cmd) (s : State) : Host.Outcome State Fault Refusal := .next (s.command c (genSwapRule c))

/-- The retiring generation is freed, and a GEN_SWAP that waits for it retires (R363). -/
def execGenSwapRetire (s : State) : Host.Outcome State Fault Refusal :=
  .next (if s.running && s.retiring then
    match s.retireTick with
    | some n =>
      let s := s.waitUntil n
      if s.running && s.retireNow then s.freeCopy else s
    | none => s
  else s)

/-- The learn engine takes the oldest request; it works on it from the present tick on (R384). -/
def execLearnEngineStep (s : State) : Host.Outcome State Fault Refusal :=
  .next (if s.traffic && !s.tbl.learn.isEmpty && s.tbl.going.isNone then s.learnTake.someFixed else s)

/-- Ticks pass until the aging scanner comes to a slot that it can change; entries written on the way count. -/
def State.ageWait : Nat → State → State
  | 0, s => s
  | k + 1, s =>
    match s.ageGap with
    | none => s
    | some g =>
      let n := ceilDiv (s.ageSkip g).tbl.ageAt (2 ^ 22)
      if n ≤ s.now ∨ !s.aging || !s.running then s else ageWait k (State.runTicks 1 (n - s.now) s)

/-- The next visit of the aging scanner that can change something; it acts at the end of its tick (R387, R388). -/
def execAgingVisit (s : State) : Host.Outcome State Fault Refusal :=
  .next (match s.ageGap with
    | none => s
    | some g =>
      if s.aging && s.ageStep != 0 then
        let s := s.ageWait (ceilDiv (s.ageSkip g).tbl.ageAt (2 ^ 22) - s.now)
        (match (if s.running && s.aging then s.ageGap else none) with
          | none => s
          | some g =>
            let u := s.ageSkip g
            if u.tbl.ageAt ≤ s.now * 2 ^ 22 then
              { u.ageSkip 1 with tbl := { (u.ageSkip 1).tbl with visits := u.tbl.ageSlot :: u.tbl.visits } }.someFixed
            else s)
      else s)

/-- The next queued slot of a table is scrubbed at the end of the tick; one that has been rewritten by then is left as it is
(R369, R379). -/
def execScrubStep (t : BitVec 2) (s : State) : Host.Outcome State Fault Refusal :=
  let t := t.toNat + 1
  .next (match smGet (fun _ => []) s.tbl.scrub t with
    | [] => s
    | slot :: _ =>
      if s.running then
        let s := s.unqueueScrub t slot
        { s with tbl := { s.tbl with scrubs := s.tbl.scrubs ++ [(t, slot)] } }
      else s)

/-- The patrol scrubber visits a slot in its tick of the period: corrected words are counted and rewritten; an uncorrectable slot
is scrubbed at the end of that tick, as `scrubTick` says (R379, R543). -/
def execPatrolScrubVisit (t : BitVec 2) (x : SlotIn) (s : State) : Host.Outcome State Fault Refusal :=
  let t := t.toNat + 1
  .next (if s.running && s.mode != .spring then
      let u := s.waitUntil (s.patrolTick t x.slot)
      if u.running && u.mode != .spring && !u.slotBad t x.slot then u.wordsFixed x.fixed else u
    else s)

end Sys2Proof.Machine
end

