-- ==== Sys2Proof/Machine/TimeRows.lean ====
section
/-! DEFINITION. The rows of TIME_SET and of the 1PPS pins (R464 to R467). -/

namespace Sys2Proof.Machine

/-- TIME_SET with AT_PPS 0. -/
def execTimeSet (c : Cmd) (s : State) : Host.Outcome State Fault Refusal := .next (s.row c (fun _ => timeSetRow false c))

/-- TIME_SET with AT_PPS 1. -/
def execTimeSetAtPps (c : Cmd) (s : State) : Host.Outcome State Fault Refusal := .next (s.row c (fun _ => timeSetRow true c))

/-- A TIME_SET with AT_PPS saw no edge within 2 s. -/
def execTimeSetPpsTimeout (s : State) : Host.Outcome State Fault Refusal :=
  .next (match s.ppsWait with
    | some (_, a, _) =>
      let s := s.waitUntil (a + 2 * 10 ^ 9)
      (match s.ppsWait with
        | some (q, b, _) => if s.running && a == b then s.endExec q stAborted 0 0 else s
        | none => s)
    | none => s)

/-- A rising edge of PPS_IN; one less than 500 ms after the previous stamped edge is ignored. -/
def execPpsInEdge (s : State) : Host.Outcome State Fault Refusal :=
  .next (if s.running && (s.ppsAt.all (fun n => Nat.ble (n + 500000000) s.now)) then s.ppsEdge else s)

/-- PPS_OUT rises at the next whole second plus PPSOUT_OFF, for PPSOUT_W ns; not while the pin is high. -/
def execPpsOutEdge (s : State) : Host.Outcome State Fault Refusal :=
  .next (if s.running && s.rb 0x80010 47 then
    let s := s.waitUntil (s.tickOfNt s.ppsNext)
    let s := { s with ppsOut := some s.now }
    if s.now < s.ppsLow || !s.running || !s.rb 0x80010 47 then s
    else
      let n := s.now + s.rf 0x80011 29 0
      ({ s with ppsLow := n }.emit (.pin 3 0 true s.now)).emit (.pin 3 0 false n)
  else s)

end Sys2Proof.Machine
end

