-- ==== Sys2Proof/Machine/Dispatch.lean ====
section
/-! DEFINITION. The dispatcher: one arm for each constructor of Instr, each one direct call of that row's meaning. -/

namespace Sys2Proof.Machine

/-- What a row does to everything but the queue of waiting commands. -/
def exec (i : Instr) (s : State) : Host.Outcome State Fault Refusal :=
  match i with
  | .nop c => Sys2Proof.Machine.execNop c s
  | .modeFlow c => Sys2Proof.Machine.execModeFlow c s
  | .modeWeir c => Sys2Proof.Machine.execModeWeir c s
  | .modeDrain c => Sys2Proof.Machine.execModeDrain c s
  | .modeDry c => Sys2Proof.Machine.execModeDry c s
  | .modeStill c => Sys2Proof.Machine.execModeStill c s
  | .write c => Sys2Proof.Machine.execWrite c s
  | .read c io => Sys2Proof.Machine.execRead c io s
  | .maskWrite c => Sys2Proof.Machine.execMaskWrite c s
  | .fence c => Sys2Proof.Machine.execFence c s
  | .tblInsert c fixed => Sys2Proof.Machine.execTblInsert c fixed s
  | .tblDelete c => Sys2Proof.Machine.execTblDelete c s
  | .tblSearch c io => Sys2Proof.Machine.execTblSearch c io s
  | .tblNext c fixed => Sys2Proof.Machine.execTblNext c fixed s
  | .tblFlushPort c fixed => Sys2Proof.Machine.execTblFlushPort c fixed s
  | .ruleStage x => Sys2Proof.Machine.execRuleStage x s
  | .genSwap c => Sys2Proof.Machine.execGenSwap c s
  | .genSwapRetire => Sys2Proof.Machine.execGenSwapRetire s
  | .sluiceLoad c io => Sys2Proof.Machine.execSluiceLoad c io s
  | .sluiceSwap c => Sys2Proof.Machine.execSluiceSwap c s
  | .sluiceSwapTakesEffect t => Sys2Proof.Machine.execSluiceSwapTakesEffect t s
  | .onuAdmit c => Sys2Proof.Machine.execOnuAdmit c s
  | .onuUpdate c => Sys2Proof.Machine.execOnuUpdate c s
  | .onuRemove c => Sys2Proof.Machine.execOnuRemove c s
  | .setOwner c => Sys2Proof.Machine.execSetOwner c s
  | .bindAlloc c => Sys2Proof.Machine.execBindAlloc c s
  | .unbindAlloc c => Sys2Proof.Machine.execUnbindAlloc c s
  | .setEqd c => Sys2Proof.Machine.execSetEqd c s
  | .ploamUnicast c => Sys2Proof.Machine.execPloamUnicast c s
  | .ploamBroadcast c => Sys2Proof.Machine.execPloamBroadcast c s
  | .omci c io => Sys2Proof.Machine.execOmci c io s
  | .msgSendFramed t l => Sys2Proof.Machine.execMsgSendFramed t l s
  | .keyLock c => Sys2Proof.Machine.execKeyLock c s
  | .keyLoad c io => Sys2Proof.Machine.execKeyLoad c io s
  | .keyGen c io => Sys2Proof.Machine.execKeyGen c io s
  | .keyErase c => Sys2Proof.Machine.execKeyErase c s
  | .ecbEnc c io => Sys2Proof.Machine.execEcbEnc c io s
  | .ecbDec c io => Sys2Proof.Machine.execEcbDec c io s
  | .ecbDecSlot c io => Sys2Proof.Machine.execEcbDecSlot c io s
  | .cmacGen c io => Sys2Proof.Machine.execCmacGen c io s
  | .cmacVerify c io => Sys2Proof.Machine.execCmacVerify c io s
  | .wrap c io => Sys2Proof.Machine.execWrap c io s
  | .unwrap c io => Sys2Proof.Machine.execUnwrap c io s
  | .setTx c => Sys2Proof.Machine.execSetTx c s
  | .setTxSwitch => Sys2Proof.Machine.execSetTxSwitch s
  | .setAttr c => Sys2Proof.Machine.execSetAttr c s
  | .crcScan c io => Sys2Proof.Machine.execCrcScan c io s
  | .ctrSnap c io => Sys2Proof.Machine.execCtrSnap c io s
  | .counterDumpCfg c => Sys2Proof.Machine.execCounterDumpCfg c s
  | .fatalDumpCfg c => Sys2Proof.Machine.execFatalDumpCfg c s
  | .epochBegin c => Sys2Proof.Machine.execEpochBegin c s
  | .epochCommit c => Sys2Proof.Machine.execEpochCommit c s
  | .retire c => Sys2Proof.Machine.execRetire c s
  | .pseudoChannelMoveDone pc picks => Sys2Proof.Machine.execPseudoChannelMoveDone pc picks s
  | .restore c => Sys2Proof.Machine.execRestore c s
  | .pseudoChannelRebuildDone pc => Sys2Proof.Machine.execPseudoChannelRebuildDone pc s
  | .thaw c => Sys2Proof.Machine.execThaw c s
  | .defaults c => Sys2Proof.Machine.execDefaults c s
  | .timeSet c => Sys2Proof.Machine.execTimeSet c s
  | .timeSetAtPps c => Sys2Proof.Machine.execTimeSetAtPps c s
  | .timeSetPpsTimeout => Sys2Proof.Machine.execTimeSetPpsTimeout s
  | .inject c io picks => Sys2Proof.Machine.execInject c io picks s
  | .bufReturn c => Sys2Proof.Machine.execBufReturn c s
  | .cmdDoorbell fn q value => Sys2Proof.Machine.execCmdDoorbell fn q value s
  | .commandFetch q slots => Sys2Proof.Machine.execCommandFetch q slots s
  | .ringControlWrite fn q off value => Sys2Proof.Machine.execRingControlWrite fn q off value s
  | .hostBarWriteDiscard fn addr value short => Sys2Proof.Machine.execHostBarWriteDiscard fn addr value short s
  | .hostTransferRetry q kind => Sys2Proof.Machine.execHostTransferRetry q kind s
  | .ringWriteRetry ring => Sys2Proof.Machine.execRingWriteRetry ring s
  | .vfReset v => Sys2Proof.Machine.execVfReset v s
  | .reqGo w => Sys2Proof.Machine.execReqGo w s
  | .health => Sys2Proof.Machine.execHealth s
  | .sensor => Sys2Proof.Machine.execSensor s
  | .eye height width => Sys2Proof.Machine.execEye height width s
  | .dumpFetch hostFail => Sys2Proof.Machine.execDumpFetch hostFail s
  | .dumpErase => Sys2Proof.Machine.execDumpErase s
  | .retireLog => Sys2Proof.Machine.execRetireLog s
  | .softReset w => Sys2Proof.Machine.execSoftReset w s
  | .pcieHotReset => Sys2Proof.Machine.execPcieHotReset s
  | .perstN => Sys2Proof.Machine.execPerstN s
  | .resetN straps => Sys2Proof.Machine.execResetN straps s
  | .railBelow90Percent rail low => Sys2Proof.Machine.execRailBelow90Percent rail low s
  | .railSample mv => Sys2Proof.Machine.execRailSample mv s
  | .temperatureSample mc => Sys2Proof.Machine.execTemperatureSample mc s
  | .thermtrip sensor mc => Sys2Proof.Machine.execThermtrip sensor mc s
  | .springComplete pcs lanes ports writeFail => Sys2Proof.Machine.execSpringComplete pcs lanes ports writeFail s
  | .corePllLockLost => Sys2Proof.Machine.execCorePllLockLost s
  | .coreIslandHang => Sys2Proof.Machine.execCoreIslandHang s
  | .fatalError cause src detail => Sys2Proof.Machine.execFatalError cause src detail s
  | .fatalDumpComplete hostFail flashFail => Sys2Proof.Machine.execFatalDumpComplete hostFail flashFail s
  | .watchdogExpiry => Sys2Proof.Machine.execWatchdogExpiry s
  | .spHeld => Sys2Proof.Machine.execSpHeld s
  | .handshakeLoss isl => Sys2Proof.Machine.execHandshakeLoss isl s
  | .laneLoss t l begins hs => Sys2Proof.Machine.execLaneLoss t l begins hs s
  | .portLoss m begins hs => Sys2Proof.Machine.execPortLoss m begins hs s
  | .treeLoss t begins => Sys2Proof.Machine.execTreeLoss t begins s
  | .hbmLoss stack begins => Sys2Proof.Machine.execHbmLoss stack begins s
  | .laneReturnToService t l => Sys2Proof.Machine.execLaneReturnToService t l s
  | .transientFault cls index => Sys2Proof.Machine.execTransientFault cls index s
  | .retryEnd cls index => Sys2Proof.Machine.execRetryEnd cls index s
  | .memUncorr e => Sys2Proof.Machine.execMemUncorr e s
  | .enableSet w => Sys2Proof.Machine.execEnableSet w s
  | .enableClear w => Sys2Proof.Machine.execEnableClear w s
  | .stoppingBoundary t => Sys2Proof.Machine.execStoppingBoundary t s
  | .treeFirstFrame t => Sys2Proof.Machine.execTreeFirstFrame t s
  | .lineMode w => Sys2Proof.Machine.execLineMode w s
  | .txdisForce w => Sys2Proof.Machine.execTxdisForce w s
  | .trePonid w => Sys2Proof.Machine.execTrePonid w s
  | .fphase w => Sys2Proof.Machine.execFphase w s
  | .frameBoundary t => Sys2Proof.Machine.execFrameBoundary t s
  | .sluFrame t => Sys2Proof.Machine.execSluFrame t s
  | .grant t => Sys2Proof.Machine.execGrant t s
  | .grantt t => Sys2Proof.Machine.execGrantt t s
  | .quiet t => Sys2Proof.Machine.execQuiet t s
  | .rangew t => Sys2Proof.Machine.execRangew t s
  | .sluAlign t => Sys2Proof.Machine.execSluAlign t s
  | .skiplt t => Sys2Proof.Machine.execSkiplt t s
  | .skipge t => Sys2Proof.Machine.execSkipge t s
  | .loopN t => Sys2Proof.Machine.execLoopN t s
  | .endloop t => Sys2Proof.Machine.execEndloop t s
  | .sluJump t => Sys2Proof.Machine.execSluJump t s
  | .sluCredit t => Sys2Proof.Machine.execSluCredit t s
  | .skipcr t => Sys2Proof.Machine.execSkipcr t s
  | .sluMark t => Sys2Proof.Machine.execSluMark t s
  | .laneSel t => Sys2Proof.Machine.execLaneSel t s
  | .sluPad t => Sys2Proof.Machine.execSluPad t s
  | .endRun t => Sys2Proof.Machine.execEndRun t s
  | .overrun t => Sys2Proof.Machine.execOverrun t s
  | .reverted t => Sys2Proof.Machine.execReverted t s
  | .reportReceived t l alloc occ => Sys2Proof.Machine.execReportReceived t l alloc occ s
  | .burstAccepted t l pos symbols h => Sys2Proof.Machine.execBurstAccepted t l pos symbols h s
  | .burstLost t l fifo first => Sys2Proof.Machine.execBurstLost t l fifo first s
  | .burstsLost h l => Sys2Proof.Machine.execBurstsLost h l s
  | .codewordDecoded t l kind pos rx bad fixed => Sys2Proof.Machine.execCodewordDecoded t l kind pos rx bad fixed s
  | .xgemRelease t l port sduLen => Sys2Proof.Machine.execXgemRelease t l port sduLen s
  | .ploamReceived t l onu msg => Sys2Proof.Machine.execPloamReceived t l onu msg s
  | .serialNumberResponse t l pos msg => Sys2Proof.Machine.execSerialNumberResponse t l pos msg s
  | .rangingResult t l msg => Sys2Proof.Machine.execRangingResult t l msg s
  | .sduTimeout t => Sys2Proof.Machine.execSduTimeout t s
  | .deskewEntry t l => Sys2Proof.Machine.execDeskewEntry t l s
  | .deskewHoldExpiry t => Sys2Proof.Machine.execDeskewHoldExpiry t s
  | .uplinkFrameReceived m f => Sys2Proof.Machine.execUplinkFrameReceived m f s
  | .pipeDecision pipe x => Sys2Proof.Machine.execPipeDecision pipe x s
  | .oxbowReentry pipe x => Sys2Proof.Machine.execOxbowReentry pipe x s
  | .cellAllocation pkt pick => Sys2Proof.Machine.execCellAllocation pkt pick s
  | .freeListRebuild bank => Sys2Proof.Machine.execFreeListRebuild bank s
  | .confluenceSlot => Sys2Proof.Machine.execConfluenceSlot s
  | .resequencerTimeout o => Sys2Proof.Machine.execResequencerTimeout o s
  | .replication picks => Sys2Proof.Machine.execReplication picks s
  | .enqueue pkt picks => Sys2Proof.Machine.execEnqueue pkt picks s
  | .egressEnqueue pkt => Sys2Proof.Machine.execEgressEnqueue pkt s
  | .packetBad pkt cut => Sys2Proof.Machine.execPacketBad pkt cut s
  | .pageWrite p => Sys2Proof.Machine.execPageWrite p s
  | .pageFlush h => Sys2Proof.Machine.execPageFlush h s
  | .pageReadBack x => Sys2Proof.Machine.execPageReadBack x s
  | .laneRequest t l => Sys2Proof.Machine.execLaneRequest t l s
  | .calendarEligible node excess => Sys2Proof.Machine.execCalendarEligible node excess s
  | .macFrameStart m => Sys2Proof.Machine.execMacFrameStart m s
  | .gateEntry m => Sys2Proof.Machine.execGateEntry m s
  | .gateChange w => Sys2Proof.Machine.execGateChange w s
  | .gateListChangeTime m => Sys2Proof.Machine.execGateListChangeTime m s
  | .lagMemberDown m => Sys2Proof.Machine.execLagMemberDown m s
  | .puntRecordWrite => Sys2Proof.Machine.execPuntRecordWrite s
  | .learnEngineStep => Sys2Proof.Machine.execLearnEngineStep s
  | .agingVisit => Sys2Proof.Machine.execAgingVisit s
  | .scrubStep t => Sys2Proof.Machine.execScrubStep t s
  | .patrolScrubVisit t x => Sys2Proof.Machine.execPatrolScrubVisit t x s
  | .walkContextRelease x => Sys2Proof.Machine.execWalkContextRelease x s
  | .leaseExp => Sys2Proof.Machine.execLeaseExp s
  | .xtsKeyDraw t => Sys2Proof.Machine.execXtsKeyDraw t s
  | .rekey w => Sys2Proof.Machine.execRekey w s
  | .ppsInEdge => Sys2Proof.Machine.execPpsInEdge s
  | .ppsOutEdge => Sys2Proof.Machine.execPpsOutEdge s
  | .bandwidthWindowEnd => Sys2Proof.Machine.execBandwidthWindowEnd s
  | .bandwidthReset w => Sys2Proof.Machine.execBandwidthReset w s
  | .monRun w => Sys2Proof.Machine.execMonRun w s
  | .tagSeed w => Sys2Proof.Machine.execTagSeed w s
  | .counterDumpStart => Sys2Proof.Machine.execCounterDumpStart s
  | .counterDumpEnd => Sys2Proof.Machine.execCounterDumpEnd s
  | .traceEnd slot => Sys2Proof.Machine.execTraceEnd slot s
  | .traceTimeout slot => Sys2Proof.Machine.execTraceTimeout slot s
  | .eventRecordWrite => Sys2Proof.Machine.execEventRecordWrite s
  | .evtGap => Sys2Proof.Machine.execEvtGap s
  | .eventWriteRetry => Sys2Proof.Machine.execEventWriteRetry s
  | .alarmLevelClear w => Sys2Proof.Machine.execAlarmLevelClear w s
  | .ringReset w => Sys2Proof.Machine.execRingReset w s
  | .drainComplete => Sys2Proof.Machine.execDrainComplete s
  | .drainLimit => Sys2Proof.Machine.execDrainLimit s
  | .enterStill => Sys2Proof.Machine.execEnterStill s
  | .masterTokenSend => Sys2Proof.Machine.execMasterTokenSend s
  | .tokenReceived m ws => Sys2Proof.Machine.execTokenReceived m ws s
  | .commitTokenReceived m ws => Sys2Proof.Machine.execCommitTokenReceived m ws s
  | .tokenComplete => Sys2Proof.Machine.execTokenComplete s
  | .tokenLate => Sys2Proof.Machine.execTokenLate s
  | .tokenLost => Sys2Proof.Machine.execTokenLost s
  | .ringCommit => Sys2Proof.Machine.execRingCommit s
  | .recompute w => Sys2Proof.Machine.execRecompute w s
  | .digestComplete => Sys2Proof.Machine.execDigestComplete s
  | .committed w => Sys2Proof.Machine.execCommitted w s
  | .sfcRecordSend t => Sys2Proof.Machine.execSfcRecordSend t s
  | .mirrorChangeSend t => Sys2Proof.Machine.execMirrorChangeSend t s
  | .mirrorRefresh t => Sys2Proof.Machine.execMirrorRefresh t s
  | .mirrorFrameReceived m ws => Sys2Proof.Machine.execMirrorFrameReceived m ws s
  | .ringSwitch w => Sys2Proof.Machine.execRingSwitch w s
  | .handover m ws => Sys2Proof.Machine.execHandover m ws s
  | .takeover m ws => Sys2Proof.Machine.execTakeover m ws s
  | .silenceTimeout t => Sys2Proof.Machine.execSilenceTimeout t s
  | .handoverTimeout t => Sys2Proof.Machine.execHandoverTimeout t s
  | .imgErase w => Sys2Proof.Machine.execImgErase w s
  | .imgProgram w => Sys2Proof.Machine.execImgProgram w s
  | .imgCheck w => Sys2Proof.Machine.execImgCheck w s
  | .setBoot w => Sys2Proof.Machine.execSetBoot w s
  | .confirm w => Sys2Proof.Machine.execConfirm w s
  | .rollback w => Sys2Proof.Machine.execRollback w s
  | .keyProgram w => Sys2Proof.Machine.execKeyProgram w s
  | .imgOpDone octets hostFail flashFail done => Sys2Proof.Machine.execImgOpDone octets hostFail flashFail done s
  | .cmdCplHead fn q value => Sys2Proof.Machine.execCmdCplHead fn q value s
  | .deviceResetPin => Sys2Proof.Machine.execDeviceResetPin s
  | .perstNRelease msix => Sys2Proof.Machine.execPerstNRelease msix s
  | .spareRowCopyDone row => Sys2Proof.Machine.execSpareRowCopyDone row s
  | .holdoffUs => Sys2Proof.Machine.execHoldoffUs s
  | .burstResetPulse t l => Sys2Proof.Machine.execBurstResetPulse t l s
  | .testAccessPort op => Sys2Proof.Machine.execTestAccessPort op s

end Sys2Proof.Machine
end

