-- ==== Sys2Proof/Safety.lean ====
section
/-! DEFINITION. The terms in which statements are made: the rows that are commands of a host or of the service processor,
when such a command passes its checks and how its tick ends, and what no step may change. -/

namespace Sys2Proof.Machine

/-! ### Commands -/

/-- The rule of a one-word write, where it is of the row's kind. -/
def ownRow (w : RegWrite) (isRow : State → Bool) (s : State) : Option CmdRule :=
  if isRow s then some (writeRule w.cmd w.masked) else none

/-- The command of a row that is one, and its rule in the state that the dispatcher sees, none where it is not a command of the
row; none for an event. -/
def hostRow : Instr → Option (Cmd × (State → Option CmdRule))
  | .nop c => some (c, fun _ => some (nopRule c))
  | .modeFlow c => some (c, fun _ => modeRow c [2])
  | .modeWeir c => some (c, fun _ => modeRow c [3])
  | .modeDrain c => some (c, fun _ => modeRow c [4])
  | .modeDry c => some (c, fun _ => modeRow c [5])
  | .modeStill c => some (c, fun _ => modeRow c [0, 1, 6, 7])
  | .write c => some (c, fun _ => some (writeRule c false))
  | .read c io => some (c, fun _ => some (readRule c io))
  | .maskWrite c => some (c, fun _ => some (writeRule c true))
  | .fence c => some (c, fun _ => some (fenceRule c))
  | .tblInsert c n => some (c, fun _ => some ((tblInsertRule c).meets n))
  | .tblDelete c => some (c, fun _ => some (tblDeleteRule c).reads)
  | .tblSearch c io => some (c, fun _ => some (tblSearchRule c io).reads)
  | .tblNext c n => some (c, fun _ => some ((tblNextRule c).meets n))
  | .tblFlushPort c n => some (c, fun _ => some ((tblFlushPortRule c).meets n))
  | .ruleStage x => some (x.cmd, fun _ => some (ruleStageRule x.cmd x.io))
  | .genSwap c => some (c, fun _ => some (genSwapRule c))
  | .genSwapRetire => none
  | .sluiceLoad c io => some (c, fun _ => some (sluiceLoadRule c io))
  | .sluiceSwap c => some (c, fun _ => some (sluiceSwapRule c))
  | .sluiceSwapTakesEffect _ => none
  | .onuAdmit c => some (c, fun _ => onuAdmitRow c)
  | .onuUpdate c => some (c, fun _ => onuUpdateRow c)
  | .onuRemove c => some (c, fun _ => onuRemoveRow c)
  | .setOwner c => some (c, fun _ => setOwnerRow c)
  | .bindAlloc c => some (c, fun _ => bindAllocRow c)
  | .unbindAlloc c => some (c, fun _ => unbindAllocRow c)
  | .setEqd c => some (c, fun _ => setEqdRow c)
  | .ploamUnicast c => some (c, fun _ => ploamRow 0 c)
  | .ploamBroadcast c => some (c, fun _ => ploamRow 1 c)
  | .omci c io => some (c, fun _ => omciRow c io)
  | .msgSendFramed _ _ => none
  | .keyLock c => some (c, fun _ => some (keyLockRule c))
  | .keyLoad c io => some (c, fun _ => keyRow c 0 (keyStart c io))
  | .keyGen c io => some (c, fun _ => keyRow c 1 (keyStart c io))
  | .keyErase c => some (c, fun _ => keyRow c 2 (keyStart c { slots := [], octets := [], took := 0 }))
  | .ecbEnc c io => some (c, fun _ => keyRow c 3 (keyStart c io))
  | .ecbDec c io => some (c, fun _ => keyRow c 4 (keyStart c io))
  | .ecbDecSlot c io => some (c, fun _ => keyRow c 5 (keyStart c io))
  | .cmacGen c io => some (c, fun _ => keyRow c 6 (keyStart c io))
  | .cmacVerify c io => some (c, fun _ => keyRow c 7 (keyStart c io))
  | .wrap c io => some (c, fun _ => keyRow c 8 (keyStart c io))
  | .unwrap c io => some (c, fun _ => keyRow c 9 (keyStart c io))
  | .setTx c => some (c, fun _ => keyRow c 0xA (setTxWork c))
  | .setTxSwitch => none
  | .setAttr c => some (c, fun _ => keyRow c 0xB (setAttrWork c))
  | .crcScan c io => some (c, fun _ => some (crcScanRule c io))
  | .ctrSnap c io => some (c, fun _ => some (ctrSnapRule c io))
  | .counterDumpCfg c => some (c, fun _ => dumpCfgRow false c)
  | .fatalDumpCfg c => some (c, fun _ => dumpCfgRow true c)
  | .epochBegin c => some (c, fun _ => some (epochBeginRule c))
  | .epochCommit c => some (c, fun _ => some (epochCommitRule c))
  | .retire c => some (c, fun _ => some (retireRule c))
  | .pseudoChannelMoveDone _ _ => none
  | .restore c => some (c, fun _ => some (restoreRule c))
  | .pseudoChannelRebuildDone _ => none
  | .thaw c => some (c, fun _ => some (thawRule c))
  | .defaults c => some (c, fun _ => some (defaultsRule c))
  | .timeSet c => some (c, fun _ => timeSetRow false c)
  | .timeSetAtPps c => some (c, fun _ => timeSetRow true c)
  | .timeSetPpsTimeout => none
  | .inject c io picks => some (c, fun _ => injectRow c io picks)
  | .bufReturn c => some (c, fun _ => bufReturnRow c)
  | .cmdDoorbell _ _ _ => none
  | .commandFetch _ _ => none
  | .ringControlWrite _ _ _ _ => none
  | .hostBarWriteDiscard _ _ _ _ => none
  | .hostTransferRetry _ _ => none
  | .ringWriteRetry _ => none
  | .vfReset _ => none
  | .reqGo w => some (w.cmd, ownRow w (rowReqGo w))
  | .health => none
  | .sensor => none
  | .eye _ _ => none
  | .dumpFetch _ => none
  | .dumpErase => none
  | .retireLog => none
  | .softReset w => some (w.cmd, ownRow w (rowSoftReset w))
  | .pcieHotReset => none
  | .perstN => none
  | .resetN _ => none
  | .railBelow90Percent _ _ => none
  | .railSample _ => none
  | .temperatureSample _ => none
  | .thermtrip _ _ => none
  | .springComplete _ _ _ _ => none
  | .corePllLockLost => none
  | .coreIslandHang => none
  | .fatalError _ _ _ => none
  | .fatalDumpComplete _ _ => none
  | .watchdogExpiry => none
  | .spHeld => none
  | .handshakeLoss _ => none
  | .laneLoss _ _ _ _ => none
  | .portLoss _ _ _ => none
  | .treeLoss _ _ => none
  | .hbmLoss _ _ => none
  | .laneReturnToService _ _ => none
  | .transientFault _ _ => none
  | .retryEnd _ _ => none
  | .memUncorr _ => none
  | .enableSet w => some (w.cmd, ownRow w (rowEnableSet w))
  | .enableClear w => some (w.cmd, ownRow w (rowEnableClear w))
  | .stoppingBoundary _ => none
  | .treeFirstFrame _ => none
  | .lineMode w => some (w.cmd, ownRow w (rowLineMode w))
  | .txdisForce w => some (w.cmd, ownRow w (rowTxdisForce w))
  | .trePonid w => some (w.cmd, ownRow w (rowTrePonid w))
  | .fphase w => some (w.cmd, ownRow w (rowFphase w))
  | .frameBoundary _ => none
  | .sluFrame _ => none
  | .grant _ => none
  | .grantt _ => none
  | .quiet _ => none
  | .rangew _ => none
  | .sluAlign _ => none
  | .skiplt _ => none
  | .skipge _ => none
  | .loopN _ => none
  | .endloop _ => none
  | .sluJump _ => none
  | .sluCredit _ => none
  | .skipcr _ => none
  | .sluMark _ => none
  | .laneSel _ => none
  | .sluPad _ => none
  | .endRun _ => none
  | .overrun _ => none
  | .reverted _ => none
  | .reportReceived _ _ _ _ => none
  | .burstAccepted _ _ _ _ _ => none
  | .burstLost _ _ _ _ => none
  | .burstsLost _ _ => none
  | .codewordDecoded _ _ _ _ _ _ _ => none
  | .xgemRelease _ _ _ _ => none
  | .ploamReceived _ _ _ _ => none
  | .serialNumberResponse _ _ _ _ => none
  | .rangingResult _ _ _ => none
  | .sduTimeout _ => none
  | .deskewEntry _ _ => none
  | .deskewHoldExpiry _ => none
  | .uplinkFrameReceived _ _ => none
  | .pipeDecision _ _ => none
  | .oxbowReentry _ _ => none
  | .cellAllocation _ _ => none
  | .freeListRebuild _ => none
  | .confluenceSlot => none
  | .resequencerTimeout _ => none
  | .replication _ => none
  | .enqueue _ _ => none
  | .egressEnqueue _ => none
  | .packetBad _ _ => none
  | .pageWrite _ => none
  | .pageFlush _ => none
  | .pageReadBack _ => none
  | .laneRequest _ _ => none
  | .calendarEligible _ _ => none
  | .macFrameStart _ => none
  | .gateEntry _ => none
  | .gateChange w => some (w.cmd, ownRow w (rowGateChange w))
  | .gateListChangeTime _ => none
  | .lagMemberDown _ => none
  | .puntRecordWrite => none
  | .learnEngineStep => none
  | .agingVisit => none
  | .scrubStep _ => none
  | .patrolScrubVisit _ _ => none
  | .walkContextRelease _ => none
  | .leaseExp => none
  | .xtsKeyDraw _ => none
  | .rekey w => some (w.cmd, ownRow w (rowRekey w))
  | .ppsInEdge => none
  | .ppsOutEdge => none
  | .bandwidthWindowEnd => none
  | .bandwidthReset w => some (w.cmd, ownRow w (rowBandwidthReset w))
  | .monRun w => some (w.cmd, ownRow w (rowMonRun w))
  | .tagSeed w => some (w.cmd, ownRow w (rowTagSeed w))
  | .counterDumpStart => none
  | .counterDumpEnd => none
  | .traceEnd _ => none
  | .traceTimeout _ => none
  | .eventRecordWrite => none
  | .evtGap => none
  | .eventWriteRetry => none
  | .alarmLevelClear w => some (w.cmd, ownRow w (rowAlarmLevelClear w))
  | .ringReset w => some (w.cmd, ownRow w (rowRingReset w))
  | .drainComplete => none
  | .drainLimit => none
  | .enterStill => none
  | .masterTokenSend => none
  | .tokenReceived _ _ => none
  | .commitTokenReceived _ _ => none
  | .tokenComplete => none
  | .tokenLate => none
  | .tokenLost => none
  | .ringCommit => none
  | .recompute w => some (w.cmd, ownRow w (rowRecompute w))
  | .digestComplete => none
  | .committed w => some (w.cmd, ownRow w (rowCommitted w))
  | .sfcRecordSend _ => none
  | .mirrorChangeSend _ => none
  | .mirrorRefresh _ => none
  | .mirrorFrameReceived _ _ => none
  | .ringSwitch w => some (w.cmd, ownRow w (rowRingSwitch w))
  | .handover _ _ => none
  | .takeover _ _ => none
  | .silenceTimeout _ => none
  | .handoverTimeout _ => none
  | .imgErase w => some (w.cmd, ownRow w (rowImg 0 w))
  | .imgProgram w => some (w.cmd, ownRow w (rowImg 1 w))
  | .imgCheck w => some (w.cmd, ownRow w (rowImg 2 w))
  | .setBoot w => some (w.cmd, ownRow w (rowImg 3 w))
  | .confirm w => some (w.cmd, ownRow w (rowImg 4 w))
  | .rollback w => some (w.cmd, ownRow w (rowImg 5 w))
  | .keyProgram w => some (w.cmd, ownRow w (rowImg 6 w))
  | .imgOpDone _ _ _ _ => none
  | .cmdCplHead _ _ _ => none
  | .deviceResetPin => none
  | .perstNRelease _ => none
  | .spareRowCopyDone _ => none
  | .holdoffUs => none
  | .burstResetPulse _ _ => none
  | .testAccessPort _ => none

/-- The state in which the dispatcher takes command `c` of rule `r` from `s`: the command's turn has come, and the commands
admitted earlier have done their steps of the tick; the command's words are taken, and on a queue it has its number (R32, R73,
R74, R477). -/
def State.taken (s : State) (c : Cmd) (r : CmdRule) : State := ((s.reach c.port).readied c r).admitted c

/-- The command can be taken, no fatal cause falls in its tick, and it passes the four checks of R33: form, privilege and
ownership, mode, arguments. Ownership, mode and arguments are judged by the state at the start of the tick (R21, R62, R151). -/
def State.accepts (s : State) (c : Cmd) (r : CmdRule) : Prop :=
  (s.reach c.port).eligible c r.opcode = true ∧ ((s.reach c.port).readied c r).fatalNow = false ∧ r.form = none ∧
    (c.port = .sp → r.spMay = true) ∧ r.priv (s.taken c r).atStart ((s.taken c r).atStart.privOf c.port) = none ∧
    (s.taken c r).atStart.modeOk c r = true ∧
    r.args (s.taken c r).atStart ((s.taken c r).atStart.privOf c.port) = true

/-- The command's tick ends with effects `x`: what higher levels have written in it stands (R35, R476). -/
def State.closes (s : State) (c : Cmd) (r : CmdRule) (x : State) : State := ((s.reach c.port).worked r x).shutTick

/-- The command, taken from state `s`, ends in its admission tick with effects `x`: its outcome is made known, and the tick
ends. -/
def State.ends (s : State) (c : Cmd) (r : CmdRule) (status progress result : Nat) (x : State) : State :=
  s.closes c r (x.finish c.port (c.header r.opcode) ((s.taken c r).seqOf c.port) status progress result)

/-- The command goes on after its admission tick, with effects `x` so far. -/
def State.goesOn (s : State) (c : Cmd) (r : CmdRule) (progress : Nat) (w : Wait) (x : State) : State :=
  s.closes c r (x.setExec c.port.num
    { header := c.header r.opcode, seq := (s.taken c r).seqOf c.port, progress := progress, wait := w, since := x.now })

/-- The command is a violation of a stage and a reason (R86), with effects `x` before it. -/
def State.violates (s : State) (c : Cmd) (r : CmdRule) (stage reason : Nat) (operand object : Word) (x : State) : State :=
  s.closes c r (x.violate c.port (c.header r.opcode) ((s.taken c r).seqOf c.port) stage reason operand object)

/-- The rule of the command that the row makes. -/
def ruleOf (w : RegWrite) : CmdRule := writeRule w.cmd w.masked

/-- The row's write of one word is accepted, its island is not in reset, and nothing holds the word busy (R41, R93, R95). -/
def State.acceptsWrite (s : State) (w : RegWrite) : Prop :=
  s.accepts w.cmd (ruleOf w) ∧
    (s.taken w.cmd (ruleOf w)).writeHeld ((s.taken w.cmd (ruleOf w)).atStart.privOf w.port) [w.word] = false ∧
    (s.taken w.cmd (ruleOf w)).atStart.writeBusy [w.word] = false ∧
    (s.taken w.cmd (ruleOf w)).claimsWord w.addr.toNat = false

/-- The state with the word of such a row stored. -/
def State.stored (s : State) (w : RegWrite) : State := (s.taken w.cmd (ruleOf w)).storeWord w.word

/-- Such a row ends with DONE and effects `x`; a MASK_WRITE returns the word as it stood at the start of the tick. -/
def State.writeEnds (s : State) (w : RegWrite) (x : State) : State :=
  s.ends w.cmd (ruleOf w) stDone 1
    (if w.masked then ((s.taken w.cmd (ruleOf w)).atStart.view w.addr.toNat).toNat else 0) x

/-- Nothing stops a KEY_OP before its work: its queue holds the key-unit lock, the slot that it writes is none of a
standby tree, and no slot that it names is without its key, in use or invalidated in this tick (R113, R450, R494). -/
def State.keyReady (a : State) (c : Cmd) : Prop :=
  (∃ e, a.atStart.key.lock = some (c.port.num, e)) ∧ a.keyStandby c = false ∧ a.keyStop c = none

/-! ### Steps of a run -/

/-- The state in the tick of the next step of the run of tree `t`, where that step is an instruction of opcode `op` (R199). -/
def State.atStep (s : State) (t op : Nat) : State := s.waitUntil (s.sluAt t op)

/-- Tree `t` runs `r`, whose next instruction has opcode `op`, and its budget is not used up. -/
def State.atRun (x : State) (t op : Nat) (r : Run) : Prop :=
  (x.tree t).run = some r ∧ x.running = true ∧ hdrOpcode (x.raw (adBank t r.bank r.pc)) = op ∧
    r.steps < (r.view x).rf (adTree t 0x1000) 14 0

/-- The run behind an instruction of opcode `op`: one more step, and the place behind its operand words. -/
def Run.past (r : Run) (op : Nat) : Run := { r with steps := r.steps + 1, pc := r.pc + 1 + sluOps op }

/-- Tree `t` goes on with run `r`. -/
def State.putRun (s : State) (t : Nat) (r : Run) : State := s.setTree t { s.tree t with run := some r }

/-! ### What no step changes -/

/-- The queue of waiting rows and the fuses (Table 18.2): IMG_KEY and the two rollback floors. -/
def State.kept (s : State) : List Instr × Option (BitVec 128) × Nat × Nat :=
  (s.pending, s.img.key, s.img.fwMin, s.img.imgMin)

/-- No fuse of `s` is unblown in `t`: a programmed IMG_KEY stands, and no rollback floor is lower. -/
def State.fusesHold (s t : State) : Prop :=
  (s.img.key.isSome = true → t.img.key = s.img.key) ∧ s.img.fwMin ≤ t.img.fwMin ∧ s.img.imgMin ≤ t.img.imgMin

/-- A KEY_PROGRAM that is under way and will run waits only while no key is programmed. -/
def State.keyWaits (s : State) : Prop := ∀ o, s.img.op = some o → o.bad = 0 → 6 ≤ o.op → s.img.key = none

end Sys2Proof.Machine
end

