-- ==== Sys2Proof/WellFormed.lean ====
section
/-! DEFINITION. Which commands and events can be given at all: what a header can say, what a transfer can do, and how many
readings a sample holds. -/

namespace Sys2Proof

/-- A header states 0 to 63 operand words (R64). -/
def Cmd.wf (c : Cmd) : Bool := Nat.ble c.ops.length 63

/-- No command reads more than the 4,096 words of a bank from the host (R107). -/
def HostIo.wf (io : HostIo) : Bool := Nat.ble io.slots.length 4096

/-- Only a MASK_WRITE carries a mask (R94, R95). -/
def RegWrite.wf (w : RegWrite) : Bool := w.masked || w.mask == 0

/-- A candidate has no more symbols than the longest delimiter (Table 8.9). -/
def Candidate.wf (c : Candidate) : Bool := Nat.ble c.symbols.length 64

/-- The octets received are no more than the frame has (R191). -/
def UplFrame.wf (f : UplFrame) : Bool := Nat.ble f.octets.length f.len

/-- The well-formed commands and events. -/
def Instr.wf : Instr → Bool
  | .nop c => c.wf
  | .modeFlow c => c.wf
  | .modeWeir c => c.wf
  | .modeDrain c => c.wf
  | .modeDry c => c.wf
  | .modeStill c => c.wf
  | .write c => c.wf
  | .read c io => c.wf && io.wf
  | .maskWrite c => c.wf
  | .fence c => c.wf
  | .tblInsert c _ => c.wf
  | .tblDelete c => c.wf
  | .tblSearch c io => c.wf && io.wf
  | .tblNext c _ => c.wf
  | .tblFlushPort c _ => c.wf
  | .ruleStage x => x.cmd.wf && x.io.wf
  | .genSwap c => c.wf
  | .genSwapRetire => true
  | .sluiceLoad c io => c.wf && io.wf
  | .sluiceSwap c => c.wf
  | .sluiceSwapTakesEffect _ => true
  | .onuAdmit c => c.wf
  | .onuUpdate c => c.wf
  | .onuRemove c => c.wf
  | .setOwner c => c.wf
  | .bindAlloc c => c.wf
  | .unbindAlloc c => c.wf
  | .setEqd c => c.wf
  | .ploamUnicast c => c.wf
  | .ploamBroadcast c => c.wf
  | .omci c io => c.wf && io.wf
  | .msgSendFramed _ _ => true
  | .keyLock c => c.wf
  | .keyLoad c io => c.wf && io.wf
  | .keyGen c io => c.wf && io.wf
  | .keyErase c => c.wf
  | .ecbEnc c io => c.wf && io.wf
  | .ecbDec c io => c.wf && io.wf
  | .ecbDecSlot c io => c.wf && io.wf
  | .cmacGen c io => c.wf && io.wf
  | .cmacVerify c io => c.wf && io.wf
  | .wrap c io => c.wf && io.wf
  | .unwrap c io => c.wf && io.wf
  | .setTx c => c.wf
  | .setTxSwitch => true
  | .setAttr c => c.wf
  | .crcScan c io => c.wf && io.wf
  | .ctrSnap c io => c.wf && io.wf
  | .counterDumpCfg c => c.wf
  | .fatalDumpCfg c => c.wf
  | .epochBegin c => c.wf
  | .epochCommit c => c.wf
  | .retire c => c.wf
  | .pseudoChannelMoveDone _ _ => true
  | .restore c => c.wf
  | .pseudoChannelRebuildDone _ => true
  | .thaw c => c.wf
  | .defaults c => c.wf
  | .timeSet c => c.wf
  | .timeSetAtPps c => c.wf
  | .timeSetPpsTimeout => true
  | .inject c io _ => c.wf && io.wf
  | .bufReturn c => c.wf
  | .cmdDoorbell _ _ _ => true
  | .commandFetch _ slots => Nat.ble slots.length 64
  | .ringControlWrite _ _ _ _ => true
  | .hostBarWriteDiscard _ _ _ _ => true
  | .hostTransferRetry _ _ => true
  | .ringWriteRetry ring => Nat.ble ring 131
  | .vfReset _ => true
  | .reqGo w => w.wf
  | .health => true
  | .sensor => true
  | .eye _ _ => true
  | .dumpFetch _ => true
  | .dumpErase => true
  | .retireLog => true
  | .softReset w => w.wf
  | .pcieHotReset => true
  | .perstN => true
  | .resetN _ => true
  | .railBelow90Percent _ _ => true
  | .railSample mv => mv.length == 16
  | .temperatureSample mc => mc.length == 20
  | .thermtrip k _ => Nat.blt k.toNat 20
  | .springComplete _ _ _ _ => true
  | .corePllLockLost => true
  | .coreIslandHang => true
  | .fatalError _ _ _ => true
  | .fatalDumpComplete _ _ => true
  | .watchdogExpiry => true
  | .spHeld => true
  | .handshakeLoss _ => true
  | .laneLoss _ _ _ _ => true
  | .portLoss _ _ _ => true
  | .treeLoss _ _ => true
  | .hbmLoss _ _ => true
  | .laneReturnToService _ _ => true
  | .transientFault _ _ => true
  | .retryEnd _ _ => true
  | .memUncorr _ => true
  | .enableSet w => w.wf
  | .enableClear w => w.wf
  | .stoppingBoundary _ => true
  | .treeFirstFrame _ => true
  | .lineMode w => w.wf
  | .txdisForce w => w.wf
  | .trePonid w => w.wf
  | .fphase w => w.wf
  | .frameBoundary _ => true
  | .sluFrame _ => true
  | .grant _ => true
  | .grantt _ => true
  | .quiet _ => true
  | .rangew _ => true
  | .sluAlign _ => true
  | .skiplt _ => true
  | .skipge _ => true
  | .loopN _ => true
  | .endloop _ => true
  | .sluJump _ => true
  | .sluCredit _ => true
  | .skipcr _ => true
  | .sluMark _ => true
  | .laneSel _ => true
  | .sluPad _ => true
  | .endRun _ => true
  | .overrun _ => true
  | .reverted _ => true
  | .reportReceived _ _ _ _ => true
  | .burstAccepted _ _ p x h => Candidate.wf { pos := p, symbols := x, h1 := h.1, h2 := h.2 }
  | .burstLost _ _ _ _ => true
  | .burstsLost _ _ => true
  | .codewordDecoded _ _ _ _ _ bad fixed => !bad || fixed.isEmpty
  | .xgemRelease _ _ _ _ => true
  | .ploamReceived _ _ _ _ => true
  | .serialNumberResponse _ _ _ _ => true
  | .rangingResult _ _ _ => true
  | .sduTimeout _ => true
  | .deskewEntry _ _ => true
  | .deskewHoldExpiry _ => true
  | .uplinkFrameReceived _ f => f.wf
  | .pipeDecision _ _ => true
  | .oxbowReentry _ _ => true
  | .cellAllocation _ _ => true
  | .freeListRebuild _ => true
  | .confluenceSlot => true
  | .resequencerTimeout _ => true
  | .replication _ => true
  | .enqueue _ _ => true
  | .egressEnqueue _ => true
  | .packetBad _ _ => true
  | .pageWrite _ => true
  | .pageFlush _ => true
  | .pageReadBack _ => true
  | .laneRequest _ _ => true
  | .calendarEligible _ _ => true
  | .macFrameStart _ => true
  | .gateEntry _ => true
  | .gateChange w => w.wf
  | .gateListChangeTime _ => true
  | .lagMemberDown _ => true
  | .puntRecordWrite => true
  | .learnEngineStep => true
  | .agingVisit => true
  | .scrubStep _ => true
  | .patrolScrubVisit _ _ => true
  | .walkContextRelease _ => true
  | .leaseExp => true
  | .xtsKeyDraw _ => true
  | .rekey w => w.wf
  | .ppsInEdge => true
  | .ppsOutEdge => true
  | .bandwidthWindowEnd => true
  | .bandwidthReset w => w.wf
  | .monRun w => w.wf
  | .tagSeed w => w.wf
  | .counterDumpStart => true
  | .counterDumpEnd => true
  | .traceEnd _ => true
  | .traceTimeout _ => true
  | .eventRecordWrite => true
  | .evtGap => true
  | .eventWriteRetry => true
  | .alarmLevelClear w => w.wf
  | .ringReset w => w.wf
  | .drainComplete => true
  | .drainLimit => true
  | .enterStill => true
  | .masterTokenSend => true
  | .tokenReceived _ _ => true
  | .commitTokenReceived _ _ => true
  | .tokenComplete => true
  | .tokenLate => true
  | .tokenLost => true
  | .ringCommit => true
  | .recompute w => w.wf
  | .digestComplete => true
  | .committed w => w.wf
  | .sfcRecordSend _ => true
  | .mirrorChangeSend _ => true
  | .mirrorRefresh _ => true
  | .mirrorFrameReceived _ _ => true
  | .ringSwitch w => w.wf
  | .handover _ _ => true
  | .takeover _ _ => true
  | .silenceTimeout _ => true
  | .handoverTimeout _ => true
  | .imgErase w => w.wf
  | .imgProgram w => w.wf
  | .imgCheck w => w.wf
  | .setBoot w => w.wf
  | .confirm w => w.wf
  | .rollback w => w.wf
  | .keyProgram w => w.wf
  | .imgOpDone _ _ _ _ => true
  | .cmdCplHead _ _ _ => true
  | .deviceResetPin => true
  | .perstNRelease _ => true
  | .spareRowCopyDone _ => true
  | .holdoffUs => true
  | .burstResetPulse _ _ => true
  | .testAccessPort _ => true

end Sys2Proof
end

