-- ==== Sys2Proof/Certificates/Slice0/Obligations.lean ====
section
/-! DEFINITION. The statements about the model, each a rule of the spec or the model's own reading of one, as said. -/

open Sys2Proof Sys2Proof.Machine

/-! ### The queue of rows, and reset -/

/-- A step takes the row at the front of the queue and answers what exec answers on the rest; with nothing waiting one
tick ends. -/
def Obligations.StepExecutesFrontRow : Prop :=
  (∀ (s : State) (i : Instr) (rest : List Instr), s.pending = i :: rest → step s = exec i { s with pending := rest }) ∧
    ∀ s : State, s.pending = [] → step s = .next s.endTick

/-- Reset leaves the device in SPRING at tick 0 and network time 0 with every register word at its factory default, the
64 queues idle with nothing in their rings, no key valid and no key-unit lock held, and no packet, tree or event
(R53, R127, R459, R460). -/
def Obligations.ResetLeavesFactoryDefaults : Prop :=
  State.reset.mode = .spring ∧ State.reset.now = 0 ∧ State.reset.nt = 0 ∧ (∀ a, State.reset.raw a = regFactory a) ∧
    (∀ q, q < 64 → State.reset.qstate q = 0 ∧ State.reset.queue q = CmdQueue.fresh) ∧
    (∀ n, (State.reset.slot n).valid = false) ∧ State.reset.key.lock = none ∧ State.reset.cat.pkts = [] ∧
    (∀ t, State.reset.tree t = Tree.fresh) ∧ State.reset.evt = EvtUnit.fresh ∧ State.reset.pending = []

/-! ### Admission of commands -/

/-- A command row whose command the dispatcher cannot take, in the first tick in which it can look at it, changes nothing: the
command waits (R32, R72, R73, R78). -/
def Obligations.CommandsWaitUntilEligible : Prop :=
  ∀ (i : Instr) (s : State) (c : Cmd) (f : State → Option CmdRule) (r : CmdRule), hostRow i = some (c, f) →
    f (s.reach c.port) = some r → (s.reach c.port).eligible c r.opcode = false → exec i s = .next s

/-- Every command is checked in the order form, privilege and ownership, mode, arguments, and the first check that fails
decides (R33): a malformed header or a missing privilege is a violation, a mode that does not permit the command gives
REJECT_STATE, arguments out of range give REJECT_ARG; only a command that passes all four is executed. So it is of every
command that is taken in a tick with no fatal cause. -/
def Obligations.ChecksDecideInOrder : Prop :=
  ∀ (i : Instr) (s : State) (c : Cmd) (f : State → Option CmdRule) (r : CmdRule), hostRow i = some (c, f) →
    f (s.reach c.port) = some r → (s.reach c.port).eligible c r.opcode = true →
    ((s.reach c.port).readied c r).fatalNow = false →
    let a := s.taken c r
    let p := (s.taken c r).atStart.privOf c.port
    (∀ x, r.form = some x → exec i s = .next (s.violates c r 1 x.1 x.2 0 a)) ∧
    (r.form = none → c.port = .sp → r.spMay = false → exec i s = .next (s.violates c r 2 0x0D 0 0 a)) ∧
    (r.form = none → (c.port = .sp → r.spMay = true) →
      (∀ x, r.priv a.atStart p = some x → exec i s = .next (s.violates c r 2 x.1 x.2.1 x.2.2 a)) ∧
      (r.priv a.atStart p = none → a.atStart.modeOk c r = false →
        exec i s = .next (s.ends c r stRejectState 0 0
          ((a.monEv 1 c.port.num 2 (if c.port = .sp then 0 else 1)).bump 0x11001 1))) ∧
      (r.priv a.atStart p = none → a.atStart.modeOk c r = true → r.args a.atStart p = false →
        exec i s = .next (s.ends c r stRejectArg 0 0 a)) ∧
      (r.priv a.atStart p = none → a.atStart.modeOk c r = true → r.args a.atStart p = true →
        exec i s = .next
          (s.closes c r (a.settle c.port (c.header r.opcode) (a.seqOf c.port) (r.run a p (a.seqOf c.port))))))

/-- A violation freezes its queue and leaves a freeze record with stage, reason, sequence number, header, operand, object
and tick (R86, R545): for a command of one of the queues 1 to 63 that violates for any reason but 0x0D, its queue not under a
function-level reset. -/
def Obligations.ViolationFreezesItsQueue : Prop :=
  ∀ (s : State) (q : BitVec 6) (header : Word) (seq stage reason : Nat) (operand object : Word),
    q ≠ 0 → reason ≠ 0x0D → (s.queue q.toNat).resetDue = false →
    let t := s.violate (.queue q) header seq stage reason operand object
    t.qstate q.toNat = 2 ∧ (t.queue q.toNat).violating = some (seq, header) ∧ (t.queue q.toNat).exec = none ∧
      (List.range 8).map (fun i => t.raw (0x400 + 8 * q.toNat + i)) =
        freezeRecord stage reason seq header operand object s.tick48 ∧
      t.raw 0x11002 = s.raw 0x11002 + 1 ∧ t.tbl = s.tbl ∧ t.key.slots = s.key.slots ∧ t.trees = s.trees ∧
      t.cat = s.cat ∧ t.dsq = s.dsq ∧ t.mode = s.mode

/-- A command that ends, on a queue that asks for a record and has room for it, leaves the record of Table 3.2 at its
place in the completion ring, word 0 last (R75 to R77), counts it, and leaves LAST_SEQ naming the command and the queue
open for the next one in a later tick (R73, R74). On a full completion ring it stays in execution until the host makes
room (R78). -/
def Obligations.CompletionRecordIsWritten : Prop :=
  (∀ (s : State) (q : BitVec 6) (header : Word) (seq status progress result : Nat),
    (s.queue q.toNat).resetDue = false → (hdrSilent header = false ∨ status ≠ stDone) → hdrIrq header = false →
    s.cplRoom q.toNat = true →
    let t := s.finish (.queue q) header seq status progress result
    let r := cplRecord (s.queue q.toNat).phase seq status progress result s.tick48
    t.out = .hostWords (s.cplAddr q.toNat) (r.take 1) :: .hostWords (s.cplAddr q.toNat + 8) (r.drop 1) :: s.out ∧
      (t.queue q.toNat).cplWr = ((s.queue q.toNat).cplWr + 1) % 2 ^ 16 ∧ (t.queue q.toNat).exec = none ∧
      (t.queue q.toNat).retiredAt = some s.now ∧ t.raw (adQueue q.toNat 8) = toWord seq ∧ t.tbl = s.tbl ∧
      t.key.slots = s.key.slots ∧ t.trees = s.trees ∧ t.cat = s.cat ∧ t.dsq = s.dsq ∧ t.mode = s.mode ∧ t.now = s.now) ∧
  (∀ (s : State) (q : BitVec 6) (header : Word) (seq status progress result : Nat),
    (s.queue q.toNat).resetDue = false → (hdrSilent header = false ∨ status ≠ stDone) → s.cplRoom q.toNat = false →
    s.finish (.queue q) header seq status progress result =
      s.setExec q.toNat
        { header := header, seq := seq, progress := progress, wait := .room status progress result,
          since := ((s.queue q.toNat).exec.map (·.since)).getD s.now })

/-- A command that works over many ticks does a share of its work in each tick after that of its admission (R34, R97,
R122): of one that works alone in this tick, in which nothing of a higher level writes, the share is done, and what it leaves waits for the next tick, ends the
command or freezes its queue. -/
def Obligations.CommandsWorkInTheirTicks : Prop :=
  ∀ (s : State) (q : Nat) (e : Exec) (hold : Nat) (w : Work), s.running = true → s.claims = [] → s.jobQueues = [q] →
    (s.queue q).exec = some e → e.wait = .work hold w →
    let r := s.workTick (s.privOf (portOf q)) w e.progress
    (∀ st pr re t, r = .fin st pr re t → s.jobs = t.finishCmd q e.header e.seq st pr re) ∧
    (∀ pr w' t, r = .wait pr w' t → s.jobs = t.setExec q { e with progress := pr, wait := w' }) ∧
    (∀ n x y t, r = .viol n x y t → s.jobs = t.violate (portOf q) e.header e.seq 3 n x y) ∧
    let j := s.jobs.tickEnds.quiet 1
    s.endTick = ((s.jobs.tickEnds.dumpReads j).advance j).tickBegins

/-! ### Commands that do what they are for -/

/-- NOP returns its TAG; a READ of words that no uncorrectable error strikes in its tick completes: without a buffer it returns the
word as it stood at the start of the tick, and with one it gives the words to the host, in the admission tick or over the ticks
that the transfer takes; a FENCE ends at once where
nothing that it waits for is left, else it waits; THAW releases a frozen queue (R88, R89, R94, R96). -/
def Obligations.NopReadFenceThawComplete : Prop :=
  (∀ s c, s.accepts c (nopRule c) → exec (.nop c) s = .next 
    (s.ends c (nopRule c) stDone 0 c.args.toNat (s.taken c (nopRule c)))) ∧
  (∀ s c io, s.accepts c (readRule c io) → c.ops = [] →
    let a := s.taken c (readRule c io)
    a.struck (.reg (c.arg 24 0)) = false → exec (.read c io) s = .next
      (s.ends c (readRule c io) stDone 1 (a.atStart.view (c.arg 24 0)).toNat a)) ∧
  (∀ s c io w, s.accepts c (readRule c io) → c.ops = [w] →
    let a := s.taken c (readRule c io)
    let ws := (List.range (readCount c)).map (fun i => a.atStart.view (c.arg 24 0 + i))
    let r := (a.atStart.view (c.arg 24 0)).toNat
    (∀ i, i < readCount c → a.struck (.reg (c.arg 24 0 + i)) = false) →
    (io.took = 0 → exec (.read c io) s = .next
      (s.ends c (readRule c io) stDone (readCount c) r (a.emit (.hostWords (hostAddr w) ws)))) ∧
    (io.took ≠ 0 → exec (.read c io) s = .next
      (s.goesOn c (readRule c io) 0 (.work 0 (.give (hostAddr w) ws r io.took io.took)) a))) ∧
  (∀ s c, s.accepts c (fenceRule c) →
    let a := s.taken c (fenceRule c)
    let pipe := if c.flag0 then some a.now else none
    let others := if c.flag1 then (a.execs.filter (fun x => x.1 != 64)).map (fun x => (x.1, x.2.seq)) else []
    exec (.fence c) s = .next
      (if a.fenceWaits pipe others then s.goesOn c (fenceRule c) 0 (.fence pipe others) a else s.ends c (fenceRule c) stDone 0 0 a)) ∧
  (∀ s c, s.accepts c (thawRule c) →
    let a := s.taken c (thawRule c)
    let q := c.arg 5 0
    exec (.thaw c) s = .next
      (s.ends c (thawRule c) stDone 0 (((a.queue q).violating.map (·.1)).getD 0) (a.thaw q c.flag0)))

/-- A WRITE whose words nothing holds busy stores its words in its admission tick, and counts them; a MASK_WRITE replaces
the masked bits of its word and returns the word as it stood at the start of the tick, where no uncorrectable error strikes that
word in its tick; with a word held busy, or with the
service processor in reset a supervisor's write to one of its words, both end with REJECT_BUSY and change nothing (R41,
R93, R95). A word that a happening of a higher level has written in this tick keeps that value (R476). What a register's
write brings beside its word, its own rule says. -/
def Obligations.WritesStoreTheirWords : Prop :=
  ∀ (s : State) (c : Cmd) (masked : Bool), s.accepts c (writeRule c masked) →
    let a := s.taken c (writeRule c masked)
    let ws := writeWords c masked
    let held := a.writeHeld (a.atStart.privOf c.port) ws || a.atStart.writeBusy ws
    let result := if masked then (a.atStart.view (c.arg 24 0)).toNat else 0
    let i := if masked then Instr.maskWrite c else Instr.write c
    (masked = true → a.struck (.reg (c.arg 24 0)) = false) →
    (held = false → exec i s = .next (s.ends c (writeRule c masked) stDone ws.length result (a.writeRegs ws))) ∧
    (held = true → exec i s = .next (s.ends c (writeRule c masked) stRejectBusy 0 0 a)) ∧
    (a.claims = [] → a.writeRegs ws = ws.foldl (fun y w => y.wordHook a w) (ws.foldl State.storeWord a)) ∧
    ∀ w, ws = [w] → a.claimsWord w.addr = true → a.writeRegs ws = a

/-- A stored word takes the value in the RW and RWS fields that the mask reaches, clears the W1C bits written as 1, keeps
all else, and leaves every other word as it was (R51, R52). -/
def Obligations.StoredWordKeepsUnwrittenBits : Prop :=
  ∀ (s : State) (w : WordWrite), isAlarmWord w.addr = false →
    let t := s.storeWord w
    (∀ a, a ≠ w.addr → t.raw a = s.raw a) ∧
    (∀ i, i < 48 → (t.raw w.addr).getLsbD i =
      (((if (regSetMask w.addr).getLsbD i && w.mask.getLsbD i then w.value.getLsbD i else (s.raw w.addr).getLsbD i)) &&
        !((regClearMask w.addr).getLsbD i && w.mask.getLsbD i && w.value.getLsbD i))) ∧
    { t with regs := s.regs } = s

/-- A MODE command that passes its checks ends in its admission tick (R127, R129 to R131): with DONE and no effect where its
target is the mode at the start of the tick, RESULT showing that mode twice; with REJECT_BUSY and no effect where it would
leave WEIR under an EPOCH_COMMIT in execution; else it enters STILL, FLOW, WEIR or DRAIN by a change of mode, or DRY by the
fatal stop, with the old and the new mode in RESULT. -/
def Obligations.ModeCommandsChangeMode : Prop :=
  ∀ (s : State) (c : Cmd) (i : Instr), s.accepts c (modeRule c) →
    (modeTarget c, i) ∈ [(1, Instr.modeStill c), (2, Instr.modeFlow c), (3, Instr.modeWeir c), (4, Instr.modeDrain c),
      (5, Instr.modeDry c)] →
    let a := s.taken c (modeRule c)
    let m := a.start.mode
    let k := modeTarget c
    (k = m.code → exec i s = .next (s.ends c (modeRule c) stDone 0 (m.code * 8 + m.code) a)) ∧
    (k ≠ m.code → m = .weir → a.commitPending = true → exec i s = .next (s.ends c (modeRule c) stRejectBusy 0 0 a)) ∧
    (k ≠ m.code → (m = .weir → a.commitPending = false) →
      (∀ x, (k, x) ∈ [(1, Mode.still), (2, Mode.flow), (3, Mode.weir), (4, Mode.drain)] →
        exec i s = .next (s.ends c (modeRule c) stDone 0 (m.code * 8 + k) (a.changeMode x 0))) ∧
      (k = 5 → exec i s = .next (s.ends c (modeRule c) stDone 0 (m.code * 8 + 5)
        (a.fatal (if c.port = .sp then 2 else 1) (if c.port = .sp then 64 else 0) 0))))

/-- A change of mode enters the new mode with a tick of entry one after the present (R132), and a fatal cause in a mode
other than DRY enters DRY from the mode at the start of the tick, records the cause with its tick, ends a flash operation
under way and makes the fatal dump due (R149, R478, R548). -/
def Obligations.ModeChangeEntersMode : Prop :=
  (∀ (s : State) (m : Mode) (g : Nat),
    (s.changeMode m g).mode = m ∧ (s.changeMode m g).prevMode = s.mode ∧ (s.changeMode m g).modeTick = s.now + 1) ∧
  (∀ (s : State) (cause src detail : Nat), s.board.inReset = false → s.mode ≠ .dry → s.sp.held = false →
    let t := s.fatal cause src detail
    t.mode = .dry ∧ t.prevMode = s.start.mode ∧ t.modeTick = s.now + 1 ∧ t.now = s.now ∧
      t.raw 0x221 = mkWord [(40, cause), (24, src % 2 ^ 16), (0, detail % 2 ^ 24)] ∧ t.raw 0x222 = toWord s.tick48 ∧
      t.rf 0x220 47 45 = 1 ∧ t.img.op = none ∧ t.flt.dump.fatal = true)

/-- TBL_INSERT (R97 to R100, R370 to R372): an indexed entry is written in the admission tick; of a keyed table, behind a command
that changes the same table the insertion waits; a present key is replaced with REPLACE and else refused with its slot; a
new key goes to a free slot of its candidates in the admission tick, or the search for room goes on in the ticks that
follow. While the ring's digest reads the table the command is rejected as busy. TBL_DELETE clears VALID of an indexed
entry, and discards the packets of a queue; of a keyed table it removes every copy of the key, and NOT_FOUND tells that
there is none; behind a command that changes the same table it waits (R97, R98, R100, R376). TBL_SEARCH gives the words of
a valid entry to the host, in the admission tick or over the ticks that the transfer takes, or tells NOT_FOUND (R377). -/
def Obligations.TableCommandsComplete : Prop :=
  (∀ (s : State) (c : Cmd) (n : Nat), s.accepts c ((tblInsertRule c).meets n) →
    let a := (s.taken c ((tblInsertRule c).meets n)).wordsFixed n
    let t := tcTable c
    let p := (s.taken c ((tblInsertRule c).meets n)).atStart.privOf c.port
    let i := Insertion.fresh t c.ops
    (a.digestHolds t = true → exec (.tblInsert c n) s = .next (s.ends c ((tblInsertRule c).meets n) stRejectBusy 0 0 a)) ∧
    (a.digestHolds t = false → t = 0x10 → exec (.tblInsert c n) s = .next (s.ends c ((tblInsertRule c).meets n) stDone 0 (tcIndex c)
      (((a.setEntry t (tcIndex c) c.ops).putBucket (ndMeter (tcIndex c)) 0 none).putBucket (ndMeter (tcIndex c)) 1 none))) ∧
    (a.digestHolds t = false → t = 0x12 ∨ t = 0x13 →
      exec (.tblInsert c n) s = .next (s.ends c ((tblInsertRule c).meets n) stDone 0 (tcIndex c) (a.setEntry t (tcIndex c) c.ops))) ∧
    (a.digestHolds t = false → t = 0x11 → a.dqValid (tcIndex c) = false → a.atStart.dqValid (tcIndex c) = false →
      exec (.tblInsert c n) s = .next
      (s.ends c ((tblInsertRule c).meets n) stDone 0 (tcIndex c) ((a.setEntry t (tcIndex c) c.ops).freshQueue (tcIndex c)))) ∧
    (a.digestHolds t = false → tblKeyed t = true → a.tableTaken t a.now = true →
      exec (.tblInsert c n) s = .next (s.goesOn c ((tblInsertRule c).meets n) 0 (.work 0 (.insert i c.flag0)) a)) ∧
    (a.digestHolds t = false → tblKeyed t = true → a.tableTaken t a.now = false →
      let a := a.stepsOn t
      (∀ slot old, a.findEntry t (entryKey t c.ops) = some (slot, old) → foundOwned p t old = true →
        (c.flag0 = false → exec (.tblInsert c n) s = .next (s.ends c ((tblInsertRule c).meets n) stRejectArg 0 slot a)) ∧
        (c.flag0 = true → t ≠ 1 → exec (.tblInsert c n) s = .next
          (s.ends c ((tblInsertRule c).meets n) stDone 0 slot (a.replaceEntry t old c.ops)))) ∧
      (a.findEntry t (entryKey t c.ops) = none → a.filterOk t c.ops = true →
        (∀ slot, a.insertStep i (fun _ => false) = .room slot → exec (.tblInsert c n) s = .next
          (s.ends c ((tblInsertRule c).meets n) stDone 0 slot (a.insertAt t slot c.ops))) ∧
        (∀ j u, a.insertStep i (fun _ => false) = .more j u → exec (.tblInsert c n) s = .next
          (s.goesOn c ((tblInsertRule c).meets n) j.moves (.work 0 (.insert j c.flag0)) u))))) ∧
  (∀ s c, s.accepts c ((tblDeleteRule c).reads) →
    let a := (s.taken c ((tblDeleteRule c).reads)).someFixed
    let t := tcTable c
    let n := entryWords t - 1
    let ws := a.atStart.entry t (tcIndex c)
    (a.digestHolds t = true → exec (.tblDelete c) s = .next (s.ends c ((tblDeleteRule c).reads) stRejectBusy 0 0 a)) ∧
    (a.digestHolds t = false → tblKeyed t = false →
      (bitOf (nth ws n 0) 47 = false → exec (.tblDelete c) s = .next (s.ends c ((tblDeleteRule c).reads) stDone 0 (tcIndex c) a)) ∧
      (bitOf (nth ws n 0) 47 = true → exec (.tblDelete c) s = .next (s.ends c ((tblDeleteRule c).reads) stDone 1 (tcIndex c)
        ((if t = 0x11 then a.emptyQueue (.set dqDeleted) (tcIndex c) else a).setEntry t (tcIndex c)
          (updAt (a.entry t (tcIndex c)) n (fun w => w &&& ~~~(maskOf 47 47))))))) ∧
    (a.digestHolds t = false → tblKeyed t = true →
      (a.tableTaken t a.now = true →
        exec (.tblDelete c) s = .next (s.goesOn c ((tblDeleteRule c).reads) 0 (.work 0 (.delete t c.ops)) a)) ∧
      let b := a.stepsOn t
      (a.tableTaken t a.now = false → b.findEntry t c.ops = none →
        exec (.tblDelete c) s = .next (s.ends c ((tblDeleteRule c).reads) stNotFound 0 0 b)) ∧
      (∀ slot ws, a.tableTaken t a.now = false → b.findEntry t c.ops = some (slot, ws) →
        foundOwned (a.atStart.privOf c.port) t ws = true →
        exec (.tblDelete c) s = .next (s.ends c ((tblDeleteRule c).reads) stDone 1 slot (b.removeKey t c.ops))))) ∧
  (∀ s c io, s.accepts c ((tblSearchRule c io).reads) →
    let a := (s.taken c ((tblSearchRule c io).reads)).someFixed
    let t := tcTable c
    let ws := a.atStart.entry t (tcIndex c)
    (tblKeyed t = true → a.foundEntry t (c.ops.drop 1) = none →
      exec (.tblSearch c io) s = .next (s.ends c ((tblSearchRule c io).reads) stNotFound 0 0 a)) ∧
    (tblKeyed t = false → entryValid t ws = false →
      exec (.tblSearch c io) s = .next (s.ends c ((tblSearchRule c io).reads) stNotFound 0 0 a)) ∧
    ∀ slot xs, (if tblKeyed t then a.foundEntry t (c.ops.drop 1) = some (slot, xs) ∧
        foundOwned (a.atStart.privOf c.port) t xs = true else entryValid t ws = true ∧ slot = tcIndex c ∧ xs = ws ∧
        a.struck (.indexed (t * 2 ^ 24 + slot)) = false) →
      xs ≠ [] →
      (io.took = 0 → exec (.tblSearch c io) s = .next
        (s.ends c ((tblSearchRule c io).reads) stDone xs.length slot (a.emit (.hostWords (hostAddr (c.op 0)) xs)))) ∧
      (io.took ≠ 0 → exec (.tblSearch c io) s = .next
        (s.goesOn c ((tblSearchRule c io).reads) 0 (.work 0 (.give (hostAddr (c.op 0)) xs slot io.took io.took)) a)))

/-- TBL_NEXT and TBL_FLUSH_PORT begin at their admission and examine 4 slots in each tick after it (R101 to R103, R374, R375,
R386). A walk gives its entries with their descriptors to the host, keeps its place in its context, and ends with the
cursor, or with 0 when the walk is complete; a flush removes the entries of the bridge port that it finds, and its last
tick returns their number. A cursor of 0 with no context free is busy, and one of no context an error. -/
def Obligations.WalksAndFlushesComplete : Prop :=
  (∀ s c n, s.accepts c ((tblNextRule c).meets n) →
    let a := (s.taken c ((tblNextRule c).meets n)).wordsFixed n
    (∀ st, a.walkFor (tcTable c) (c.op 1) = .inl st → exec (.tblNext c n) s = .next (s.ends c ((tblNextRule c).meets n) st 0 0 a)) ∧
    (∀ x w, a.walkFor (tcTable c) (c.op 1) = .inr (x, w) → exec (.tblNext c n) s = .next
      (s.goesOn c ((tblNextRule c).meets n) 0 (.work 0 (.walk x (c.arg 11 0 + 1) (hostAddr (c.op 0)) 0))
        ((if c.op 1 = 0 then a.drew else a).setWalk x (some { w with used := a.now }))))) ∧
  (∀ (s : State) (p : Priv) (x want addr n : Nat) (w : Walk), s.walk x = some w →
    let r := s.walkTake p w want
    let ws := r.1.flatMap Found.record
    let b := if ws.isEmpty then s else s.emit (.hostWords addr ws)
    let k := n + r.1.length
    (r.2.complete = true →
      s.workTick p (.walk x want addr n) n = .fin stDone k 0 (b.setWalk x none)) ∧
    (r.2.complete = false → want = r.1.length ∨ r.2.slot = r.2.stop →
      s.workTick p (.walk x want addr n) n = .fin stDone k w.cursor.toNat (b.setWalk x (some r.2))) ∧
    (r.2.complete = false → want ≠ r.1.length → r.2.slot ≠ r.2.stop →
      s.workTick p (.walk x want addr n) n =
        .wait k (.work 0 (.walk x (want - r.1.length) (addr + 8 * ws.length) k)) (b.setWalk x (some r.2)))) ∧
  (∀ s c n, s.accepts c ((tblFlushPortRule c).meets n) →
    exec (.tblFlushPort c n) s = .next (s.goesOn c ((tblFlushPortRule c).meets n) (c.op 0).toNat
      (.work 0 (.flush (c.arg 15 0) c.flag0 (c.op 0).toNat 0)) ((s.taken c ((tblFlushPortRule c).meets n)).wordsFixed n))) ∧
  (∀ (s : State) (p : Priv) (port slot removed prog : Nat) (all : Bool),
    let s' := s.stepsOn 1
    let gone := (s'.keyedAll 1).filter (fun x =>
      Nat.ble slot x.1 && Nat.blt x.1 (slot + 4) && macPort x.2 == port && (all || !macStatic x.2))
    let u := gone.foldl (fun s x => s.removeSlot 1 x.1) s'
    let n := removed + gone.length
    (macSlots ≤ slot + 4 → s.workTick p (.flush port all slot removed) prog = .fin stDone macSlots n u) ∧
    (slot + 4 < macSlots → s.workTick p (.flush port all slot removed) prog =
      .wait (slot + 4) (.work 0 (.flush port all (slot + 4) n)) u))

/-- RULE_STAGE writes or invalidates an entry of the staging copy, in the admission tick or over the ticks that the writing
takes, GEN_SWAP makes that copy active and waits for the other to retire (R105, R106), SLUICE_LOAD marks the shadow bank
not valid and writes words of it, and with LAST makes a well-formed bank valid, and SLUICE_SWAP waits for the tree's next
boundary (R107, R108). -/
def Obligations.StagingCommandsComplete : Prop :=
  (∀ s c io, s.accepts c (ruleStageRule c io) →
    let a := s.taken c (ruleStageRule c io)
    let t := tcTable c
    let first := if t = 0x22 then rsFirst c else 0
    let waits := Wait.work 0 (.stage t (rsIndex c) first c.ops io.took io.took)
    (a.atStart.retiring = true → exec (.ruleStage { cmd := c, io := io }) s = .next (s.ends c (ruleStageRule c io) stRejectBusy 0 0 a)) ∧
    (a.atStart.retiring = false → a.tableTaken t a.now = true →
      exec (.ruleStage { cmd := c, io := io }) s = .next (s.goesOn c (ruleStageRule c io) 0 waits a)) ∧
    (a.atStart.retiring = false → a.tableTaken t a.now = false →
      (c.flag0 = true → exec (.ruleStage { cmd := c, io := io }) s = .next
        (s.ends c (ruleStageRule c io) stDone 1 0 (a.stageWords t (rsIndex c) 0 []))) ∧
      (c.flag0 = false → io.took = 0 → exec (.ruleStage { cmd := c, io := io }) s = .next
        (s.ends c (ruleStageRule c io) stDone c.ops.length 0 (a.stageWords t (rsIndex c) first c.ops))) ∧
      (c.flag0 = false → io.took ≠ 0 → exec (.ruleStage { cmd := c, io := io }) s = .next (s.goesOn c (ruleStageRule c io) 0 waits a)))) ∧
  (∀ s c, s.accepts c (genSwapRule c) → (s.taken c (genSwapRule c)).atStart.retiring = false →
    (s.taken c (genSwapRule c)).swapHeld = false →
    let a := s.taken c (genSwapRule c)
    exec (.genSwap c) s = .next (s.goesOn c (genSwapRule c) 0 .genSwap (a.swapGenerations c.flag0)) ∧
      (a.swapGenerations c.flag0).activeCopy = !a.activeCopy) ∧
  (∀ s c io, s.accepts c (sluiceLoadRule c io) →
    let a := s.taken c (sluiceLoadRule c io)
    let t := c.arg 6 0
    let b := 1 - a.bankActive t
    let start := fld (c.op 1) 11 0
    let n := sluiceCount c
    let ws := takePad n 0 (io.slots.map wordOf)
    let v := a.setBankValid t b false
    let x := v.setRegs (adBank t (1 - v.bankActive t) start) ws
    a.swapDue t = false → (a.commitPending && a.sluMasked t) = false →
    (io.took ≠ 0 → exec (.sluiceLoad c io) s = .next
      (s.goesOn c (sluiceLoadRule c io) 0 (.work 0 (.load t start ws c.flag0 io.took io.took)) v)) ∧
    (io.took = 0 → c.flag0 = false → exec (.sluiceLoad c io) s = .next (s.ends c (sluiceLoadRule c io) stDone n 0 x)) ∧
    (io.took = 0 → c.flag0 = true → sluBadWord (fun i => x.raw (adBank t (1 - x.bankActive t) i)) = none →
      exec (.sluiceLoad c io) s = .next (s.ends c (sluiceLoadRule c io) stDone n 0 (x.setBankValid t (1 - x.bankActive t) true))) ∧
    (∀ w, io.took = 0 → c.flag0 = true → sluBadWord (fun i => x.raw (adBank t (1 - x.bankActive t) i)) = some w →
      exec (.sluiceLoad c io) s = .next (s.violates c (sluiceLoadRule c io) 3 0x0B (toWord w) (toWord t) x))) ∧
  (∀ s c, s.accepts c (sluiceSwapRule c) →
    let a := s.taken c (sluiceSwapRule c)
    let t := c.arg 6 0
    a.swapDue t = false → (a.commitPending && a.sluMasked t) = false → a.bankValid t (1 - a.bankActive t) = true →
    exec (.sluiceSwap c) s = .next (s.goesOn c (sluiceSwapRule c) 0 (.sluiceSwap t) a))

/-- The ONU_OP operations complete (R61, R251, R252, R253, R255, R256): each on a tree that is not a standby one at the start of its
tick, and but for ADMIT on an entry then in use. -/
def Obligations.OnuOperationsComplete : Prop :=
  (∀ s c r, onuAdmitRow c = some r → s.accepts c r → onuOp c = 0 →
    (s.taken c r).atStart.standby (onuArg c / 512) = false →
    let h := onuArg c
    let x := (s.taken c r).setRegs (adOnu h 0)
      [setFld (c.op 0) 47 47 1, c.op 1, setFld (c.op 2) 31 20 0, c.op 3, c.op 4, 0, 0, c.op 7 &&& maskOf 25 0]
    exec (.onuAdmit c) s = .next (s.ends c r stDone 1 0
      ((((x.clearOnuSlots h).setLoss h 0 0).setLoss h 1 0).clearDsk h |>.noteChanged h))) ∧
  (∀ s c r, onuUpdateRow c = some r → s.accepts c r → onuOp c = 1 →
    let a := s.taken c r
    let h := onuArg c
    let i := fld (c.op 0) 2 0
    let new := merge (a.raw (adOnu h i)) (c.op 1) (c.op 2)
    a.atStart.standby (h / 512) = false → a.atStart.onuUsed h = true → (i = 0 → onuWord0Ok new = true) →
    exec (.onuUpdate c) s = .next (s.ends c r stDone 1 (a.raw (adOnu h i)).toNat
      ((a.setReg (adOnu h i) new).settleDeficits (h / 512)))) ∧
  (∀ s c r, onuRemoveRow c = some r → s.accepts c r → onuOp c = 2 →
    let a := s.taken c r
    a.atStart.standby (onuArg c / 512) = false → a.atStart.onuUsed (onuArg c) = true →
    exec (.onuRemove c) s = .next (s.ends c r stDone 1 0 (a.removeOnu (onuArg c)))) ∧
  (∀ s c r, setOwnerRow c = some r → s.accepts c r → onuOp c = 3 →
    let a := s.taken c r
    a.atStart.standby (onuArg c / 512) = false → a.atStart.onuUsed (onuArg c) = true →
    exec (.setOwner c) s = .next (s.ends c r stDone 1 0 (a.setRf (adOnu (onuArg c) 0) 43 38 (fld (c.op 0) 5 0)))) ∧
  (∀ s c r, bindAllocRow c = some r → s.accepts c r → onuOp c = 4 →
    let a := s.taken c r
    let h := onuArg c
    a.atStart.standby (h / 512) = false → a.atStart.onuUsed h = true → a.rf (adOnu h 2) 31 20 ≠ 4095 →
    exec (.bindAlloc c) s = .next (s.ends c r stDone 1 0
      (((a.setAlloc (bindHandle c) (some (h, fld (c.op 0) 31 18))).setBucket (bindHandle c) 0).setRf (adOnu h 2) 31 20
        (a.rf (adOnu h 2) 31 20 + 1)))) ∧
  (∀ s c r n, unbindAllocRow c = some r → s.accepts c r → onuOp c = 5 →
    let a := s.taken c r
    let h := onuArg c
    a.atStart.standby (h / 512) = false → a.atStart.onuUsed h = true → a.alloc (bindHandle c) = some (h, n) →
    exec (.unbindAlloc c) s = .next (s.ends c r stDone 1 0
      (((a.setAlloc (bindHandle c) none).setBucket (bindHandle c) 0).setRf (adOnu h 2) 31 20
        (a.rf (adOnu h 2) 31 20 - 1)))) ∧
  (∀ s c r, setEqdRow c = some r → s.accepts c r → onuOp c = 6 →
    let a := s.taken c r
    a.atStart.standby (onuArg c / 512) = false → a.atStart.onuUsed (onuArg c) = true →
    exec (.setEqd c) s = .next (s.ends c r stDone 1 0
      (a.setEqd (onuArg c) (fld (c.op 0) 26 26) (bitOf (c.op 0) 47) (fld (c.op 0) 25 0))))

/-- MSG_SEND queues one copy of its message on each lane that it names and is in service, and then waits for it to be framed
(R110 to R112): a PLOAM message to one ONU, a PLOAM broadcast, or an OMCI message, whose octets come in the admission tick
or over the ticks that the transfer takes. So it is where its entry, its lanes and their queues at the start of the tick admit
it. -/
def Obligations.MessagesAreQueuedOnTheirLanes : Prop :=
  (∀ (s : State) (c : Cmd) (io : HostIo) (i : Instr) (bs : List Byte) (r : CmdRule),
    let a := s.taken c r
    let t := a.msgTree c
    let ls := a.msgLanes c
    ((i = .ploamUnicast c ∧ ploamRow 0 c = some r ∧ bs = a.ploamOctets c) ∨
      (i = .ploamBroadcast c ∧ ploamRow 1 c = some r ∧ bs = a.ploamOctets c) ∨
      (i = .omci c io ∧ msgType c = 2 ∧ omciRow c io = some r ∧ io.took = 0 ∧ bs = takePad (c.op 1).toNat 0 io.octets)) →
    s.accepts c r → (msgType c = 1 ∨ a.atStart.onuUsed (onuArg c) = true) → a.atStart.msgLanes c ≠ [] →
    (∀ l ∈ a.atStart.msgLanes c, (a.atStart.lane (a.atStart.msgTree c) l).msgs.length < 64) →
    let m : Msg :=
      { id := a.msgNext, kind := msgType c, handle := if msgType c = 1 then t else onuArg c, octets := bs, sent := 0 }
    let x := ls.foldl (fun y l => y.setLane t l { y.lane t l with msgs := (y.lane t l).msgs ++ [m] }) a
    exec i s = .next (s.goesOn c r 0 (.message a.msgNext 0)
      { x with msgNext := x.msgNext + 1, free := x.free + b2n (msgType c == 1) })) ∧
  ∀ (s : State) (c : Cmd) (io : HostIo) (r : CmdRule), omciRow c io = some r → s.accepts c r → io.took ≠ 0 →
    (s.taken c r).atStart.msgRefused c = none → exec (.omci c io) s = .next (s.goesOn c r 0 (.work 0 (.omci c io.octets io.took)) (s.taken c r))

/-- KEY_LOCK takes a free lock for its queue, leaves it with the queue that holds it, reports another holder with
REJECT_BUSY, and releases it for its holder; a release by any other queue is a violation (R113). -/
def Obligations.KeyLockFollowsItsHolder : Prop :=
  ∀ (s : State) (c : Cmd), s.accepts c (keyLockRule c) →
    let a := s.taken c (keyLockRule c)
    let me := c.port.num
    (c.flag0 = true → a.atStart.key.lock = none → exec (.keyLock c) s = .next
      (s.ends c (keyLockRule c) stDone 0 (64 + me) { a with key := { a.key with lock := some (me, a.now) } })) ∧
    (∀ e, c.flag0 = true → a.atStart.key.lock = some (me, e) → exec (.keyLock c) s = .next (s.ends c (keyLockRule c) stDone 0 (64 + me) a)) ∧
    (∀ h e, c.flag0 = true → a.atStart.key.lock = some (h, e) → h ≠ me →
      exec (.keyLock c) s = .next (s.ends c (keyLockRule c) stRejectBusy 0 (64 + h) a)) ∧
    (∀ e, c.flag0 = false → a.atStart.key.lock = some (me, e) →
      exec (.keyLock c) s = .next (s.ends c (keyLockRule c) stDone 0 0 { a with key := { a.key with lock := none } })) ∧
    (c.flag0 = false → (∀ e, a.atStart.key.lock ≠ some (me, e)) →
      exec (.keyLock c) s = .next (s.violates c (keyLockRule c) 3 0x0A 0 0 a))

/-- The KEY_OP operations that write a slot (R449, R450, R452): LOAD, GEN, ERASE, ECB_DEC_SLOT and UNWRAP begin in their admission
tick, end in it where the operation takes none beyond it, and else in the last tick of their work; SET_ATTR ends at once.
Each changes the slot that it names and no other; UNWRAP changes none where the check fails. The key that GEN draws is a
free value. -/
def Obligations.KeySlotOperationsComplete : Prop :=
  (∀ (s : State) (c : Cmd) (io : HostIo) (i : Instr), (Cmd.keyOp c, i) ∈ [(0, Instr.keyLoad c io), (1, Instr.keyGen c io),
      (5, Instr.ecbDecSlot c io), (9, Instr.unwrap c io)] →
    ∀ r, keyRow c (Cmd.keyOp c) (keyStart c io) = some r → s.accepts c r → (s.taken c r).keyReady c →
    (keyTook c io ≠ 0 → exec i s = .next
      (s.goesOn c r 0 (.work 0 (.key c io (keyTook c io) (keyTook c io))) (s.taken c r))) ∧
    (keyTook c io = 0 → Cmd.keyOp c = 0 → exec i s = .next (s.ends c r stDone 16 16
      ((s.taken c r).loadSlot (c.op 1).toNat (keyOf (takePad 16 0 (bytesNat io.octets)))))) ∧
    (keyTook c io = 0 → Cmd.keyOp c = 1 → exec i s = .next (s.ends c r stDone 0 16
      ((s.taken c r).loadSlot (c.op 1).toNat (Config.freeKey (s.taken c r).free)).drew))) ∧
  (∀ s c r, keyRow c 2 (keyStart c { slots := [], octets := [], took := 0 }) = some r → s.accepts c r →
    Cmd.keyOp c = 2 → (s.taken c r).keyReady c →
    exec (.keyErase c) s = .next (s.ends c r stDone 0 0 ((s.taken c r).wipeSlot (c.op 1).toNat))) ∧
  (∀ s c r, keyRow c 0xB (setAttrWork c) = some r → s.accepts c r → Cmd.keyOp c = 0xB → (s.taken c r).keyReady c →
    let a := s.taken c r
    let n := Cmd.keySlot c
    exec (.setAttr c) s = .next (s.ends c r stDone 0 0
      (a.setSlot n { a.slot n with kind := fld (c.op 0) 46 44, owner := fld (c.op 0) 43 38 }))) ∧
  (∀ (s : State) (p : Priv) (c : Cmd) (io : HostIo) (took prog : Nat), (keyTarget c).any s.invalNow = false →
    let n := (c.op 1).toNat
    let last := s.workTick p (.key c io took 1) prog
    let x := s.monEv 5 0 1 12
    (Cmd.keyOp c = 0 → last = .fin stDone 16 16 (s.loadSlot n (keyOf (takePad 16 0 (bytesNat io.octets))))) ∧
    (Cmd.keyOp c = 1 → last = .fin stDone 0 16 (s.loadSlot n (Config.freeKey s.free)).drew) ∧
    (Cmd.keyOp c = 5 → last = .fin stDone 16 16
      ((s.loadSlot n (keyOf (aesDec (s.slotKey (Cmd.keySlot c)) (takePad 16 0 (bytesNat io.octets))))).monEv 5 0 1 1)) ∧
    (Cmd.keyOp c = 9 → ∀ k, aesUnwrap (x.slotKey (Cmd.keySlot c)) (takePad 24 0 (bytesNat io.octets)) = some k →
      last = .fin stDone 24 16 (x.loadSlot n (keyOf k))) ∧
    (Cmd.keyOp c = 9 → aesUnwrap (x.slotKey (Cmd.keySlot c)) (takePad 24 0 (bytesNat io.octets)) = none →
      last = .fin stTagFail 0 0 (x.bump 0x70011 1))) ∧
  ∀ (s : State) (n m : Nat) (k : BitVec 128), m ≠ n →
    ((s.loadSlot n k).slot n).valid = true ∧ ((s.loadSlot n k).slot n).key = k ∧ (s.loadSlot n k).slot m = s.slot m ∧
      ((s.wipeSlot n).slot n).valid = false ∧ ((s.wipeSlot n).slot n).key = 0 ∧ (s.wipeSlot n).slot m = s.slot m

/-- The KEY_OP operations that give octets to the host or judge them (R449, R451, R452): ECB_ENC, ECB_DEC, CMAC_GEN, CMAC_VERIFY
and WRAP begin in their admission tick, and their last tick gives the tag or the wrapped key, or the verdict; ECB gives
whole blocks as they are done. SET_TX waits for its frame (R438). -/
def Obligations.KeyDataOperationsComplete : Prop :=
  (∀ (s : State) (c : Cmd) (io : HostIo) (i : Instr), (Cmd.keyOp c, i) ∈ [(3, Instr.ecbEnc c io), (4, Instr.ecbDec c io),
      (6, Instr.cmacGen c io), (7, Instr.cmacVerify c io), (8, Instr.wrap c io)] →
    ∀ r, keyRow c (Cmd.keyOp c) (keyStart c io) = some r → s.accepts c r → (s.taken c r).keyReady c →
    0 < keyBlocks c → exec i s = .next
      (s.goesOn c r 0 (.work 0 (.key c io (keyTook c io) (keyTook c io))) (s.taken c r))) ∧
  (∀ s c t r, keyRow c 0xA (setTxWork c) = some r → s.accepts c r → Cmd.keyOp c = 0xA → (s.taken c r).keyReady c →
    let a := s.taken c r
    let n := Cmd.keySlot c
    let target := (c.op 0).toNat
    (if n < keyGeneral then some (n / 1024) else a.atStart.grpTree (n / 2 * 2)) = some t →
    a.atStart.txPending (n / 2 * 2) = none →
    exec (.setTx c) s = .next (s.goesOn c r 0 (.setTx n t target) a)) ∧
  (∀ (s : State) (p : Priv) (c : Cmd) (io : HostIo) (took prog : Nat),
    let key := s.slotKey (Cmd.keySlot c)
    let n := (c.op 2).toNat
    let l := takePad n 0 (bytesNat io.octets)
    let last := s.workTick p (.key c io took 1) prog
    let x := s.monEv 5 0 1 (keyBlocks c)
    let blocks := (l.drop (16 * (prog / 16))).take (16 * (n / 16 - prog / 16))
    (Cmd.keyOp c = 3 ∨ Cmd.keyOp c = 4 → prog / 16 < n / 16 →
      let o := natBytes (if Cmd.keyOp c = 3 then aesEcbEnc key blocks else aesEcbDec key blocks)
      last = .fin stDone (16 * (n / 16)) (16 * (n / 16))
        ((s.emit (.hostOctets (hostAddr (c.op 1) + 16 * (prog / 16)) o)).monEv 5 0 1 (n / 16 - prog / 16))) ∧
    (Cmd.keyOp c = 6 → last = .fin stDone n 16
      ((s.emit (.hostOctets (hostAddr (c.op 1)) (natBytes (aesCmac key l)))).monEv 5 0 1 (keyBlocks c))) ∧
    (Cmd.keyOp c = 7 → last =
      if aesCmac (x.slotKey (Cmd.keySlot c)) (l.take (n - 16)) = l.drop (n - 16) then .fin stDone n 0 x
      else .fin stTagFail 0 0 (x.bump 0x70011 1)) ∧
    (Cmd.keyOp c = 8 → last = .fin stDone 24 24
      ((s.emit (.hostOctets (hostAddr (c.op 1)) (natBytes (aesWrap key (s.slotKey (c.op 0).toNat))))).monEv 5 0 1 12)))

/-- CRC_SCAN loads its unit and scans 32 host octets, or one device word, in each tick after its admission, its last tick
returning the octets scanned and the final value; CTR_SNAP gives the host a counter group as at the start of the tick and
with CLEAR clears it; DUMP_CFG sets the counter-dump area or the host fatal dump area (R115, R116, R503 to R506, R516,
R524, R550). -/
def Obligations.ScanSnapAndDumpConfigComplete : Prop :=
  (∀ s c io, s.accepts c (crcScanRule c io) →
    let a := s.taken c (crcScanRule c io)
    let n := c.arg 1 0
    let len := (c.op 1).toNat
    let x := a.crcScan n c.flag1 []
    (a.crcBusy n = true → exec (.crcScan c io) s = .next (s.ends c (crcScanRule c io) stRejectBusy 0 0 a)) ∧
    (a.crcBusy n = false → c.flag0 = true → exec (.crcScan c io) s = .next
      (s.goesOn c (crcScanRule c io) 0 (.work 0 (.scanHost n (takePad len 0 io.octets))) x)) ∧
    (a.crcBusy n = false → c.flag0 = false → exec (.crcScan c io) s = .next
      (s.goesOn c (crcScanRule c io) 0 (.work 0 (.scanWords n (c.op 0).toNat len)) x))) ∧
  (∀ (s : State) (p : Priv) (n prog : Nat) (bs : List Byte),
    let t := (s.crcScan n true (bs.take 32)).monEv 4 n 1 (min 32 bs.length)
    let k := prog + min 32 bs.length
    (bs.length ≤ 32 → s.workTick p (.scanHost n bs) prog = .fin stDone k (t.crcVal n 9 % 2 ^ 48) t) ∧
    (32 < bs.length → s.workTick p (.scanHost n bs) prog = .wait k (.work 0 (.scanHost n (bs.drop 32))) t)) ∧
  (∀ (s : State) (p : Priv) (n w left prog : Nat), 0 < left →
    let t := (s.crcScan n true (wordsOctets [s.atStart.view w])).monEv 4 n 1 6
    (left = 1 → s.workTick p (.scanWords n w left) prog = .fin stDone (prog + 6) (t.crcVal n 9 % 2 ^ 48) t) ∧
    (1 < left → s.workTick p (.scanWords n w left) prog =
      .wait (prog + 6) (.work 0 (.scanWords n (w + 1) (left - 1))) t)) ∧
  (∀ s c io, s.accepts c (ctrSnapRule c io) →
    let a := s.taken c (ctrSnapRule c io)
    let g := c.arg 15 0
    let ws := a.atStart.groupSnap (a.atStart.privOf c.port) g
    let x := if c.flag0 then a.groupClear g else a
    (io.took = 0 → exec (.ctrSnap c io) s = .next (s.ends c (ctrSnapRule c io) stDone ws.length (a.now % 2 ^ 48)
      (if ws.isEmpty then x else x.emit (.hostWords (hostAddr (c.op 0)) ws)))) ∧
    (io.took ≠ 0 → exec (.ctrSnap c io) s = .next (s.goesOn c (ctrSnapRule c io) 0
      (.work 0 (.give (hostAddr (c.op 0)) ws (a.now % 2 ^ 48) io.took io.took)) x))) ∧
  (∀ s c, s.accepts c (dumpCfgRule c) → dumpKind c = 0 →
    exec (.counterDumpCfg c) s = .next (s.ends c (dumpCfgRule c) stDone 0 0
      ((s.taken c (dumpCfgRule c)).setDumpArea (hostAddr (c.op 0)) ((c.op 1).toNat * 1024) (c.op 2).toNat))) ∧
  (∀ s c, s.accepts c (dumpCfgRule c) → dumpKind c = 1 →
    let a := s.taken c (dumpCfgRule c)
    exec (.fatalDumpCfg c) s = .next (s.ends c (dumpCfgRule c) stDone 0 0
      { a with flt := { a.flt with dump := { a.flt.dump with
          area := if (c.op 1).toNat = 0 then none else some (hostAddr (c.op 0), (c.op 1).toNat) } } }))

/-- Commands of the epoch, of retirement, of defaults and of network time complete (R464, R484, R486, R538 to R541, R573, R574):
DEFAULTS visits 64 words of its block in each tick after its admission, and its last tick returns their number. -/
def Obligations.SystemCommandsComplete : Prop :=
  (∀ s c, s.accepts c (epochBeginRule c) →
    exec (.epochBegin c) s = .next
      (s.ends c (epochBeginRule c) stDone 0 (epochArg c) ((s.taken c (epochBeginRule c)).beginEpoch (epochArg c)))) ∧
  (∀ s c, s.accepts c (epochCommitRule c) → (s.taken c (epochCommitRule c)).stageHeld = false →
    (s.taken c (epochCommitRule c)).commitPending = false →
    let a := s.taken c (epochCommitRule c)
    exec (.epochCommit c) s = .next
      (s.goesOn c (epochCommitRule c) 0 .epoch ((a.pendCommit a.commitTime).sendToken (some a.commitTime)))) ∧
  (∀ s c, s.accepts c (retireRule c) →
    let a := s.taken c (retireRule c)
    let k := resClass c
    let i := resIndex c
    (a.isRetired k i = true → exec (.retire c) s = .next (s.ends c (retireRule c) stDone 0 0 a)) ∧
    (a.isRetired k i = false → (k = 3 → a.pcMoving = false) → (a.retiredOf k).length < resLimit k →
      (k = 4 → a.freeSpare i ≠ none) →
      let e := a.retireEffect k i
      let x := ((e.1.clearHist k i).logRetire k i false).alarm 11 0x021 k i
      exec (.retire c) s = .next
        (match e.2 with
          | some w => s.goesOn c (retireRule c) 0 w x
          | none => s.ends c (retireRule c) stDone 0 0 x))) ∧
  (∀ s c, s.accepts c (restoreRule c) →
    let a := s.taken c (restoreRule c)
    let k := resClass c
    let i := resIndex c
    (a.isRetired k i = false → (k = 3 → a.rb (adPc i) 20 = false) →
      exec (.restore c) s = .next (s.ends c (restoreRule c) stDone 0 0 a)) ∧
    (a.isRetired k i = true →
      (k = 0 → exec (.restore c) s = .next (s.ends c (restoreRule c) stDone 0 0
        ((a.changeLane (i / 2) (i % 2) (fun v => { v with retired := false })).restored 0 i))) ∧
      (k = 1 → exec (.restore c) s = .next (s.ends c (restoreRule c) stDone 0 0
        ((a.changeTree i (fun u => { u with retired := false })).restored 1 i))) ∧
      (k = 2 → exec (.restore c) s = .next (s.ends c (restoreRule c) stDone 0 0
        ((a.setRf (adPort i 1) 16 16 0).restored 2 i))) ∧
      (k = 3 → a.rb (adPc i) 20 = false → a.execs = [] →
        exec (.restore c) s = .next (s.goesOn c (restoreRule c) 0 (.pcRebuild i a.now) a)) ∧
      (k = 4 → a.flt.copying = [] → exec (.restore c) s = .next (s.goesOn c (restoreRule c) 0 (.rowCopy i)
        { a with flt := { a.flt with copying := [(i, true)] } })) ∧
      (k = 5 → exec (.restore c) s = .next (s.ends c (restoreRule c) stDone 0 0
        (({ a with flt := { a.flt with pipes := smSet (fun _ => false) a.flt.pipes i false } }).restored 5 i))))) ∧
  (∀ s c b, s.accepts c (defaultsRule c) → blockOf (c.arg 24 0) = some b →
    let a := s.taken c (defaultsRule c)
    let held := a.atStart.defaultsBusy (c.arg 24 0) ||
      (a.atStart.privOf c.port == .supervisor && a.spInReset && spWord (c.arg 24 0))
    (held = true → exec (.defaults c) s = .next (s.ends c (defaultsRule c) stRejectBusy 0 0 a)) ∧
    (held = false → exec (.defaults c) s = .next (s.goesOn c (defaultsRule c) 0 (.work 0 (.defaults (blockWords b))) a))) ∧
  (∀ (s : State) (p : Priv) (l : List Nat) (prog : Nat),
    let t := s.writeRegs (((l.take 64).filter (fun a => regSetMask a != 0)).map (fun a =>
      { addr := a, mask := regSetMask a, value := s.effDefault a }))
    (l.length ≤ 64 → s.workTick p (.defaults l) prog = .fin stDone (prog + l.length) 0 t) ∧
    (64 < l.length → s.workTick p (.defaults l) prog = .wait (prog + 64) (.work 0 (.defaults (l.drop 64))) t)) ∧
  (∀ s c, s.accepts c (timeSetRule c) → c.flag0 = false → (s.taken c (timeSetRule c)).ppsWait = none →
    let a := s.taken c (timeSetRule c)
    exec (.timeSet c) s = .next (s.ends c (timeSetRule c) stDone 0 a.tick48 (a.stepTime (tsTime c)))) ∧
  (∀ s c, s.accepts c (timeSetRule c) → c.flag0 = true → (s.taken c (timeSetRule c)).ppsWait = none →
    let a := s.taken c (timeSetRule c)
    exec (.timeSetAtPps c) s = .next
      (s.goesOn c (timeSetRule c) 0 (.pps a.now (c.op 0).toNat (fld (c.op 1) 29 0)) a))

/-- INJECT takes a frame from the host, in the admission tick or over the ticks that the transfer takes, or from a buffer held
for it, which is released; with CLASSIFY the frame, with its FCS, comes to the lookup pipes from source 512, else it goes
unclassified to the destination named. RETURN releases the host's reference to the buffer whose head cell the pointer
names (R413, R425 to R427). -/
def Obligations.BufferCommandsComplete : Prop :=
  (∀ s c io picks r, injectRow c io picks = some r → s.accepts c r →
    let a := s.taken c r
    let d := c.op 2
    let q := c.port.num
    let n := (c.op 1).toNat
    let whole := withFcs (takePad n 0 io.octets)
    (dirFromPtr d = false → io.took ≠ 0 → exec (.inject c io picks) s = .next
      (s.goesOn c r 0 (.work 0 (.inject c io.octets picks io.took)) a)) ∧
    (dirFromPtr d = false → io.took = 0 → dirClassify d = true → exec (.inject c io picks) s = .next
      (s.ends c r stDone n 0 (a.arrive (injectArrival q whole)))) ∧
    (∀ k w x, dirFromPtr d = false → io.took = 0 → dirClassify d = false →
      a.injectTo q d whole n none picks = .wait k w x → exec (.inject c io picks) s = .next (s.goesOn c r k w x)) ∧
    (∀ i p, dirFromPtr d = true → pointerBad (c.op 0) = false → a.heldAt (c.op 0) = some i → a.pkt i = some p →
      dirClassify d = true → exec (.inject c io picks) s = .next
        (s.ends c r stDone p.len 0 ((a.arrive (injectArrival q p.octets)).releaseHeld i)))) ∧
  (∀ s c r, bufReturnRow c = some r → s.accepts c r → pointerBad (c.op 0) = false →
    let a := s.taken c r
    (a.heldAt (c.op 0) = none → exec (.bufReturn c) s = .next (s.ends c r stNotFound 0 0 a)) ∧
    ∀ i, a.heldAt (c.op 0) = some i →
      exec (.bufReturn c) s = .next (s.ends c r stDone 0 (a.refsOf i - 1) (a.releaseHeld i)))

/-! ### Register writes that are rows of their own -/

/-- REQ_GO passes the mailbox request to the service processor (R55), SOFT asks for a soft reset 10 microseconds later
(R582), and the seven writes of IMG_OP start their flash operation, with the refusal that its checks give (R571). -/
def Obligations.GlobalWritesTakeEffect : Prop :=
  (∀ s w, rowReqGo w (s.reach w.cmd.port) = true → s.acceptsWrite w →
    exec (.reqGo w) s = .next (s.writeEnds w (s.stored w).requestGo) ∧
      (s.stored w).requestGo.sp.req = some
        { code := (s.stored w).rf 0x100 47 40, tag := (s.stored w).rf 0x100 39 32,
          args := (List.range 7).map (fun i => (s.stored w).raw (0x101 + i)) }) ∧
  (∀ s w, rowSoftReset w (s.reach w.cmd.port) = true → s.acceptsWrite w →
    let x := s.stored w
    exec (.softReset w) s = .next (s.writeEnds w
      { x with board := { x.board with softAt := some (x.board.softAt.getD (x.now + 10000)) } })) ∧
  ∀ (op : Nat) (f : RegWrite → Instr),
    (op, f) ∈ [(0, Instr.imgErase), (1, Instr.imgProgram), (2, Instr.imgCheck), (3, Instr.setBoot), (4, Instr.confirm),
      (5, Instr.rollback), (6, Instr.keyProgram)] →
    ∀ s w, rowImg op w (s.reach w.cmd.port) = true → s.acceptsWrite w →
      exec (f w) s = .next (s.writeEnds w (s.stored w).startImg)

/-- ENABLE, LINE_MODE, TXDIS_FORCE, TRE_PONID and FPHASE of a tree: setting ENABLE lets the tree come into service, or starts it
anew behind a stop not yet done, clearing it begins its stop, a change of LINE_MODE invalidates its equalisation delays and
clears its deskew buffers, a PON-ID is only stored, and a new phase leaves the present frame as it is and invalidates the
line keys where it breaks the frame count (R178, R179, R181, R183, R185, R472, R473). -/
def Obligations.TreeWritesTakeEffect : Prop :=
  (∀ (s : State) (w : RegWrite) (i : Instr),
    i = .enableSet w ∧ rowEnableSet w (s.reach w.cmd.port) = true ∨
      i = .enableClear w ∧ rowEnableClear w (s.reach w.cmd.port) = true ∨
      i = .lineMode w ∧ rowLineMode w (s.reach w.cmd.port) = true →
    s.acceptsWrite w →
    exec i s = .next (s.writeEnds w
      ((s.stored w).hookCtrl (s.taken w.cmd (ruleOf w)) ((w.addr.toNat - 0x100000) / 0x10000)))) ∧
  (∀ (s was : State) (t : Nat),
    let moved := changes was s (adTree t 0) 9 8 || changes was s (adTree t 0) 11 11
    let x := (s.dropEqds t).clearDskAll t
    (moved = false → was.treeEnable t = false → s.treeEnable t = true → (s.tree t).stopping = false →
      s.hookCtrl was t = s.reservice was t) ∧
    (moved = false → was.treeEnable t = false → s.treeEnable t = true → (s.tree t).stopping = true →
      s.hookCtrl was t = (s.setTree t { s.tree t with since := some s.now }).reservice was t) ∧
    (moved = false → was.treeEnable t = true → s.treeEnable t = false → was.treeUp t = true →
      s.hookCtrl was t = (s.setTree t { s.tree t with stopping := true }).reservice was t) ∧
    (moved = true → was.treeEnable t = false → x.treeEnable t = false → s.hookCtrl was t = x.reservice was t)) ∧
  (∀ s w, rowTxdisForce w (s.reach w.cmd.port) = true → s.acceptsWrite w →
    let a := s.taken w.cmd (ruleOf w)
    let t := (w.addr.toNat - 0x100000) / 0x10000
    exec (.txdisForce w) s = .next (s.writeEnds w
      (((s.stored w).pinsFollow a t ((w.addr.toNat - 0x100000) % 0x10000 - 0x10)).reservice a t))) ∧
  (∀ s w, rowTrePonid w (s.reach w.cmd.port) = true → s.acceptsWrite w →
    exec (.trePonid w) s = .next (s.writeEnds w (s.stored w))) ∧
  (∀ s w, rowFphase w (s.reach w.cmd.port) = true → s.acceptsWrite w →
    let a := s.taken w.cmd (ruleOf w)
    let x := s.stored w
    let t := (w.addr.toNat - 0x100000) / 0x10000
    let y := x.setTree t
      { x.tree t with held := some (a.sfc t, a.frameBegan t a.tickEndNt, x.nextBoundaryNt t) }
    exec (.fphase w) s = .next (s.writeEnds w
      (if !changes a x w.addr.toNat 16 0 then x
       else if y.nextCounter t = (a.sfc t + 1) % 2 ^ 51 then y
       else y.invalidateKeys t)))

/-- CHANGE sets PENDING with the change time, REKEY switches the tenant's XTS epoch, MON_BW_CTL.RESET clears every
bandwidth point, RUN starts or stops the counters, SEED loads the tagging registers, and a level bit of a latched alarm
written as 1 clears (R335, R445, R508, R514, R520, R529). -/
def Obligations.UnitWritesTakeEffect : Prop :=
  (∀ s w, rowGateChange w (s.reach w.cmd.port) = true → s.acceptsWrite w →
    let m := 8 * ((w.addr.toNat - 0x1200000) / 0x1000) + (w.addr.toNat - 0x1200000) % 0x1000 / 16
    exec (.gateChange w) s = .next (s.writeEnds w ((s.stored w).askChange m)) ∧
      ((s.stored w).askChange m).dsq.gates ≠ [] ∧ ((s.stored w).askChange m |>.gates m).pending =
        some ((s.stored w).changeTime m)) ∧
  (∀ s w, rowRekey w (s.reach w.cmd.port) = true → s.acceptsWrite w →
    exec (.rekey w) s = .next (s.writeEnds w ((s.stored w).switchXts ((w.addr.toNat - 0x70100) / 4)))) ∧
  (∀ s w, rowBandwidthReset w (s.reach w.cmd.port) = true → s.acceptsWrite w →
    let a := s.taken w.cmd (ruleOf w)
    let y := (s.stored w).bwReset
    exec (.bandwidthReset w) s = .next (s.writeEnds w
      (if y.rb 0x40020 47 && (!a.rb 0x40020 47 || changes a y 0x40020 29 0) then y.bwStart else y)) ∧
      ∀ b i, b < 0x400 → i < 4 → y.raw (0x4C000 + 4 * b + i) = regFactory (0x4C000 + 4 * b + i)) ∧
  (∀ s w, rowMonRun w (s.reach w.cmd.port) = true → s.acceptsWrite w →
    let x := s.stored w
    exec (.monRun w) s = .next (s.writeEnds w
      (if changes (s.taken w.cmd (ruleOf w)) x 0x40000 47 47 then { x with mon := { x.mon with runAt := some x.now } } else x))) ∧
  (∀ s w, rowTagSeed w (s.reach w.cmd.port) = true → s.acceptsWrite w →
    exec (.tagSeed w) s = .next (s.writeEnds w (s.stored w).loadSeed)) ∧
  (∀ s w, rowAlarmLevelClear w (s.reach w.cmd.port) = true → s.acceptsWrite w →
    exec (.alarmLevelClear w) s = .next (s.writeEnds w
      ((s.stored w).alarmWrite w.addr.toNat (w.word.value &&& w.word.mask))))

/-- BASE or SIZE of a device ring resets its indices, and its waiting records are discarded and counted (R270, R531);
RECOMPUTE starts a digest (R490), COMMITTED is stored (R493), and SWITCH asks the active member for the tree (R498). -/
def Obligations.RingWritesTakeEffect : Prop :=
  (∀ s w, rowRingReset w (s.reach w.cmd.port) = true → s.acceptsWrite w →
    let x := s.stored w
    let n := w.addr.toNat
    exec (.ringReset w) s = .next (s.writeEnds w
      (if n < 0x20002 then x.evtRingReset
       else if n < 0x80000 then x.ringReset ringTrace
       else if n < 0x90000 then x.ringReset ringTs
       else if n < 0x900000 then x.ringReset ((n - 0x100000) / 0x10000)
       else x.puntRingReset))) ∧
  (∀ (s : State) (r : Nat), r < 131 →
    let t := s.ringReset r
    t.raw (ringBase r + 2) = 0 ∧ t.raw (ringBase r + 3) = 0 ∧ t.ringPhase r = true ∧ t.ringLevel r = 0 ∧
      (t.ring r).waiting = [] ∧ t.raw (ringDrop r) = s.raw (ringDrop r) + toWord (s.ring r).waiting.length) ∧
  (∀ s w, rowRecompute w (s.reach w.cmd.port) = true → s.acceptsWrite w →
    exec (.recompute w) s = .next (s.writeEnds w (s.stored w).startDigest)) ∧
  (∀ s w, rowCommitted w (s.reach w.cmd.port) = true → s.acceptsWrite w →
    exec (.committed w) s = .next (s.writeEnds w (s.stored w))) ∧
  (∀ s w, rowRingSwitch w (s.reach w.cmd.port) = true → s.acceptsWrite w →
    let a := s.taken w.cmd (ruleOf w)
    let x := s.stored w
    let t := (w.addr.toNat - 0x90100) / 2
    let y := if x.standby t && !a.standby t then
        { x with ohm := { x.ohm with silent := smSet (fun _ => 0) x.ohm.silent t (x.now + 1) } }
      else x
    exec (.ringSwitch w) s = .next (s.writeEnds w ((y.reservice a t).askHandover t)))

/-! ### The host's writes, reads, fetches and transfers -/

/-- A valid doorbell makes words available, a ring-control word is written while its queue is idle or disabled, CMD_CPL_HEAD
gives records back, and words fetched join the queue's staging buffer, no earlier than 10 microseconds after a failed fetch
(R57, R68, R70, R72, R78, R80). Bits 63:48 of a slot are ignored (R44). -/
def Obligations.QueuePageWritesTakeEffect : Prop :=
  (∀ (s : State) (fn q : BitVec 6) (v : BitVec 64), s.board.inReset = false → s.board.perst = false → s.mode ≠ .dry →
    s.pageOpen fn.toNat q.toNat = true → s.doorbellOk q.toNat (fld (wordOf v) 19 0) = true →
    exec (.cmdDoorbell fn q v) s = .next (s.ringDoorbell q.toNat (fld (wordOf v) 19 0))) ∧
  (∀ (s : State) (fn q : BitVec 6) (off : BitVec 2) (v : BitVec 64), s.board.inReset = false → s.board.perst = false →
    s.mode ≠ .dry → s.pageOpen fn.toNat q.toNat = true → s.ringFree q.toNat = true →
    exec (.ringControlWrite fn q off v) s = .next (s.ringControl q.toNat off.toNat (wordOf v))) ∧
  (∀ (s : State) (fn q : BitVec 6) (v : BitVec 64), s.board.inReset = false → s.board.perst = false → s.mode ≠ .dry →
    s.pageOpen fn.toNat q.toNat = true →
    exec (.cmdCplHead fn q v) s = .next (s.cplConsumed q.toNat (fld (wordOf v) 15 0))) ∧
  (∀ (s : State) (q : BitVec 6) (ws : List (BitVec 64)),
    let u := s.waitUntil (s.queue q.toNat).fetchAt
    u.fetches q.toNat = true → exec (.commandFetch q ws) s = .next (u.fetchWords q.toNat (ws.map wordOf))) ∧
  ∀ (v w : BitVec 64), (∀ i, i < 48 → v.getLsbD i = w.getLsbD i) → wordOf v = wordOf w

/-- A host write that has no effect is counted in CMD_BAR_DISCARD and changes nothing else: one of fewer than 8 octets or to
a word that the host does not write, one to a page that the function does not reach, a ring-control word of a queue that
is neither idle nor disabled, a doorbell that is not in order, and any in DRY (R42, R57, R68, R70, R150). A host read of 8
octets through a BAR gives the word as it stood at the start of the tick with bits 63:48 zero, and one of 4 octets the matching
half of it (R12, R42, R43). The PF reaches every assigned word; a VF the pages of the queues bound to it, a copy of GLB_ID and
its number in VF_TENANT; all else reads zero (R45 to R49, R57). While the link is down no read arrives. That a read has no
side effect lies in its form: its answer is a value alone. -/
def Obligations.HostAccessesThroughTheBars : Prop :=
  ((∀ (s : State) (fn : BitVec 6) (addr : BitVec 28) (v : BitVec 64) (short : Bool), s.board.inReset = false →
    s.board.perst = false → (short = true ∨ s.hostWord fn.toNat addr.toNat = false) →
    exec (.hostBarWriteDiscard fn addr v short) s = .next (s.bump 0x11000 1)) ∧
  (∀ (s : State) (fn q : BitVec 6) (v : BitVec 64), s.board.inReset = false → s.board.perst = false →
    (s.mode = .dry ∨ s.pageOpen fn.toNat q.toNat = false) →
    exec (.cmdDoorbell fn q v) s = .next (s.bump 0x11000 1) ∧ exec (.cmdCplHead fn q v) s = .next (s.bump 0x11000 1)) ∧
  (∀ (s : State) (fn q : BitVec 6) (v : BitVec 64), s.board.inReset = false → s.board.perst = false →
    s.doorbellOk q.toNat (fld (wordOf v) 19 0) = false → exec (.cmdDoorbell fn q v) s = .next (s.bump 0x11000 1)) ∧
  (∀ (s : State) (fn q : BitVec 6) (off : BitVec 2) (v : BitVec 64), s.board.inReset = false → s.board.perst = false →
    (s.mode = .dry ∨ s.pageOpen fn.toNat q.toNat = false ∨ s.ringFree q.toNat = false) →
    exec (.ringControlWrite fn q off v) s = .next (s.bump 0x11000 1)) ∧
  ∀ (s : State) (a : Nat), a ≠ 0x11000 →
    (s.bump 0x11000 1).raw a = s.raw a ∧ (s.bump 0x11000 1).raw 0x11000 = s.raw 0x11000 + 1) ∧
  (∀ (s : State) (fn w k : Nat), s.running = true → s.board.perst = false → k < 8 →
    s.barRead fn false (8 * w + k) false = some (slotOf (s.atStart.barWord fn w)) ∧
      (k < 4 → s.barRead fn false (8 * w + k) true = some (slotOf (s.atStart.barWord fn w) &&& 0xFFFFFFFF)) ∧
      (4 ≤ k → s.barRead fn false (8 * w + k) true = some (slotOf (s.atStart.barWord fn w) >>> 32))) ∧
  (∀ v : Word, (slotOf v).toNat = v.toNat ∧ wordOf (slotOf v) = v) ∧
  (∀ (s : State) (w : Nat), s.barWord 0 w = if regAssigned w then s.view w else 0) ∧
  (∀ (s : State) (fn q i : Nat), fn ≠ 0 → q < 64 → i < 64 →
    s.barWord fn (0x40 * q + i) =
      if 8 ≤ q ∧ s.qbind q = fn ∧ regAssigned (adQueue q i) = true then s.view (adQueue q i) else 0) ∧
  (∀ (s : State) (fn w : Nat), fn ≠ 0 →
    s.barWord fn 0x1000 = s.view 0 ∧ s.barWord fn 0x1001 = toWord fn ∧ (0x1001 < w → s.barWord fn w = 0)) ∧
  ∀ (s : State) (fn a : Nat) (t h : Bool), s.board.inReset = true ∨ s.board.perst = true → s.barRead fn t a h = none

/-- A failed transfer of a queue is charged to its retry budget and made again 10 microseconds later; with the budget used up a
failed fetch, or completion write, disables the queue with its alarm, and a failed data transfer ends its command with
ERR_MEM (R80). A failed write to one of the device's own rings has a budget of its own: its record waits 10 microseconds, or
is lost and counted, and a counter dump waits, or is abandoned (R519, R599). A VF's reset stops its bound queues (R82). -/
def Obligations.TransferFailuresAreRetriedOrEnd : Prop :=
  (∀ (s : State) (q : BitVec 6) (k : BitVec 2), s.running = true → s.board.perst = false →
    let u := s.waitUntil (s.queue q.toNat).fetchAt
    (k = 0 → u.fetches q.toNat = true → u.fetchable q.toNat ≠ 0 →
      (u.queueBudget q.toNat = true → exec (.hostTransferRetry q k) s = .next
        ((u.queueCharge q.toNat).setQueue q.toNat
          { (u.queueCharge q.toNat).queue q.toNat with fetchAt := u.now + 10000 })) ∧
      (u.queueBudget q.toNat = false → exec (.hostTransferRetry q k) s = .next (u.disableQueue q.toNat))) ∧
    (∀ x, k = 1 → (s.queue q.toNat).lastCpl = some x →
      (s.queueBudget q.toNat = true → exec (.hostTransferRetry q k) s = .next
        ((s.queueCharge q.toNat).rewriteCpl q.toNat x)) ∧
      (s.queueBudget q.toNat = false → exec (.hostTransferRetry q k) s = .next
        ((s.unwriteCpl q.toNat x).disableQueue q.toNat))) ∧
    (∀ e hold w, 2 ≤ k.toNat → (s.queue q.toNat).exec = some e → e.wait = .work hold w → w.transfers = true →
      (s.queueBudget q.toNat = true → exec (.hostTransferRetry q k) s = .next
        ((s.queueCharge q.toNat).setExec q.toNat { e with wait := .work (max hold s.now + 10000) w })) ∧
      (s.queueBudget q.toNat = false → exec (.hostTransferRetry q k) s = .next
        (s.endExec q.toNat stErrMem e.progress (s.stopResult e.wait))))) ∧
  (∀ (s : State) (r : Nat) (x : RingRec), s.running = true → s.board.perst = false → r < ringDump →
    (s.ring r).last = some x →
    let t := s.ringUnwrite r x
    (s.ringBudget r = true → exec (.ringWriteRetry r) s = .next
      ((t.ringCharge r).setRing r { (t.ringCharge r).ring r with
        waiting := x :: ((t.ringCharge r).ring r).waiting, retryAt := s.now + 10000 })) ∧
    (s.ringBudget r = false → exec (.ringWriteRetry r) s = .next (t.bump (ringDrop r) 1))) ∧
  (∀ s : State, s.running = true → s.board.perst = false → s.mon.dump.run ≠ none →
    (s.ringBudget ringDump = true → exec (.ringWriteRetry ringDump) s = .next
      (let t := s.ringCharge ringDump
       { t with mon := { t.mon with dump := { t.mon.dump with holdTill := t.now + 10000 } } })) ∧
    (s.ringBudget ringDump = false → exec (.ringWriteRetry ringDump) s = .next s.abandonDump)) ∧
  ∀ (s : State) (v : BitVec 6), s.running = true → v ≠ 0 → exec (.vfReset v) s = .next
    (((List.range 56).map (8 + ·)).foldl (fun s q => if s.qbind q = v.toNat then s.vfQueue q else s) s)

/-- The service processor answers the mailbox request in progress: HEALTH with version, uptime, expiries and retries; SENSOR
with the sensor's or rail's reading; EYE with the lane's eye; DUMP_FETCH by giving the flash dump to the host dump area;
DUMP_ERASE by erasing it; RETIRE_LOG with 15 entries of the history. An index out of range, nothing to give or a failed
transfer has its own code, an unknown request code 1 (R55, R547). -/
def Obligations.MailboxRequestsAreAnswered : Prop :=
  ∀ (s : State) (r : MboxReq), s.board.inReset = false → s.spInReset = false → s.sp.req = some r →
    let i := fld (nth r.args 0 0) 7 0
    let l := s.flt.log.drop (fld (nth r.args 0 0) 9 0)
    (r.code = 1 → exec .health s = .next (s.respond r 0
      ([toWord s.sp.fwVersion, toWord ((s.now - s.sp.started) / 10 ^ 9), toWord s.sp.expiryCount] ++
        (List.range 6).map (fun c => toWord (smGet (fun _ => 0) s.flt.retries c))))) ∧
    (r.code = 0 ∨ 7 ≤ r.code → exec .health s = .next (s.respond r 1 [])) ∧
    (r.code = 2 →
      (i < 20 → exec .sensor s = .next (s.respond r 0
        [toWord (unsigned 48 (signed 24 (s.rf (0x8010 + i) 23 0)))])) ∧
      (32 ≤ i ∧ i ≤ 47 → exec .sensor s = .next (s.respond r 0 [toWord (s.rf (0x4010 + (i - 32)) 15 0)])) ∧
      (20 ≤ i → i < 32 ∨ 47 < i → exec .sensor s = .next (s.respond r 2 []))) ∧
    (r.code = 3 → ∀ h w,
      (fld (nth r.args 0 0) 8 0 < 256 → exec (.eye h w) s = .next (s.respond r 0 [h, w])) ∧
      (256 ≤ fld (nth r.args 0 0) 8 0 → exec (.eye h w) s = .next (s.respond r 2 []))) ∧
    (r.code = 4 → s.rb 0x220 44 = true →
      (s.flt.dump.area = none → ∀ f, exec (.dumpFetch f) s = .next (s.respond r 2 [])) ∧
      ∀ x, s.flt.dump.area = some x →
        (s.board.perst = false → exec (.dumpFetch false) s = .next
          ((s.emit (.hostWords x.1 s.flt.dump.flash)).respond r 0 [toWord s.flt.dump.flash.length])) ∧
        exec (.dumpFetch true) s = .next (s.respond r 4 [])) ∧
    (r.code = 4 → s.rb 0x220 44 = false → ∀ f, exec (.dumpFetch f) s = .next (s.respond r 3 [])) ∧
    (r.code = 5 → exec .dumpErase s = .next
      ({ s.setRf 0x220 44 44 0 with flt := { s.flt with dump := { s.flt.dump with flash := [] } } }.respond r 0 [])) ∧
    (r.code = 6 →
      (l ≠ [] → exec .retireLog s = .next (s.respond r 0 (takePad 15 0 (l.map retireWord)))) ∧
      (l = [] → exec .retireLog s = .next (s.respond r 3 [])))

/-- A PCIe hot reset is a soft reset at once; PERST_N disables the 64 command queues and takes MSI-X from the host, and its
release gives it back; a falling RESET_N, or a rail that falls below 90 %, resets the device, and a rising RESET_N with no
rail low samples the straps and releases it (R577 to R582). TRST_N selects IDCODE and lets the pins go; an instruction scan
takes the bits shifted in as the instruction; with IDCODE a data scan gives 0x17128B87, least significant bit first (R589). -/
def Obligations.ResetPinsAndTestPort : Prop :=
  ((∀ s : State, s.board.inReset = false → s.board.perst = false → exec .pcieHotReset s = .next s.softReset) ∧
  (∀ s : State, s.running = true → s.board.perst = false → exec .perstN s = .next
    { s.hostGone with board := { s.hostGone.board with perst := true, msixOn := false } } ∧
      ∀ q, q < 64 → s.hostGone.qstate q = 3) ∧
  (∀ (s : State) (m : Bool), exec (.perstNRelease m) s = .next
    { s with board := { s.board with perst := false, msixOn := s.board.msixOn || m } }) ∧
  (∀ s : State, s.board.resetLow = false → s.board.inReset = false → exec .deviceResetPin s = .next
    { s.hardReset with board := { s.hardReset.board with resetLow := true } }) ∧
  (∀ (s : State) (x : BitVec 5), s.board.resetLow = true → s.board.railsLow = [] → exec (.resetN x) s = .next
    (let t := { s with
       board := { s.board with resetLow := false, straps := x.toNat, inReset := false }, tap := s.tap.letGo }
     { t with start := t.toDevice })) ∧
  ∀ (s : State) (r : BitVec 4), s.board.inReset = false → s.board.thermtrip = false →
    exec (.railBelow90Percent r true) s = .next { s.hardReset with board := { s.hardReset.board with
      railsLow := smSet (fun _ => false) s.board.railsLow r.toNat true } }) ∧
  ((∀ s : State, exec (.testAccessPort .trst) s = .next { s with tap := { s.tap with ir := 1, drives := false } }) ∧
  (∀ (s : State) (bits : List Bool),
    let x := scan ([true, false] ++ bitList 6 s.freeWord.toNat) bits
    exec (.testAccessPort (.scanIr bits)) s = .next
      ({ s with tap := { s.tap with ir := bitsValue x.1 } }.tapOut x.2).drew.tapDrive) ∧
  ∀ (s : State) (bits pins : List Bool), s.tap.ir = 1 → bits.length = 32 →
    exec (.testAccessPort (.scanDr bits pins)) s = .next
      { s with tap := { s.tap with tdo := (bitList 32 0x17128B87).reverse ++ s.tap.tdo } })

/-- Each reading of a rail or a sensor is stored in its word; a second reading in a row outside the limits is fatal, and a
reading at the warning threshold raises THERM_WARN once (R579, R592). At 125 °C a sensor drives THERMTRIP_N low (R593). -/
def Obligations.SensorReadingsAreJudged : Prop :=
  (∀ (s : State) (mv : List (BitVec 16)), s.board.inReset = false → exec (.railSample mv) s = .next
    ((List.range 16).foldl (fun s i => s.railReads i (nth mv i 0).toNat) (s.sampled 16))) ∧
  (∀ (s : State) (mc : List (BitVec 24)), s.board.inReset = false → exec (.temperatureSample mc) s = .next
    ((List.range 20).foldl (fun s i => s.tempReads i (nth mc i 0)) (s.sampled 20))) ∧
  (∀ (s : State) (i v : Nat), inRange (s.railRange i).1 (s.railRange i).2 v = true →
    (s.railReads i v).mode = s.mode ∧ (s.railReads i v).flt = s.flt ∧ (s.railReads i v).raw (0x4010 + i) = toWord v) ∧
  (∀ (s : State) (i v : Nat), inRange (s.railRange i).1 (s.railRange i).2 v = false →
    smGet (fun _ => false) s.board.railOut i = true → s.board.inReset = false → s.mode ≠ .dry → s.sp.held = false →
    (s.railReads i v).mode = .dry ∧ (s.railReads i v).prevMode = s.start.mode ∧
      (s.railReads i v).raw 0x221 = mkWord [(40, 5), (24, i % 2 ^ 16), (0, v % 2 ^ 24)]) ∧
  (∀ (s : State) (i : Nat) (v : BitVec 24), 1000 * ((s.tempLimits i).1 : Int) ≤ v.toInt →
    smGet (fun _ => false) s.board.tempOut i = true → s.board.inReset = false → s.mode ≠ .dry → s.sp.held = false →
    (s.tempReads i v).mode = .dry ∧ (s.tempReads i v).prevMode = s.start.mode) ∧
  (∀ (s : State) (i : Nat) (v : BitVec 24), v.toInt < 1000 * ((s.tempLimits i).1 : Int) →
    1000 * ((s.tempLimits i).2 : Int) ≤ v.toInt →
    let x := { s.setReg (0x8010 + i) (toWord v.toNat) with board := { s.board with
      tempOut := smSet (fun _ => false) s.board.tempOut i false, warned := smSet (fun _ => false) s.board.warned i true } }
    s.tempReads i v = if smGet (fun _ => false) s.board.warned i then x
      else x.alarm 16 0x029 i (unsigned 24 (v.toInt.fdiv 1000))) ∧
  (∀ (s : State) (k : BitVec 5) (mc : BitVec 24), k.toNat < 20 → 125000 ≤ mc.toInt → s.board.thermtrip = false →
    exec (.thermtrip k mc) s = .next
      ({ s with board := { s.board with thermtrip := true } }.emit (.pin 4 0 false s.now)))

/-! ### Faults -/

/-- Every fatal cause that a row reports takes the device to DRY with its cause, and the dump then goes to the host area or to
flash (R26, R548, R551). A watchdog expiry, no earlier than 100 ms after the firmware started, puts the service processor in
reset for a time that the spec leaves open, counts, and raises its alarm; the third within 60 s holds the service processor
in reset (R39, R40). That its port then goes first again is the model's choice (log entry 101). -/
def Obligations.FatalCausesAndWatchdog : Prop :=
  ((∀ (s : State) (c : BitVec 8) (x : BitVec 16) (d : BitVec 24), 3 ≤ c.toNat → c.toNat ≤ 9 →
    exec (.fatalError c x d) s = .next (s.fatal c.toNat x.toNat d.toNat)) ∧
  (∀ s : State, exec .corePllLockLost s = .next (s.fatal 3 0 0)) ∧
  (∀ s : State, exec .coreIslandHang s = .next (s.fatal 7 0 0)) ∧
  (∀ s : State, s.rf 0x220 47 45 = 1 → s.mode = .dry → s.board.inReset = false →
    (∀ x, s.flt.dump.area = some x → s.flt.dump.toFlash = false → s.board.perst = false → ∀ f,
      exec (.fatalDumpComplete false f) s = .next { s.dumpToHost x.1 with free := (s.dumpToHost x.1).free + 8192 }) ∧
    (∀ x, s.flt.dump.area = some x → ∀ f, exec (.fatalDumpComplete true f) s = .next
      { s.dumpToFlash f with free := (s.dumpToFlash f).free + 8192 }) ∧
    (s.flt.dump.area = none → ∀ h f, exec (.fatalDumpComplete h f) s = .next
      { s.dumpToFlash f with free := (s.dumpToFlash f).free + 8192 }))) ∧
  ((∀ s : State, s.board.inReset = false → s.sp.held = false →
    let x := s.waitUntil (s.sp.started + 100000000)
    let till := x.now + (if x.running then Config.spReset x.free else 0)
    exec .watchdogExpiry s = .next
      ({ x.drew with sp := { x.sp with
          expiries := x.expiriesNow, expiryCount := x.sp.expiryCount + 1, started := till, resetTill := till,
          lastAdmission := none } }.alarm 2 0x004 0 x.expiriesNow.length)) ∧
  ∀ s : State, s.board.inReset = false → s.sp.held = false →
    3 ≤ (s.sp.expiries.filter (fun n => Nat.blt s.now (n + 60000000000))).length →
    exec .spHeld s = .next ({ s with sp := { s.sp with held := true, policy := [] } }.alarm 3 0x005 0 0))

/-- A loss, or its end, at a lane, port, tree or HBM island reaches the resource; 64 ticks without a handshake do the same for
an island in service, with a transient fault for a tree's (R25, R528). -/
def Obligations.LossesReachTheirResource : Prop :=
  (∀ (s : State) (t : BitVec 7) (l b h : Bool), s.records = true → exec (.laneLoss t l b h) s = .next
    (s.laneLoss t.toNat (b2n l) (fun v => if h then { v with handshake := b } else { v with lineLoss := b }))) ∧
  (∀ (s : State) (m : BitVec 8) (b : Bool), s.records = true →
    exec (.portLoss m b false) s = .next (s.lineLoss m.toNat b) ∧
      exec (.portLoss m b true) s = .next (s.portHandshake (m.toNat / 8) b)) ∧
  (∀ (s : State) (t : BitVec 7) (b : Bool), s.records = true →
    exec (.treeLoss t b) s = .next (s.treeLoss t.toNat (fun u => { u with handshake := b }))) ∧
  (∀ (s : State) (k : BitVec 3) (b : Bool), s.records = true → exec (.hbmLoss k b) s = .next (s.hbmLoss k.toNat b)) ∧
  ∀ s : State, s.running = true → s.mode ≠ .spring →
    (∀ t : BitVec 7, s.treeUp t.toNat = true → exec (.handshakeLoss (.tree t)) s = .next
      ((s.treeLoss t.toNat (fun u => { u with handshake := true })).transient 1 t.toNat)) ∧
    (∀ (t : BitVec 7) (l : Bool), s.laneUp t.toNat (b2n l) = true → exec (.handshakeLoss (.laneRx t l)) s = .next
      (s.laneLoss t.toNat (b2n l) (fun v => { v with handshake := true }))) ∧
    (∀ p : BitVec 5, s.rb (adPort p.toNat 0) 3 = true → s.rb (adPort p.toNat 1) 16 = false →
      exec (.handshakeLoss (.port p)) s = .next (s.portHandshake p.toNat true)) ∧
    ∀ k : BitVec 3, exec (.handshakeLoss (.hbm k)) s = .next (s.hbmLoss k.toNat true)

/-- A transient fault starts a retry within its class's budget or retires the resource, the retry ends, that of a pipe after
1,000 ticks, and an uncorrectable memory error has the outcome of its structure (R536, R537, R544, Table 17.2). A class-3
RETIRE retires when its pages have moved, with their number in PROGRESS (R420), a class-3 RESTORE when the free list is
rebuilt, at 4 pages a tick (R421), and the copy of an SRAM row to its spare, or back, ends the RETIRE or RESTORE that waits
for it (Table 17.3, R541). -/
def Obligations.RetriesAndRetirementsEnd : Prop :=
  ((∀ (s : State) (c : BitVec 4) (i : BitVec 24), s.running = true → s.mode ≠ .spring → c.toNat ≤ 5 →
    resOk c.toNat i.toNat = true → exec (.transientFault c i) s = .next (s.transient c.toNat i.toNat)) ∧
  (∀ (s : State) (c : BitVec 4) (i : BitVec 24), s.running = true → c.toNat ≠ 5 →
    exec (.retryEnd c i) s = .next (s.endRetry c.toNat i.toNat)) ∧
  (∀ (s : State) (i : BitVec 24), s.running = true → (s.hist 5 i.toNat).busy = true →
    let x := s.waitUntil ((s.hist 5 i.toNat).starts.headD 0 + 1000)
    x.running = true → exec (.retryEnd 5 i) s = .next (x.endRetry 5 i.toNat)) ∧
  ∀ (s : State) (e : MemErr), s.records = true → e.unit.toNat < 22 → exec (.memUncorr e) s = .next (s.memError e)) ∧
  ((∀ (s : State) (pc : BitVec 8) (picks : List Nat) (q : Nat) (e : Exec), s.running = true →
    s.movingExec pc.toNat = some (q, e) → exec (.pseudoChannelMoveDone pc picks) s = .next
      (((s.movePages pc.toNat picks).2.setRf (adPc pc.toNat) 20 20 0).endExec q stDone (s.movePages pc.toNat picks).1 0)) ∧
  (∀ (s : State) (pc : BitVec 8) (q n : Nat), s.running = true → s.rebuildExec pc.toNat = some (q, n) →
    (s.waitUntil (n + 65536)).running = true → exec (.pseudoChannelRebuildDone pc) s = .next
      ((((s.waitUntil (n + 65536)).pcRebuilt pc.toNat).restored 3 pc.toNat).endExec q stDone 0 0)) ∧
  ∀ (s : State) (row : BitVec 24) (back : Bool) (q : Nat) (e : Exec), s.running = true →
    s.flt.copying.find? (fun x => x.1 == row.toNat) = some (row.toNat, back) →
    let x := { s with flt := { s.flt with copying := s.flt.copying.filter (fun x => x.1 != row.toNat) } }
    let y := if back then
        ({ x with flt := { x.flt with rows := smSet (fun _ => 0) x.flt.rows row.toNat 0 } }).restored 4 row.toNat
      else x
    y.findExec (fun w => w == .rowCopy row.toNat) = some (q, e) →
    exec (.spareRowCopyDone row) s = .next (y.endExec q stDone 0 0))

/-! ### Modes and frames -/

/-- The end of SPRING with nothing failing enters STILL (R564, R569); a drain that is ready completes, and at its limit what is left is
discarded (R146, R147); with the drain complete and no tree in service the device enters STILL (R146). -/
def Obligations.AutomaticModeChanges : Prop :=
  (∀ (s : State) (w : Bool), s.running = true → s.mode = .spring → exec (.springComplete [] [] [] w) s = .next
    ((s.drawAllXts.loadImage w).freeLists.changeMode .still 1)) ∧
  (∀ s : State, s.running = true → s.drainReady = true → exec .drainComplete s = .next s.drainDone) ∧
  (∀ (s : State) (n : Nat), s.running = true → s.limitTick = some n → (s.waitUntil n).running = true →
    (s.waitUntil n).limitTick = some n → exec .drainLimit s = .next (s.waitUntil n).drainLimit) ∧
  ∀ (s : State) (d : Drain), s.running = true → s.drain = some d → d.done.isSome = true →
    allTrees.any s.treeUp = false →
    exec .enterStill s = .next (s.changeMode .still (if s.drainLimited then 3 else 2))

/-- A frame boundary of a tree brings the swaps and switches due, the tree's stop or start, and its frame and run (R136, R180);
a stop takes effect at a boundary (R178), a tree sends its first frame 20,000 ticks after it came into service (R138), and a
lane comes back at a boundary (R159). One message of a lane in service is framed (R112), the edges of a lane's pulses come in
order (R283 to R285), and the pending SET_TX takes effect at its boundary (R438). -/
def Obligations.BoundariesAndLaneEvents : Prop :=
  ((∀ (s : State) (t : BitVec 7), s.running = true → s.mode ≠ .spring →
    (s.toBoundary t.toNat).running = true →
    exec (.frameBoundary t) s = .next ((s.toBoundary t.toNat).boundary t.toNat)) ∧
  (∀ (s : State) (t : BitVec 7), s.running = true → s.treeUp t.toNat = true →
    ((s.tree t.toNat).stopping = true ∨ ∃ d, s.drain = some d ∧ d.done.isSome = true) →
    (s.toBoundary t.toNat).running = true → exec (.stoppingBoundary t) s = .next ((s.toBoundary t.toNat).stopBoundary t.toNat)) ∧
  (∀ (s : State) (t : BitVec 7) (n : Nat), s.running = true → s.treeUp t.toNat = true → (s.tree t.toNat).since = some n →
    let u := s.waitUntil (max (s.nextBoundaryTick t.toNat) (s.boundaryFrom t.toNat (max s.now (n + 20000))))
    u.running = true → exec (.treeFirstFrame t) s = .next (u.boundary t.toNat)) ∧
  ∀ (s : State) (t : BitVec 7) (l : Bool) (n : Nat), s.running = true → (s.lane t.toNat (b2n l)).returnAt = some n →
    let u := s.waitUntil (max (s.nextBoundaryTick t.toNat) (s.boundaryFrom t.toNat (max s.now (n + 20000))))
    u.running = true → exec (.laneReturnToService t l) s = .next (u.laneBoundary t.toNat (b2n l))) ∧
  ((∀ (s : State) (t : BitVec 7) (l : Bool), s.running = true → s.laneUp t.toNat (b2n l) = true →
    (s.tree t.toNat).sending = true → exec (.msgSendFramed t l) s = .next (s.frameMsg t.toNat (b2n l))) ∧
  (∀ (s : State) (t : BitVec 7) (l : Bool) (k k' e f : Nat), s.running = true →
    s.firstEdge t.toNat (b2n l) = some (k, e) →
    let u := s.waitUntil (e + s.pinLag t.toNat (b2n l))
    let high := u.pinLevel t.toNat (b2n l) k' f
    u.running = true → u.firstEdge t.toNat (b2n l) = some (k', f) → f + u.pinLag t.toNat (b2n l) ≤ u.now →
    exec (.burstResetPulse t l) s = .next (u.drivePin t.toNat (b2n l) k' f high) ∧
      (((u.lane t.toNat (b2n l)).pin k').high ≠ high →
        (u.drivePin t.toNat (b2n l) k' f high).out = .pin k' (2 * t.toNat + b2n l) high f :: u.out)) ∧
  ∀ (s : State) (q n d q' n' : Nat), s.nextTx = some (q, n, d) → (s.waitUntil d).running = true →
    (s.waitUntil d).nextTx = some (q', n', (s.waitUntil d).now) →
    exec .setTxSwitch s = .next ((s.waitUntil d).switchTx q' n'))

/-! ### Runs of the Sluice engines -/

/-- FRAME sets the program tag and both cursors, CREDIT a credit counter, PAD the cursor of the lane, LANE the lane and with SETPOS
and SYNC its cursors, LOOP enters its body, or with a count of 0 goes on behind its ENDLOOP, and ENDLOOP goes back until the
count is used up: each as one step of the run, in its tick, where it is the instruction at the run's place (R199, R226,
R228 to R231). -/
def Obligations.RunStepsMoveTheRun : Prop :=
  ∀ (s : State) (t : BitVec 7) (r : Run),
    let x (op : Nat) : State := s.atStep t.toNat op
    let w (op : Nat) : Word := (x op).raw (adBank t.toNat r.bank r.pc)
    let y (op : Nat) : State := (x op).monEv 11 t.toNat 1 1
    let go (op : Nat) (r' : Run) : State := (y op).putRun t.toNat r'
    ((x 0x20).atRun t.toNat 0x20 r → exec (.sluFrame t) s = .next (go 0x20
      (let c := (y 0x20).cursor t.toNat (r.past 0x20) (fld (w 0x20) 16 0)
       { r.past 0x20 with
         prog := fld (w 0x20) 31 20, l0 := { r.l0 with cur := c }, l1 := { r.l1 with cur := c } }))) ∧
    ((x 0x2B).atRun t.toNat 0x2B r → exec (.sluCredit t) s = .next
      (let was := (y 0x2B).credit t.toNat (fld (w 0x2B) 31 24)
       let v := signed 23 (fld (w 0x2B) 22 0)
       ((y 0x2B).setCredit t.toNat (fld (w 0x2B) 31 24)
         (if bitOf (w 0x2B) 32 then was - (r.lastL : Int) else if bitOf (w 0x2B) 23 then v else was + v)).putRun t.toNat
           (r.past 0x2B))) ∧
    ((x 0x2F).atRun t.toNat 0x2F r → exec (.sluPad t) s = .next (go 0x2F
      (let v := r.ln r.lane
       (r.past 0x2F).setLn r.lane
         { v with cur := (y 0x2F).cursor t.toNat (r.past 0x2F) (v.cur + fld (w 0x2F) 16 0) }))) ∧
    ((x 0x2E).atRun t.toNat 0x2E r → exec (.laneSel t) s = .next (go 0x2E
      (let l := fld (w 0x2E) 0 0
       let v := r.ln l
       let r1 := if bitOf (w 0x2E) 31 then
           (r.past 0x2E).setLn l { v with cur := (y 0x2E).cursor t.toNat (r.past 0x2E) (max v.cur (fld (w 0x2E) 17 1)) }
         else r.past 0x2E
       let m := max r1.l0.cur r1.l1.cur
       let r2 := if bitOf (w 0x2E) 32 then { r1 with l0 := { r1.l0 with cur := m }, l1 := { r1.l1 with cur := m } } else r1
       { r2 with lane := l }))) ∧
    ((x 0x28).atRun t.toNat 0x28 r → exec (.loopN t) s = .next (go 0x28
      (if fld (w 0x28) 12 0 = 0 then
         { r.past 0x28 with
           pc := afterLoop (fun i => (y 0x28).raw (adBank t.toNat r.bank i)) 4096 (r.past 0x28).pc 0 }
       else { r.past 0x28 with loops := ((r.past 0x28).pc, fld (w 0x28) 12 0 - 1, 0) :: r.loops }))) ∧
    ((x 0x29).atRun t.toNat 0x29 r → ∀ body left i rest, r.loops = (body, left, i) :: rest →
      exec (.endloop t) s = .next (go 0x29
        (if left = 0 then { r.past 0x29 with loops := rest }
         else { r.past 0x29 with pc := body, loops := (body, left - 1, i + 1) :: rest })))

/-- GRANT, GRANTT, QUIET and RANGEW place their item or count it as not placed, ALIGN examines one instant a step, and MARK
records its identifier and tags the next grant where bit 32 asks for it (R220, R221, R223, R224, R232, R233 to R235). -/
def Obligations.RunStepsPlaceItems : Prop :=
  ∀ (s : State) (t : BitVec 7) (r : Run),
    let x (op : Nat) : State := s.atStep t.toNat op
    let y (op : Nat) : State := (x op).monEv 11 t.toNat 1 1
    let w (op i : Nat) : Word := (x op).raw (adBank t.toNat r.bank (r.pc + i))
    let put (z : State × Run) : State := z.1.putRun t.toNat z.2
    ((x 0x21).atRun t.toNat 0x21 r →
      exec (.grant t) s = .next (put ((y 0x21).runGrant t.toNat (r.past 0x21) (w 0x21 0)))) ∧
    ((x 0x22).atRun t.toNat 0x22 r →
      exec (.grantt t) s = .next (put ((y 0x22).runGrantt t.toNat (r.past 0x22) (w 0x22 0) (w 0x22 1)))) ∧
    ((x 0x23).atRun t.toNat 0x23 r →
      exec (.quiet t) s = .next (put ((y 0x23).runQuiet t.toNat (r.past 0x23) (w 0x23 0)))) ∧
    ((x 0x24).atRun t.toNat 0x24 r →
      exec (.rangew t) s = .next (put ((y 0x24).runRangew t.toNat (r.past 0x24) (w 0x24 0)))) ∧
    ((x 0x2D).atRun t.toNat 0x2D r → exec (.sluMark t) s = .next (put
      ((y 0x2D).traceEv 0x2C3 t.toNat (fld (w 0x2D 0) 15 0),
        if bitOf (w 0x2D 0) 32 then { r.past 0x2D with tagNext := some (fld (w 0x2D 0) 15 0) } else r.past 0x2D))) ∧
    let z := s.waitUntil (s.alignLast t.toNat)
    let v (i : Nat) : Word := z.raw (adBank t.toNat r.bank (r.pc + i))
    z.atRun t.toNat 0x25 r → exec (.sluAlign t) s = .next
      (let left := (r.view (z.monEv 11 t.toNat 1 1)).rf (adTree t.toNat 0x1000) 14 0 - r.steps
       let g := (z.monEv 11 t.toNat 1 1).runAlign t.toNat { r.past 0x25 with steps := r.steps } (v 0) (v 1) (v 2) left
       put (g.2.1.monEv 11 t.toNat 1 (g.2.2.steps - (r.steps + 1)), if g.1 then g.2.2 else { g.2.2 with pc := r.pc }))

/-- An instruction at word a of the bank that skips continues at word a + 1 + NOPS + N, and one that does not at a + 1 + NOPS:
SKIPLT skips when the bucket of its allocation is less than BUCKET, SKIPGE when it is BUCKET or more, SKIPCR when the
counter is less than THRESH, or with GE when it is THRESH or more. The words skipped cost no step (R225). JUMP continues at
word TARGET of the bank (R227). -/
def Obligations.RunStepsBranch : Prop :=
  ∀ (s : State) (t : BitVec 7) (r : Run),
    let x (op : Nat) : State := s.atStep t.toNat op
    let y (op : Nat) : State := (x op).monEv 11 t.toNat 1 1
    let w (op : Nat) : Word := (x op).raw (adBank t.toNat r.bank r.pc)
    let land (op : Nat) (skips : Prop) [Decidable skips] : Run :=
      { r with steps := r.steps + 1, pc := r.pc + 1 + sluOps op + (if skips then fld (w op) 7 0 else 0) }
    ((x 0x26).atRun t.toNat 0x26 r → exec (.skiplt t) s = .next
      (let b := (y 0x26).skipBucket t.toNat (r.past 0x26) (w 0x26)
       b.2.putRun t.toNat (land 0x26 (b.1 < fld (w 0x26) 11 8)))) ∧
    ((x 0x27).atRun t.toNat 0x27 r → exec (.skipge t) s = .next
      (let b := (y 0x27).skipBucket t.toNat (r.past 0x27) (w 0x27)
       b.2.putRun t.toNat (land 0x27 (fld (w 0x27) 11 8 ≤ b.1)))) ∧
    ((x 0x2C).atRun t.toNat 0x2C r → exec (.skipcr t) s = .next
      (let v := (y 0x2C).credit t.toNat (fld (w 0x2C) 31 24)
       let th := signed 16 (fld (w 0x2C) 23 8)
       (y 0x2C).putRun t.toNat (land 0x2C (if bitOf (w 0x2C) 32 then th ≤ v else v < th)))) ∧
    ((x 0x2A).atRun t.toNat 0x2A r → exec (.sluJump t) s = .next
      ((y 0x2A).putRun t.toNat { r with steps := r.steps + 1, pc := fld (w 0x2A) 11 0 }))

/-- END ends the run, whose items become the map due two frames later; a run that has used its budget ends as an overrun, and the
third in a row makes its bank fail (R228, R240, R241). A pending SLUICE_SWAP, or a reversion, takes effect at the tree's next
boundary (R108, R241). -/
def Obligations.RunsEndAndBanksSwap : Prop :=
  ((∀ (s : State) (t : BitVec 7) (r : Run),
    let x := s.atStep t.toNat 0x30
    let r' : Run := { r with steps := r.steps + 1, pc := 4096 }
    x.atRun t.toNat 0x30 r → exec (.endRun t) s = .next
      ((((x.monEv 11 t.toNat 1 1).putRun t.toNat r').endRun t.toNat r').setRf (adSluStatus t.toNat) 5 4 0)) ∧
  (∀ (s : State) (t : BitVec 7) (r : Run), (s.tree t.toNat).run = some r → s.running = true →
    (r.view s).rf (adTree t.toNat 0x1000) 14 0 ≤ r.steps → exec (.overrun t) s = .next (s.overrun t.toNat r)) ∧
  (∀ (s : State) (t : Nat) (r : Run),
    let x := ((s.endRun t r).bump (adSluCnt t 1) 1).fault 0x2C0 t r.prog
    let n := x.rf (adSluStatus t) 5 4 + 1
    (n < 3 → s.overrun t r = x.setRf (adSluStatus t) 5 4 n) ∧ (3 ≤ n → s.overrun t r = x.bankFails t)) ∧
  ∀ (s : State) (t : Nat) (r : Run), ∃ m : PendMap, m.sfc = (r.sfc + 2) % 2 ^ 51 ∧ m.placed = r.bound ∧
    (s.endRun t r).tree t = { s.tree t with run := none, maps := (s.tree t).maps ++ [m] }) ∧
  ((∀ (s : State) (t : BitVec 7), s.running = true → s.swapDue t.toNat = true →
    (s.toBoundary t.toNat).running = true → exec (.sluiceSwapTakesEffect t) s = .next ((s.toBoundary t.toNat).bankBoundary t.toNat)) ∧
  (∀ (s : State) (t : BitVec 7), s.running = true → (s.tree t.toNat).revert = true →
    (s.toBoundary t.toNat).running = true → exec (.reverted t) s = .next ((s.toBoundary t.toNat).bankBoundary t.toNat)))

/-! ### Bursts -/

/-- A delimiter candidate whose search is open and whose header is as expected is accepted at its place, one in QUIET lane time as a
response; one whose header cannot be read is counted and the search goes on, one that is not as expected loses its burst, as does
a ranging response that does not end inside its window (R263, R287 to R292). A written burst that no candidate has answered is lost once every candidate of its window has been judged, as is the
burst being received when the receive FIFO fills (R24, R298), and LOSS_N losses in a row are reported once (R299). -/
def Obligations.BurstsAreAcceptedOrLost : Prop :=
  (∀ (s : State) (t : BitVec 7) (l : Bool) (c : Candidate) (e e' : Expect),
    s.candidateFor t.toNat (b2n l) c = some e →
    let u := s.waitUntil (s.headerTick t.toNat (b2n l) e.rate c.pos)
    u.candidateFor t.toNat (b2n l) c = some e' →
    let v := u.monEv 13 (2 * t.toNat + b2n l) 1 1
    (v.readHdr t.toNat c.h1 c.h2 = none →
      let w := (v.setExpect t.toNat (b2n l) e' (fun e => { e with rejected := e.rejected + 1 })).bump
        (adBrx t.toNat (b2n l) 0x43) 1
      exec (.burstAccepted t l c.pos c.symbols (c.h1, c.h2)) s = .next (if e'.kind = 1 then w.snBad t.toNat else w)) ∧
    ∀ h, v.readHdr t.toNat c.h1 c.h2 = some h →
      (e'.kind = 1 → exec (.burstAccepted t l c.pos c.symbols (c.h1, c.h2)) s = .next (v.acceptQuiet t.toNat (b2n l) e' c.pos h)) ∧
      (e'.kind ≠ 1 →
        let x := v.noteDelim t.toNat (b2n l) e' c.pos
        (x.hdrOk t.toNat (b2n l) e' h = true → e'.kind = 0 ∨ x.fitsWindow t.toNat (b2n l) e' c.pos = true →
          exec (.burstAccepted t l c.pos c.symbols (c.h1, c.h2)) s = .next (x.acceptBurst t.toNat (b2n l) e' c.pos h)) ∧
        (x.hdrOk t.toNat (b2n l) e' h = true → e'.kind = 2 → x.fitsWindow t.toNat (b2n l) e' c.pos = false →
          exec (.burstAccepted t l c.pos c.symbols (c.h1, c.h2)) s = .next (x.overWindow t.toNat (b2n l) e')) ∧
        (x.hdrOk t.toNat (b2n l) e' h = false →
          exec (.burstAccepted t l c.pos c.symbols (c.h1, c.h2)) s = .next (x.loseBurst t.toNat (b2n l) e' 0x44)))) ∧
  (∀ (s : State) (t : BitVec 7) (l : Bool) (e e' : Expect), s.running = true → s.laneUp t.toNat (b2n l) = true →
    s.unanswered t.toNat (b2n l) = some e →
    let u := s.waitUntil (s.closeTick t.toNat (b2n l) e)
    u.running = true → u.unanswered t.toNat (b2n l) = some e' → e'.base = e.base → e'.items = e.items →
    exec (.burstLost t l false e.first) s = .next (u.loseBurst t.toNat (b2n l) e'
      (if e'.rejected = 0 ∨ u.dlmLen t.toNat (b2n l) e'.rate = 0 then 0x41 else 0x42))) ∧
  (∀ (s : State) (t : BitVec 7) (l : Bool) (e : Expect), s.running = true → s.laneUp t.toNat (b2n l) = true →
    s.receiving t.toNat (b2n l) = some e → exec (.burstLost t l true e.first) s = .next
      ((s.loseBurst t.toNat (b2n l) e 0x45).fault 0x340 (2 * t.toNat + b2n l) 0)) ∧
  (∀ (s : State) (h : BitVec 16) (l : Bool), s.running = true → 2 ^ 17 ≤ s.lossCount h.toNat (b2n l) →
    exec (.burstsLost h l) s = .next
      ((s.setLoss h.toNat (b2n l) (s.lossCount h.toNat (b2n l) - 2 ^ 16)).notice 0x342 h.toNat (b2n l * 2 ^ 23))) ∧
  ∀ (s : State) (l : Nat) (e : Expect),
    let n := s.lossCount e.onu l + 1
    s.countLoss l e = (s.setLoss e.onu l (if n < 2 ^ 16 ∧ e.lossN ≤ n then n + 2 ^ 17 else n)).bumpSet 2 e.onu 5 1

/-- What an accepted burst brings leaves the decoder in line order, each element in its tick: a report block's occupancy, a PLOAM
message, or a data codeword's information octets, which delineation takes, each with its corrected bits counted (R277 to R282,
R293, R294). A decoded report is stamped and becomes its allocation's bucket (R30, R204), a message becomes a record where its
entry is in use (R267), and a released frame crosses into the core, is decrypted and forwarded (R296, R300 to R304). -/
def Obligations.AcceptedBurstsGiveTheirParts : Prop :=
  (∀ (s : State) (t : BitVec 7) (l : Bool) (rx : List Byte) (bad : Bool) (f : List Nat) (x y : NextOut), s.running = true →
    s.nextOut t.toNat (b2n l) = some x →
    let u := s.waitUntil x.tick
    u.running = true → u.nextOut t.toNat (b2n l) = some y → y.tick ≤ u.now →
    let g := if bad then none else some f
    ∀ k : BitVec 2, k.toNat = x.kind → exec (.codewordDecoded t l k x.pos rx bad f) s = .next (match y with
      | .element e z p => u.elementOut t.toNat (b2n l) e z p rx g
      | .answer z => u.answerOut t.toNat (b2n l) z rx g)) ∧
  (∀ (s : State) (t l : Nat) (e : Expect) (x : Element) (p : Nat) (rx : List Byte), x.what = 2 →
    let v := s.setExpect t l e (fun e => { e with next := e.next + 1 })
    s.elementOut t l e x p rx none = v.dataOut t l e x p none) ∧
  (∀ (s : State) (t : BitVec 7) (l : Bool) (r r' : ReportIn) (k k' : List ReportIn), s.running = true →
    (s.lane t.toNat (b2n l)).reports = r :: k →
    let u := s.waitUntil (stampTick r.out)
    u.running = true → (u.lane t.toNat (b2n l)).reports = r' :: k' →
    exec (.reportReceived t l r.alloc r.occ) s = .next
      (((u.setLane t.toNat (b2n l) { u.lane t.toNat (b2n l) with reports := k' }).report t.toNat (b2n l) r'.alloc
        r'.occ).traceStage r'.trace 4)) ∧
  (∀ (s v w : State) (t : BitVec 7) (l : Bool) (m m' : PloamIn), s.running = true →
    s.takePloam t.toNat (b2n l) (fun x => x.kind == 0) = some (m, v) →
    let n := ploamTick m.at_ m.rate
    (s.waitUntil n).running = true → (s.waitUntil n).takePloam t.toNat (b2n l) (fun x => x.kind == 0) = some (m', w) →
    (w.onuUsed m'.onu = true → exec (.ploamReceived t l m.onu m.msg) s = .next
      ((w.bump (adLaneStat t.toNat (b2n l) 9) 1).ringMsg t.toNat 0 (b2n l) (m'.onu % 512) false false 0 n m'.msg)) ∧
    (w.onuUsed m'.onu = false → exec (.ploamReceived t l m.onu m.msg) s = .next w)) ∧
  ∀ (s : State) (t : BitVec 7) (l : Bool) (n : BitVec 14) (x x' : XgemIn) (k k' : List XgemIn), s.running = true →
    (s.lane t.toNat (b2n l)).released = x :: k →
    let u := s.waitUntil (releaseTick x)
    u.running = true → (u.lane t.toNat (b2n l)).released = x' :: k' →
    exec (.xgemRelease t l x.port n) s = .next
      ((u.setLane t.toNat (b2n l) { u.lane t.toNat (b2n l) with released := k' }).takeXgem t.toNat (b2n l) x' n.toNat)

/-- The response in QUIET lane time is recorded with its measurement, or counted (R260, R261); a ranging window gives its record with
its response, or as missed when it ends without one, and a stale one is only counted (R268); an SDU that stays open for 250
microseconds ends (R300); braided frames enter the deskew buffer, and leave it when their hold expires (R304 to R306). -/
def Obligations.ResponsesAndDeskewComplete : Prop :=
  (∀ (s v w : State) (t : BitVec 7) (l : Bool) (m m' : PloamIn), s.running = true →
    s.takePloam t.toNat (b2n l) (fun x => x.kind == 1) = some (m, v) →
    let n := ploamTick m.at_ m.rate
    (s.waitUntil n).running = true → (s.waitUntil n).takePloam t.toNat (b2n l) (fun x => x.kind == 1) = some (m', w) →
    exec (.serialNumberResponse t l m.at_ m.msg) s = .next (w.snMeasured t.toNat (b2n l) m' n)) ∧
  (∀ (s v w : State) (t : BitVec 7) (l : Bool) (e e' : Expect) (m m' : PloamIn),
    s.rangeOpen t.toNat (b2n l) = some e → s.takeRanging t.toNat (b2n l) e = some (m, v) →
    let u := s.waitUntil (ploamTick m.at_ m.rate)
    u.rangeOpen t.toNat (b2n l) = some e' → u.takeRanging t.toNat (b2n l) e' = some (m', w) →
    let x := w.rangeDone t.toNat (b2n l) e'
    exec (.rangingResult t l (some m.msg)) s = .next
      (if x.rangeFresh e' then x.rangeMeasured t.toNat (b2n l) e'.onu m' (ploamTick m'.at_ m'.rate)
       else x.bump (adTree t.toNat 0x4014) 1)) ∧
  (∀ (s : State) (t : BitVec 7) (l : Bool) (e e' : Expect), s.rangeOpen t.toNat (b2n l) = some e →
    e.state ≠ 1 →
    let u := s.waitUntil (s.rangeEnd t.toNat (b2n l) e)
    u.rangeOpen t.toNat (b2n l) = some e' → e'.state ≠ 1 →
    let x := u.rangeDone t.toNat (b2n l) e'
    exec (.rangingResult t l none) s = .next
      (if x.rangeFresh e' then
        (x.bump (adTree t.toNat 0x4013) 1).ringMsg t.toNat 2 (b2n l) (e'.onu % 512) false true 0 x.now []
       else x.bump (adTree t.toNat 0x4014) 1)) ∧
  (∀ (s : State) (t : BitVec 7) (d : Sdu), s.running = true → s.oldestSdu t.toNat = some d →
    let u := s.waitUntil (d.at_ + 250000)
    u.running = true → (u.tree t.toNat).sdus.contains d = true →
    exec (.sduTimeout t) s = .next (u.endSdu t.toNat d)) ∧
  (∀ (s : State) (t : BitVec 7) (l : Bool) (p : Nat) (lost : Bool) (f : DskFrame) (rest : List (Nat × Bool × DskFrame)),
    s.running = true → (s.lane t.toNat (b2n l)).toDeskew = (p, lost, f) :: rest →
    let u := s.setLane t.toNat (b2n l) { s.lane t.toNat (b2n l) with toDeskew := rest }
    exec (.deskewEntry t l) s = .next (u.deskewIn t.toNat (p, lost, f))) ∧
  ∀ (s : State) (t : BitVec 7) (n : Nat), s.running = true → s.firstExpiry t.toNat = some n →
    let u := s.waitUntil n
    u.running = true → exec (.deskewHoldExpiry t) s = .next
      (((u.tree t.toNat).dsk.map (·.1)).foldl (fun s p => s.expireDsk t.toNat p) u)

/-! ### Packets -/

/-- Octets received on a MAC become a packet 95 ns after they were at the balls, its head is decided in a pipe and a second time 20 ns
later where its rule says so, and a flooded packet is copied for its list (R27, R191, R342, R343, R358, R401); a packet hit by an
error is bad with all its copies (R403). -/
def Obligations.PacketsAreReceivedAndDecided : Prop :=
  (∀ (s : State) (m : BitVec 8) (f : UplFrame), s.uplReceives m.toNat = true →
    let n := (((s.rxOf m.toNat).map (·.octets)).getD []).length + f.octets.length
    let u := s.waitUntil (s.rxTick m.toNat n f.sfd)
    u.uplReceives m.toNat = true → exec (.uplinkFrameReceived m f) s = .next (u.rxFrame m.toNat f).finishGoing) ∧
  (∀ (s : State) (p : BitVec 5) (k fx n : Nat) (a : Arrival), s.traffic = true → s.pipeUp p.toNat = true → s.headAt = some n →
    let u := s.waitUntil n
    u.traffic = true → u.pipeUp p.toNat = true → u.nextArrival u.now = some a →
    exec (.pipeDecision p { pick := k, fixed := fx }) s = .next ((u.oxDue.firstPass p.toNat a k).wordsFixed fx)) ∧
  (∀ (s : State) (p : BitVec 5) (k fx : Nat) (o o' : OxPacket), s.traffic = true → s.pipeUp p.toNat = true →
    s.nextOx = some o →
    let u := s.waitUntil (o.at_ + 20)
    u.traffic = true → u.pipeUp p.toNat = true → u.nextOx = some o' →
    exec (.oxbowReentry p { pick := k, fixed := fx }) s = .next ((u.secondPass p.toNat o' k).wordsFixed fx)) ∧
  (∀ (s : State) (picks : List Nat) (f : Flood), s.traffic = true → s.floodWalked = some f →
    exec (.replication picks) s = .next (s.replicate f picks)) ∧
  (∀ (s : State) (picks : List Nat) (n : Nat) (f : Flood), s.traffic = true → s.cls.floods ≠ [] → s.floodWalked = none →
    n ∈ s.floodsRead.map (fun f => ceilDiv (f.len - f.next) 3) →
    (∀ k ∈ s.floodsRead.map (fun f => ceilDiv (f.len - f.next) 3), n ≤ k) →
    (s.waitUntil (s.now + n)).traffic = true → (s.waitUntil (s.now + n)).floodWalked = some f →
    exec (.replication picks) s = .next ((s.waitUntil (s.now + n)).replicate f picks)) ∧
  ∀ (s : State) (k : Nat) (cut : Bool) (p : Packet), s.running = true → s.pkt k = some p →
    exec (.packetBad k cut) s = .next (s.makeBad p.grp cut).finishGoing

/-- Each later cell of a packet is requested as its octets come (R408), Confluence runs one slot (R394), a spread cell held for 128
slots is passed over (R399), a free list rebuilt at 4 cells a tick opens its bank (R411), and a packet whose first cell is out is checked
into its downstream queue or its egress queue (R195, R316, R332). -/
def Obligations.CellsCrossTheCore : Prop :=
  (∀ (s : State) (k pick : Nat), s.traffic = true →
    exec (.cellAllocation k pick) s = .next (s.laterCell k pick)) ∧
  (∀ (s : State) (b : BitVec 6) (n : Nat), s.running = true → smGet (fun _ => none) s.cat.rebuild b.toNat = some n →
    let u := s.waitUntil (n + 6144)
    u.running = true → smGet (fun _ => none) u.cat.rebuild b.toNat = some n → exec (.freeListRebuild b) s = .next
      { u with cat := { u.cat with rebuild := smSet (fun _ => none) u.cat.rebuild b.toNat none } }) ∧
  (∀ s : State, s.traffic = true → s.cfl.lastSlot = none → exec .confluenceSlot s = .next s.cflSlot.finishGoing) ∧
  (∀ (s : State) (n : Nat), s.traffic = true → s.cfl.lastSlot = some n → (s.waitUntil (n + 1)).traffic = true →
    exec .confluenceSlot s = .next (s.waitUntil (n + 1)).cflSlot.finishGoing) ∧
  (∀ (s : State) (o : BitVec 6) (x : FCell × Nat), s.traffic = true → s.heldLongest o.toNat = some x →
    let u := s.waitUntil (x.2 + 128)
    u.traffic = true → u.heldLongest o.toNat = some x →
    exec (.resequencerTimeout o) s = .next (u.reseqSkip o.toNat x.1).finishGoing) ∧
  (∀ (s : State) (k h x : Nat) (picks : List Nat) (p : Packet), s.traffic = true → s.pkt k = some p →
    p.nextQueue = some (h, x) → exec (.enqueue k picks) s = .next (s.enqueue k p h x picks)) ∧
  ∀ (s : State) (k m c : Nat) (p : Packet), s.traffic = true → s.pkt k = some p → p.nextMac = some (m, c) →
    let b := s.atStart
    let up : Prop := b.macUp m = true ∧ (b.macOhmad m = false ∨ isPtp p.octets = true)
    (up ∧ b.egCells (8 * m + c) < b.rf (adEgQueue m c 0) 19 0 → exec (.egressEnqueue k) s = .next
      (((s.setEgq (8 * m + c) (s.egq (8 * m + c) ++ [{ pkt := k, len := p.len, at_ := s.now }])).modPkt k
        (fun p => { p with dests := p.dests.erase (.mac m c) })).traceStage p.trace 5)) ∧
    (up → b.rf (adEgQueue m c 0) 19 0 ≤ b.egCells (8 * m + c) → exec (.egressEnqueue k) s = .next
      (((s.bumpSet 6 (8 * m + c) 0 1).traceEnds p.trace true false false).dropDest k (.mac m c))) ∧
    (¬up → exec (.egressEnqueue k) s = .next
      (((s.bump (adMacStat m 33) 1).traceEnds p.trace true false false).dropDest k (.mac m c)))

/-- A full page, in a tick after that of its stamp, or an open one left alone for FLUSH_NS, is written when its octets are
present, and up to 8 pages are read back
(R319, R417); a lane that asks for an SDU 4 ticks after its last request, and before or without the other, is served (R170,
R326), and a node waiting on the calendar becomes eligible at its slot (R328). -/
def Obligations.QueuesSpillAndServe : Prop :=
  (∀ (s : State) (p : BitVec 26) (g : Page), s.traffic = true → (s.page p.toNat).isSome = true →
    let u := if s.cat.stamped.contains p.toNat then s.endTick else s
    u.traffic = true → u.page p.toNat = some g → g.written = false → g.fill = pageData → u.pagePresent g = true →
    exec (.pageWrite p) s = .next (u.writePage p.toNat g)) ∧
  (∀ (s : State) (h : BitVec 19) (p p' : Nat) (g g' : Page), s.flushable h.toNat = some (p, g) →
    let u := s.waitUntil (s.pageFlushTick h.toNat)
    u.pageFlushTick h.toNat ≤ u.now → u.flushable h.toNat = some (p', g') →
    exec (.pageFlush h) s = .next
      (((u.setDq h.toNat { u.dq h.toNat with openPage := none }).bump 0x1D00409 1).writePage p' g')) ∧
  (∀ (s : State) (h : BitVec 19) (fx : Nat), s.traffic = true →
    let pages := ((((s.dq h.toNat).entries.flatMap (·.pages)).eraseDups).take 8).filter (fun p =>
      (s.page p).any (fun g => g.written && !g.back))
    pages ≠ [] → exec (.pageReadBack { queue := h, fixed := fx }) s = .next
      ((pages.foldl (fun s p =>
        (s.setPage p ((s.page p).map (fun g => { g with back := true }))).monEv 20 (p / pcPages / 32) 2 1) s).bump
          (0x300 + 2 * 20) fx)) ∧
  (∀ (s : State) (t : BitVec 7) (l : Bool), s.laneAsks t.toNat (b2n l) = true →
    let u := s.waitUntil (s.laneTick t.toNat (b2n l))
    u.laneAsks t.toNat (b2n l) = true → u.otherFirst t.toNat (b2n l) = false →
    exec (.laneRequest t l) s = .next (u.serveLane t.toNat (b2n l))) ∧
  ∀ (s : State) (n : Nat) (x : Bool) (b b' : Bucket) (k : Nat), s.running = true → s.bucket? n (b2n x) = some b →
    b.slot = some k →
    let u := (s.toFine n (b2n x)).waitUntil k
    u.running = true → u.bucket? n (b2n x) = some b' → b'.slot = some k →
    exec (.calendarEligible n x) s = .next (u.putBucket n (b2n x) (some { b' with slot := none }))

/-- A MAC whose line is free starts a frame unless two have started on its port in this tick (R333); gate entries and list changes
come at their times (R335); a MAC that goes down gives up its packets (R195); a punted packet that is whole goes to the
punt ring when the shaper lets it, and a bad one is dropped (R423, R424). -/
def Obligations.EgressAndPuntComplete : Prop :=
  (∀ (s : State) (m : BitVec 8), s.traffic = true → s.macUp m.toNat = true →
    let u := s.waitUntil (ceilDiv (smGet (fun _ => 0) s.dsq.lineFree m.toNat) 100)
    u.traffic = true → u.macUp m.toNat = true →
    ((smGet (fun _ => []) u.dsq.lastStart (m.toNat / 8)).filter (· == u.now)).length < 2 →
    exec (.macFrameStart m) s = .next (u.startFrame m.toNat)) ∧
  (∀ (s : State) (m : BitVec 8) (y b i : Nat), s.running = true → (s.gatesAt m.toNat s.gateNow).2.2 = some y →
    let u := s.waitUntil (s.tickOfNt (y * 2 ^ 40))
    u.running = true → (u.gatesAt m.toNat u.gateNow).2.1 = some (b, i) →
    let z := (u.setRf (adGate m.toNat 6) 9 0 i).settleEgress m.toNat
    exec (.gateEntry m) s = .next
      (if bitOf (z.gateEntry (m.toNat / 8) b i) 32 then z.traceEv 0x3C0 m.toNat (b * 1024 + i) else z)) ∧
  (∀ (s : State) (m : BitVec 8) (c : Nat), s.running = true → (s.gates m.toNat).pending = some c →
    let u := s.waitUntil (s.tickOfNt (c * 2 ^ 40))
    u.running = true → (u.gates m.toNat).pending = some c →
    exec (.gateListChangeTime m) s = .next (u.changeGates m.toNat u.gateNow)) ∧
  (∀ (s : State) (m : BitVec 8), s.running = true → exec (.lagMemberDown m) s = .next (s.emptyMac m.toNat)) ∧
  ∀ (s : State) (i : Nat) (p : Packet), s.puntDue = some (i, p) →
    (p.bad = true → exec .puntRecordWrite s = .next ((s.bump (0x1C00001 + 4 * 31) 1).killPkt i)) ∧
    (p.bad = false → (s.bucket? ndPunt 0).bind (·.slot) = none → exec .puntRecordWrite s = .next (s.puntRecord i p)) ∧
    (p.bad = false → ∀ n j p', (s.bucket? ndPunt 0).bind (·.slot) = some n → (s.waitUntil n).puntDue = some (j, p') →
      p'.bad = false → exec .puntRecordWrite s = .next ((s.waitUntil n).puntRecord j p'))

/-! ### Tables, keys and time -/

/-- The idle learn engine takes the oldest request (R383, R384), and in each tick puts what it learns, gives it up on a full table or
on a bridge port under TBL_FLUSH_PORT, or goes on (R104, R369 to R371); the aging scanner visits the next slot that it can
change (R387); queued slots, and those with an error to which the patrol comes, are scrubbed at the end of their tick, and words with a
single-bit error are counted (R369, R379, R543): how many, where no row says so, is a free value. In which order the patrol
visits the slots is the model's choice (log entry 143). A
static entry stays at an aging visit; one that was hit loses HIT and starts again at age 0; one that was not hit grows older,
and at age 3 it is removed and counted. -/
def Obligations.TableEnginesStep : Prop :=
  ((∀ (s : State) (r : LearnReq) (l : List LearnReq), s.traffic = true → s.tbl.learn = r :: l → s.tbl.going = none →
    exec .learnEngineStep s = .next
      { s with tbl := { s.tbl with learn := l, going := some (r, Insertion.fresh 1 (learnedEntry r)) } }.someFixed) ∧
  (∀ (s : State) (r : LearnReq) (i : Insertion), s.tbl.going = some (r, i) →
    (s.flushing r.port = true → s.learnTick = (s.learnFail r).learnIdle) ∧
    (∀ k ws, s.flushing r.port = false → i.phase = .read → s.findMac r.bd r.mac = some (k, ws) →
      (s.copyTouched (entryKey 1 ws) = true → s.learnTick = s.learnOn r i.again) ∧
      (s.copyTouched (entryKey 1 ws) = false → s.learnTick = (s.learnFound r ws).learnIdle)) ∧
    (s.flushing r.port = false → i.phase ≠ .read → s.findMac r.bd r.mac = none →
      (∀ k, s.insertStep i (fun x => s.tbl.cmdSlots.contains x) = .room k →
        s.learnTick = ((s.addEntry 1 k (learnedEntry r)).bump 0x1800010 1).learnIdle) ∧
      (s.insertStep i (fun x => s.tbl.cmdSlots.contains x) = .full → s.learnTick = (s.learnFail r).learnIdle) ∧
      ∀ j u, s.insertStep i (fun x => s.tbl.cmdSlots.contains x) = .more j u → s.learnTick = u.learnOn r j)) ∧
  (∀ (s : State) (g : Nat), s.aging = true → s.ageStep ≠ 0 → s.ageGap = some g →
    let u := s.ageWait (ceilDiv (s.ageSkip g).tbl.ageAt (2 ^ 22) - s.now)
    ∀ k, u.running = true → u.aging = true → u.ageGap = some k → (u.ageSkip k).tbl.ageAt ≤ u.now * 2 ^ 22 →
    let v := u.ageSkip k
    exec .agingVisit s = .next
      { v.ageSkip 1 with tbl := { (v.ageSkip 1).tbl with visits := v.tbl.ageSlot :: v.tbl.visits } }.someFixed) ∧
  (∀ (s : State) (t : BitVec 2) (k : Nat) (l : List Nat), s.running = true →
    smGet (fun _ => []) s.tbl.scrub (t.toNat + 1) = k :: l →
    let u := s.unqueueScrub (t.toNat + 1) k
    exec (.scrubStep t) s = .next { u with tbl := { u.tbl with scrubs := u.tbl.scrubs ++ [(t.toNat + 1, k)] } }) ∧
  (∀ (s : State) (t k : Nat), s.tbl.scrubs = [(t, k)] → (∀ x ∈ s.patrolDues, x.1 ≠ s.now) →
    s.scrubTick = if s.slotBad t k then (s.scrub t k).unqueueScrub t k else s) ∧
  (∀ (s : State) (t k : Nat), s.tbl.scrubs = [] → s.patrolDues.filter (fun x => x.1 == s.now) = [(s.now, t, k)] →
    s.slotBad t k = true → s.scrubTick = (s.scrub t k).unqueueScrub t k) ∧
  ∀ (s : State) (t : BitVec 2) (k n : Nat), s.running = true → s.mode ≠ .spring →
    let u := s.waitUntil (s.patrolTick (t.toNat + 1) k)
    u.running = true → u.mode ≠ .spring →
    (u.slotBad (t.toNat + 1) k = true → exec (.patrolScrubVisit t { slot := k, fixed := n }) s = .next u) ∧
    (u.slotBad (t.toNat + 1) k = false → exec (.patrolScrubVisit t { slot := k, fixed := n }) s = .next (u.wordsFixed n))) ∧
  (∀ (s : State) (k : Nat) (ws : List Word), s.slotEntry 1 k = some ws →
    let w := nth ws 2 0
    (macStatic ws = true → s.ageVisit k = s) ∧
    (macStatic ws = false → bitOf w 45 = true →
      s.ageVisit k = s.storeSlot 1 k [nth ws 0 0, nth ws 1 0, setFld w 45 43 0]) ∧
    (macStatic ws = false → bitOf w 45 = false → fld w 44 43 < 3 →
      s.ageVisit k = s.storeSlot 1 k [nth ws 0 0, nth ws 1 0, setFld w 44 43 (fld w 44 43 + 1)]) ∧
    (macStatic ws = false → bitOf w 45 = false → fld w 44 43 = 3 →
      s.ageVisit k = (s.removeSlot 1 k).bump 0x1800017 1))

/-- A generation retires when its last packet has gone (R363), an idle walk context is released (R101), an expired lease releases the
key-unit lock, counts and tells (R448), and a tenant whose other epoch holds no page gets its next XTS key (R444). -/
def Obligations.DeferredReleasesHappen : Prop :=
  (∀ (s : State) (n : Nat), s.running = true → s.retiring = true → s.retireTick = some n →
    (s.waitUntil n).running = true → (s.waitUntil n).retireNow = true →
    exec .genSwapRetire s = .next (s.waitUntil n).freeCopy) ∧
  (∀ (s : State) (x : BitVec 3) (w : Walk), s.running = true → s.walk x.toNat = some w → s.walkBusy x.toNat = false →
    let u := s.waitUntil (w.used + s.rf 0x11007 15 0 * 10 ^ 9)
    u.running = true → exec (.walkContextRelease x) s = .next (u.setWalk x.toNat none)) ∧
  (∀ (s : State) (q e : Nat), s.key.lock = some (q, e) → s.keyOpRuns q = false →
    exec .leaseExp s = .next (s.waitUntil e).endTick) ∧
  (∀ (s : State) (q e : Nat), s.key.lock = some (q, e) → e ≤ s.now → s.keyOpRuns q = false →
    s.leaseEnd = ({ s with key := { s.key with lock := none } }.bump 0x70012 1).notice 0x140 q 0) ∧
  ∀ (s : State) (t : BitVec 6), s.running = true → s.xtsReady t.toNat = false →
    s.raw (adXts t.toNat (2 + (1 - s.xtsEpoch t.toNat))) = 0 →
    exec (.xtsKeyDraw t) s = .next ((s.drawXts t.toNat (1 - s.xtsEpoch t.toNat)).setRf (adXts t.toNat 0) 45 45 1)

/-- A 1PPS edge 500 ms or more after the last is stamped with its tick and network time, and carries out the TIME_SET that waits for
one; with no edge for 2 s that command is ABORTED (R462 to R467). PPS_OUT rises at its instant and falls PPSOUT_W later, unless it is
still high (R466). -/
def Obligations.PulsesPerSecondAreHandled : Prop :=
  (∀ s : State, s.running = true → (∀ n, s.ppsAt = some n → n + 500000000 ≤ s.now) → s.ppsWait = none →
    let t := s.ppsEdge
    exec .ppsInEdge s = .next t ∧ t.raw 0x80008 = toWord s.tick48 ∧ t.raw 0x80009 = toWord (s.nt / (10 ^ 9 * 2 ^ 40)) ∧
      t.raw 0x8000A = toWord (s.nt / 2 ^ 40 % 10 ^ 9) ∧ t.raw 0x8000B = s.raw 0x8000B + 1 ∧ t.ppsAt = some s.now ∧
      t.nt = s.nt ∧ t.now = s.now) ∧
  (∀ (s : State) (q q' a x x' : Nat), s.ppsWait = some (q, a, x) →
    let u := s.waitUntil (a + 2 * 10 ^ 9)
    u.running = true → u.ppsWait = some (q', a, x') →
    exec .timeSetPpsTimeout s = .next (u.endExec q' stAborted 0 0)) ∧
  ∀ s : State, s.running = true → s.rb 0x80010 47 = true →
    let u := s.waitUntil (s.tickOfNt s.ppsNext)
    u.running = true → u.rb 0x80010 47 = true →
    let x := { u with ppsOut := some u.now }
    let n := u.now + u.rf 0x80011 29 0
    (u.now < u.ppsLow → exec .ppsOutEdge s = .next x) ∧
    (u.ppsLow ≤ u.now → exec .ppsOutEdge s = .next
      (({ x with ppsLow := n }.emit (.pin 3 0 true u.now)).emit (.pin 3 0 false n)))

/-! ### Counters, traces and events -/

/-- The end of a bandwidth window gives each point its count (R513); a counter dump starts with its header, or is skipped while one
runs, and ends with its trailer when its body has been read (R516, R517). A traced packet or burst that has ended gives its
record, and one that has not ended after a second gives it with TIMEOUT (R522); the oldest event record is written when the
ring has room, its write is tried again after 10 microseconds, dropped records are told by a GAP record, and HOLDOFF_US after
the oldest unsignalled record vector 9 is sent (R526, R531, R532). -/
def Obligations.MonitorRecordsAreWritten : Prop :=
  ((∀ s : State, s.running = true → s.rb 0x40020 47 = true →
    let e := s.mon.bwFrom + s.rf 0x40020 29 0
    let x := s.waitUntil e
    x.running = true → x.rb 0x40020 47 = true →
    let y := (List.range 1024).foldl State.bwPoint x
    exec .bandwidthWindowEnd s = .next { y with mon := { y.mon with bwFrom := e, bw := [] } }) ∧
  (∀ (s : State) (e : Nat), s.running = true → s.dumpDue = some e →
    let x := s.waitUntil e
    x.running = true → x.dumpDue = some e →
    let y := { x with mon := { x.mon with dump := { x.mon.dump with next := x.mon.dump.next + 1 } } }
    (x.mon.dump.run = none → exec .counterDumpStart s = .next y.startDump) ∧
    (x.mon.dump.run ≠ none → exec .counterDumpStart s = .next
      ((y.bump 0x40032 1).notice 0x0C0 0 ((y.raw 0x40031).toNat % 2 ^ 24)))) ∧
  ∀ (s : State) (q n f : Nat), s.running = true → s.mon.dump.run = some (q, n, f) →
    let x := s.waitUntil (max s.now s.mon.dump.holdTill + ceilDiv (dumpBody f - s.mon.dump.done) 8)
    x.running = true → x.mon.dump.run = some (q, n, f) → x.mon.dump.done = dumpBody f →
    let z := x.putFrame (x.mon.dump.area + 64 + 8 * dumpBody f) [toWord q, toWord x.tick48, x.raw 0x40032, 0, 0, 0, 0, 0]
    exec .counterDumpEnd s = .next ({ z with mon := { z.mon with dump := { z.mon.dump with run := none } } }.msix 0 10)) ∧
  ((∀ (s : State) (k : BitVec 6) (t : TraceSlot) (e : Bool × Bool × Bool), s.running = true →
    s.traceSlot k.toNat = some t → t.ended = some e → exec (.traceEnd k) s = .next (s.putTrace k.toNat t e)) ∧
  (∀ (s : State) (k : BitVec 6) (t : TraceSlot), s.running = true → s.traceSlot k.toNat = some t → t.ended = none →
    let u := s.waitUntil (t.base + 10 ^ 9)
    u.running = true → u.traceSlot k.toNat = some t →
    exec (.traceTimeout k) s = .next (u.putTrace k.toNat t (false, false, true))) ∧
  (∀ s : State, s.writerOpen = true → (s.waitUntil s.writerTick).writerOpen = true →
    exec .eventRecordWrite s = .next (s.waitUntil s.writerTick).writeRecord) ∧
  (∀ s : State, s.writerOpen = true →
    let x := s.waitUntil s.writerTick
    x.writerOpen = true →
    exec .eventWriteRetry s = .next { x with evt := { x.evt with retryAt := some (x.now + 10000) } }) ∧
  (∀ s : State, s.running = true → s.evt.gapped = true → s.evt.staged.length < 8 * s.rf 0x20008 6 0 →
    let g (k : Nat) : Nat := min 65535 (smGet (fun _ => 0) s.evt.gap k)
    let r : EvRec :=
      { cls := 2, code := 0x081, rep := 0, tick := s.now, arg := mkWord [(32, g 1), (16, g 2), (0, g 3)] }
    exec .evtGap s = .next { s with evt := { s.evt with staged := insertRec r s.evt.staged, gap := [], gapped := false } }) ∧
  ∀ (s : State) (n : Nat), s.running = true → s.evt.oldest = some n →
    let x := s.waitUntil (n + s.rf 0x20005 31 0 * 1000)
    x.running = true → x.evt.oldest = some n → exec .holdoffUs s = .next x.signal9)

/-! ### The Ohmad ring -/

/-- The master sends its token each period, a token that comes back on every port is complete with its round trip in RTT, and copies
that are out for longer than the limit are late; a member passes each first copy on and notes a token that it misses (R481
to R483). -/
def Obligations.TokensCirculate : Prop :=
  (∀ s : State, s.ohmRuns = true → s.ohmMaster = true →
    let x := s.waitUntil ((s.ohm.sentAt.map (· + s.ohmPeriod)).getD 0)
    x.ohmRuns = true → x.ohmMaster = true → exec .masterTokenSend s = .next (x.sendToken none)) ∧
  (∀ (s : State) (m : BitVec 8) (ws : List Word), s.ohmHears m.toNat = true → ohmKind ws ≠ 1 → s.firstCommit ws = false →
    exec (.tokenReceived m ws) s = .next (s.takeToken m.toNat ws)) ∧
  (∀ (s : State) (m : BitVec 8) (ws : List Word), s.ohmHears m.toNat = true → s.firstCommit ws = true →
    let r := (s.countToken.tokenFirst ws).answerCommit ws
    exec (.commitTokenReceived m ws) s = .next (r.1.passToken m.toNat r.2)) ∧
  (∀ (s : State) (t : TokenOut), s.ohmRuns = true → s.ohm.out.find? (fun t => t.left.isEmpty) = some t →
    let x := (s.setRf (adOhm 8) 31 0 t.rtt).setRf (adOhm 8) 44 43 (if t.turned then 1 else 2)
    exec .tokenComplete s = .next { x with ohm := { x.ohm with out := x.ohm.out.filter (fun y => y.seq != t.seq) } }) ∧
  (∀ (s : State) (t : TokenOut), s.ohmRuns = true → s.ohm.out.find? (fun t => !t.left.isEmpty && !t.late) = some t →
    (s.waitUntil (t.at_ + s.rttLimit)).ohmRuns = true → (s.waitUntil (t.at_ + s.rttLimit)).ohm.out.contains t = true →
    exec .tokenLate s = .next ((s.waitUntil (t.at_ + s.rttLimit)).lateToken t)) ∧
  ∀ s : State, s.listens = true → (s.waitUntil s.lostTick).listens = true →
    exec .tokenLost s = .next (((s.waitUntil s.lostTick).setRf (adOhm 8) 45 45 1).notice 0x1C3 0 0)

/-- A pending commit takes effect at its tick, and a digest that runs gives its value (R489, R490). The active member of a tree sends its
SFC, changed and refreshed records at their times (R495), mirror frames are taken by their kind (R496, R498, R499), silence of
the active member stamps a takeover, which takes effect at the end of its tick, and a handover that is not answered gives its notice (R498). -/
def Obligations.CommitsMirrorsAndSwitchover : Prop :=
  ((∀ (s : State) (c : Nat), s.ohmRuns = true → s.ohm.commit = some c →
    let x := s.waitUntil (s.tickOfNt c)
    x.ohmRuns = true → x.ohm.commit = some c → exec .ringCommit s = .next (x.commitAt c)) ∧
  ∀ (s : State) (e : Nat), s.running = true → s.ohm.digRun = some e →
    let x := s.waitUntil s.ohm.digAt
    x.running = true → x.ohm.digRun = some e → exec .digestComplete s = .next (x.endDigest e)) ∧
  ((∀ (s : State) (t : BitVec 7), s.mirrors t.toNat = true →
    let n := smGet (fun _ => 0) s.ohm.sfcSent t.toNat
    let x := s.waitUntil (if n = 0 then 0 else n - 1 + s.ohmPeriod)
    x.mirrors t.toNat = true →
    let y := { x with ohm := { x.ohm with sfcSent := smSet (fun _ => 0) x.ohm.sfcSent t.toNat (x.now + 1) } }
    exec (.sfcRecordSend t) s = .next (y.sendMirror t.toNat [x.sfcRecord t.toNat false])) ∧
  (∀ (s : State) (t : BitVec 7), s.mirrors t.toNat = true →
    exec (.mirrorChangeSend t) s = .next (s.sendItems t.toNat (s.mirChanged t.toNat))) ∧
  (∀ (s : State) (t : BitVec 7), s.mirrors t.toNat = true →
    let n := smGet (fun _ => 0) s.ohm.refreshed t.toNat
    let x := s.waitUntil (if n = 0 then 0 else n - 1 + s.rf (adOhm 4) 15 0 * 10 ^ 6)
    x.mirrors t.toNat = true →
    let y := { x with ohm := { x.ohm with refreshed := smSet (fun _ => 0) x.ohm.refreshed t.toNat (x.now + 1) } }
    exec (.mirrorRefresh t) s = .next (y.sendItems t.toNat (x.mirUsed t.toNat))) ∧
  (∀ (s : State) (m : BitVec 8) (ws : List Word), s.ohmHears m.toNat = true → ohmKind ws = 1 → s.ohmForeign ws = false →
    (mirKind ws = .plain → exec (.mirrorFrameReceived m ws) s = .next (s.mirFrame m.toNat ws)) ∧
    (mirKind ws = .handover → exec (.handover m ws) s = .next (s.mirFrame m.toNat ws)) ∧
    (mirKind ws = .release → exec (.takeover m ws) s = .next (s.mirFrame m.toNat ws))) ∧
  (∀ (s : State) (t : BitVec 7) (n : Nat), s.awaitsSfc t.toNat = true → smGet (fun _ => 0) s.ohm.silent t.toNat = n → n ≠ 0 →
    let x := s.waitUntil (n - 1 + s.rf (adOhm 3) 31 16 * 10 ^ 6)
    x.awaitsSfc t.toNat = true → smGet (fun _ => 0) x.ohm.silent t.toNat = n →
    exec (.silenceTimeout t) s = .next (x.stampTakeover t.toNat 2)) ∧
  (∀ (s : State) (t cause : Nat), s.ohm.taking = [] → s.running = true →
    let x := s.stampTakeover t cause
    (∀ a, (a = adTree t 0 ∨ a = adOhm (0x100 + 2 * t)) → x.claimsWord a = true) ∧
      x.ohm.taking = [(t, cause)] ∧ x.regs = s.regs ∧
      x.takeoversEnd = ({ x with ohm := { x.ohm with taking := [] } }).takeover t cause) ∧
  ∀ (s : State) (t : BitVec 7) (n : Nat), s.ohmRuns = true → smGet (fun _ => 0) s.ohm.asked t.toNat = n → n ≠ 0 →
    let x := s.waitUntil (n - 1 + 2 * s.rttLimit)
    x.ohmRuns = true → smGet (fun _ => 0) x.ohm.asked t.toNat = n →
    exec (.handoverTimeout t) s = .next
      ({ x with ohm := { x.ohm with asked := smSet (fun _ => 0) x.ohm.asked t.toNat 0 } }.notice 0x1C7 t.toNat 0))

/-! ### The flash -/

/-- The flash operation in progress ends: a refused one with its code and no change, ERASE with its range erased, PROGRAM with its
octets put where the flash was erased, CHECK with the slot's verdict, ROLLBACK with the floors raised to those of the booted
image, KEY_PROGRAM with the key programmed (R571). -/
def Obligations.FlashOperationsComplete : Prop :=
  ∀ (s : State) (o : ImgOp) (x : List Byte) (d : Nat), s.running = true → s.img.op = some o →
    (o.bad ≠ 0 → ∀ h f, exec (.imgOpDone x h f d) s = .next (s.endImg o o.bad)) ∧
    (o.bad = 0 →
      (o.op = 0 → exec (.imgOpDone x false false d) s = .next
        (((s.eraseFlash o.flash (o.flash + o.len)).setRf 0xC016 25 0 o.len).endImg o 0)) ∧
      (o.op = 1 → s.erasedRun o.flash o.len = o.len → exec (.imgOpDone x false false d) s = .next
        (((s.putFlash o.flash (takePad o.len 0 x)).setRf 0xC016 25 0 o.len).endImg o 0)) ∧
      (o.op = 2 → exec (.imgOpDone x false false d) s = .next
        ((s.setReg 0xC015 (s.checkSlot (b2n o.slot))).endImg o 0)) ∧
      (o.op = 3 → exec (.imgOpDone x false false d) s = .next (s.imgBoot o o.trial (b2n o.slot) false d)) ∧
      (o.op = 4 → exec (.imgOpDone x false false d) s = .next (s.imgBoot o false (s.rf 0xC000 0 0) false d)) ∧
      (o.op = 6 → exec (.imgOpDone x false false d) s = .next
        ({ s with img := { s.img with key := some (keyOf (bytesNat (takePad 16 0 x))) } }.endImg o 0)) ∧
      (o.op = 5 → ∃ t, exec (.imgOpDone x false false d) s = .next t ∧
        t.img.fwMin = max s.img.fwMin s.img.fwRb ∧ t.img.imgMin = s.img.rbs.foldl max s.img.imgMin))

/-! ### What the words of a command say -/

/-- No two commands of one port have the same words: from the header and the operands that follow it, whatever stands behind them, the
opcode and every field of the command can be read back (R64, Table 3.1). -/
def Obligations.CommandWordsNameOneCommand : Prop :=
  ∀ (c c' : Cmd) (op op' : Nat) (r r' : List Word), c.port = c'.port → c.wf = true → c'.wf = true → op < 64 → op' < 64 →
    c.header op :: c.ops ++ r = c'.header op' :: c'.ops ++ r' → c = c' ∧ op = op' ∧ r = r'


/-! ### What every step keeps -/

/-- A step takes at most the one row at the front of the queue and puts none there: whatever a row does, a soft reset or a
reset of the device included, the rows behind it stay and keep their order. The queue is the model's own, not the spec's. -/
def Obligations.StepTakesOneRow : Prop :=
  ∀ s t : State, step s = .next t → t.pending = s.pending.tail

/-- No step lowers a rollback floor or changes a programmed IMG_KEY (R571): of every state in which a KEY_PROGRAM that is under
way waits only while no key is programmed, and every step leaves such a state. -/
def Obligations.FusesNeverUnblow : Prop :=
  ∀ s t : State, s.keyWaits → step s = .next t → t.keyWaits ∧ s.fusesHold t

/-- At reset no flash operation is under way, no key is programmed and the rollback floors are those of a part as made. -/
def Obligations.ResetFusesUnblown : Prop :=
  State.reset.keyWaits ∧ State.reset.img.key = none ∧ State.reset.img.fwMin = 0 ∧ State.reset.img.imgMin = 0
end

