-- ==== Sys2Proof/Laws/Sparse.lean ====
section
/-! SUPPORT. Sparse storage: what a write leaves at its key and at every other, and that it keeps the canonical form. -/

namespace Sys2Proof.Machine

variable {α : Type}

@[simp] theorem smFind_erase_same (m : SMap α) (k : Nat) : smFind (smErase m k) k = none := by
  induction m with
  | nil => rfl
  | cons x m ih => by_cases h : x.1 = k <;> simp [smErase, smFind, h, ih]

theorem smFind_erase_ne (m : SMap α) {k j : Nat} (h : j ≠ k) : smFind (smErase m k) j = smFind m j := by
  induction m with
  | nil => rfl
  | cons x m ih =>
    by_cases hx : x.1 = k
    · have : x.1 ≠ j := fun e => h (e.symm.trans hx)
      simp [smErase, smFind, hx, ih]; intro e; exact absurd e.symm h
    · simp [smErase, smFind, hx, ih]

theorem smFind_put_same (m : SMap α) {k : Nat} (v : α) (h : smFind m k = none) : smFind (smPut m k v) k = some v := by
  induction m with
  | nil => simp [smPut, smFind]
  | cons x m ih =>
    have hx : x.1 ≠ k := by intro e; simp [smFind, e] at h
    have hm : smFind m k = none := by simpa [smFind, hx] using h
    by_cases hl : k < x.1 <;> simp [smPut, smFind, hl, hx, ih hm]

theorem smFind_put_ne (m : SMap α) {k j : Nat} (v : α) (h : j ≠ k) : smFind (smPut m k v) j = smFind m j := by
  induction m with
  | nil => simp [smPut, smFind, Ne.symm h]
  | cons x m ih =>
    by_cases hl : k < x.1
    · simp [smPut, smFind, hl, Ne.symm h]
    · simp [smPut, smFind, hl, ih]

/-- Reading a key just written gives the value written. -/
@[simp] theorem smGet_smSet_same [DecidableEq α] (d : Nat → α) (m : SMap α) (k : Nat) (v : α) :
    smGet d (smSet d m k v) k = v := by
  by_cases h : v = d k
  · simp [smSet, smGet, h]
  · simp [smSet, smGet, h, smFind_put_same _ v (smFind_erase_same m k)]

/-- A write leaves every other key as it was. -/
theorem smGet_smSet_ne [DecidableEq α] (d : Nat → α) (m : SMap α) {k j : Nat} (v : α) (h : j ≠ k) :
    smGet d (smSet d m k v) j = smGet d m j := by
  by_cases hv : v = d k
  · simp [smSet, smGet, hv, smFind_erase_ne m h]
  · simp [smSet, smGet, hv, smFind_put_ne _ v h, smFind_erase_ne m h]

/-- Reading after a write, by cases. -/
theorem smGet_smSet [DecidableEq α] (d : Nat → α) (m : SMap α) (k j : Nat) (v : α) :
    smGet d (smSet d m k v) j = if j = k then v else smGet d m j := by
  by_cases h : j = k
  · subst h; simp
  · simp [h, smGet_smSet_ne d m v h]

/-- A write of a run of values leaves each of them at its key. -/
theorem smGet_smSetList [DecidableEq α] (d : Nat → α) (vs : List α) (m : SMap α) (k j : Nat) :
    smGet d (smSetList d m k vs) j =
      if k ≤ j ∧ j < k + vs.length then vs.getD (j - k) (d j) else smGet d m j := by
  induction vs generalizing m k with
  | nil => simp [smSetList]
  | cons v vs ih =>
    rw [smSetList, ih, smGet_smSet]
    rcases Nat.lt_trichotomy j k with h | h | h
    · rw [if_neg (by omega), if_neg (by omega), if_neg (by omega)]
    · subst h; rw [if_neg (by omega), if_pos rfl, if_pos (by simp)]; simp
    · by_cases hj : j < k + 1 + vs.length
      · rw [if_pos ⟨by omega, hj⟩, if_pos ⟨by omega, by simp; omega⟩]
        obtain ⟨i, hi⟩ : ∃ i, j - k = i + 1 := ⟨j - k - 1, by omega⟩
        have : j - (k + 1) = i := by omega
        simp [hi, this]
      · rw [if_neg (by omega), if_neg (by omega), if_neg (by simp; omega)]

theorem smWfFrom_mono [DecidableEq α] (d : Nat → α) {lo lo' : Nat} (m : SMap α) (h : lo' ≤ lo)
    (hw : smWfFrom d lo m = true) : smWfFrom d lo' m = true := by
  cases m with
  | nil => rfl
  | cons x m =>
    simp only [smWfFrom, Bool.and_eq_true, decide_eq_true_eq] at hw ⊢
    exact ⟨⟨Nat.le_trans h hw.1.1, hw.1.2⟩, hw.2⟩

theorem smWfFrom_erase [DecidableEq α] (d : Nat → α) (k lo : Nat) (m : SMap α) (hw : smWfFrom d lo m = true) :
    smWfFrom d lo (smErase m k) = true := by
  induction m generalizing lo with
  | nil => rfl
  | cons x m ih =>
    simp only [smWfFrom, Bool.and_eq_true, decide_eq_true_eq] at hw
    by_cases hx : x.1 = k
    · simp only [smErase, hx, if_true]
      exact ih lo (smWfFrom_mono d m (by omega) hw.2)
    · simp only [smErase, hx, if_false, smWfFrom, Bool.and_eq_true, decide_eq_true_eq]
      exact ⟨hw.1, ih _ hw.2⟩

theorem smWfFrom_put [DecidableEq α] (d : Nat → α) (k lo : Nat) (v : α) (m : SMap α) (hw : smWfFrom d lo m = true)
    (hv : v ≠ d k) (hl : lo ≤ k) (hk : smFind m k = none) : smWfFrom d lo (smPut m k v) = true := by
  induction m generalizing lo with
  | nil => simp [smPut, smWfFrom, hv, hl]
  | cons x m ih =>
    simp only [smWfFrom, Bool.and_eq_true, decide_eq_true_eq] at hw
    have hx : x.1 ≠ k := by intro e; simp [smFind, e] at hk
    by_cases hlt : k < x.1
    · simp only [smPut, hlt, if_true, smWfFrom, Bool.and_eq_true, decide_eq_true_eq]
      exact ⟨⟨hl, hv⟩, ⟨by omega, hw.1.2⟩, hw.2⟩
    · simp only [smPut, hlt, if_false, smWfFrom, Bool.and_eq_true, decide_eq_true_eq]
      exact ⟨hw.1, ih _ hw.2 (by omega) (by simpa [smFind, hx] using hk)⟩

/-- A write keeps the canonical form. -/
theorem smWf_smSet [DecidableEq α] (d : Nat → α) (m : SMap α) (k : Nat) (v : α) (hw : smWf d m = true) :
    smWf d (smSet d m k v) = true := by
  have he := smWfFrom_erase d k 0 m hw
  by_cases hv : v = d k
  · simpa [smSet, smWf, hv] using he
  · simpa [smSet, smWf, hv] using smWfFrom_put d k 0 v _ he hv (Nat.zero_le _) (smFind_erase_same m k)

/-- So does a write of a run of values. -/
theorem smWf_smSetList [DecidableEq α] (d : Nat → α) (vs : List α) (m : SMap α) (k : Nat) (hw : smWf d m = true) :
    smWf d (smSetList d m k vs) = true := by
  induction vs generalizing m k with
  | nil => exact hw
  | cons v vs ih => exact ih _ _ (smWf_smSet d m k v hw)

end Sys2Proof.Machine
end

