-- ==== Sys2Proof/Laws/State.lean ====
section
/-! SUPPORT. The basic updates of the state: each leaves every field but its own as it is, and what it leaves in its own. -/

namespace Sys2Proof.Machine

/-! ### setReg changes `regs` alone -/

@[simp] theorem setReg_pending (s : State) (a : Nat) (w : Word) : (s.setReg a w).pending = s.pending := (rfl)
@[simp] theorem setReg_out (s : State) (a : Nat) (w : Word) : (s.setReg a w).out = s.out := (rfl)
@[simp] theorem setReg_free (s : State) (a : Nat) (w : Word) : (s.setReg a w).free = s.free := (rfl)
@[simp] theorem setReg_start (s : State) (a : Nat) (w : Word) : (s.setReg a w).start = s.start := (rfl)
@[simp] theorem setReg_claims (s : State) (a : Nat) (w : Word) : (s.setReg a w).claims = s.claims := (rfl)
@[simp] theorem setReg_now (s : State) (a : Nat) (w : Word) : (s.setReg a w).now = s.now := (rfl)
@[simp] theorem setReg_nt (s : State) (a : Nat) (w : Word) : (s.setReg a w).nt = s.nt := (rfl)
@[simp] theorem setReg_ntSet (s : State) (a : Nat) (w : Word) : (s.setReg a w).ntSet = s.ntSet := (rfl)
@[simp] theorem setReg_ntWas (s : State) (a : Nat) (w : Word) : (s.setReg a w).ntWas = s.ntWas := (rfl)
@[simp] theorem setReg_stamps (s : State) (a : Nat) (w : Word) : (s.setReg a w).stamps = s.stamps := (rfl)
@[simp] theorem setReg_ppsAt (s : State) (a : Nat) (w : Word) : (s.setReg a w).ppsAt = s.ppsAt := (rfl)
@[simp] theorem setReg_ppsOut (s : State) (a : Nat) (w : Word) : (s.setReg a w).ppsOut = s.ppsOut := (rfl)
@[simp] theorem setReg_ppsLow (s : State) (a : Nat) (w : Word) : (s.setReg a w).ppsLow = s.ppsLow := (rfl)
@[simp] theorem setReg_regdef (s : State) (a : Nat) (w : Word) : (s.setReg a w).regdef = s.regdef := (rfl)
@[simp] theorem setReg_mode (s : State) (a : Nat) (w : Word) : (s.setReg a w).mode = s.mode := (rfl)
@[simp] theorem setReg_prevMode (s : State) (a : Nat) (w : Word) : (s.setReg a w).prevMode = s.prevMode := (rfl)
@[simp] theorem setReg_modeTick (s : State) (a : Nat) (w : Word) : (s.setReg a w).modeTick = s.modeTick := (rfl)
@[simp] theorem setReg_drainLimited (s : State) (a : Nat) (w : Word) : (s.setReg a w).drainLimited = s.drainLimited := (rfl)
@[simp] theorem setReg_drain (s : State) (a : Nat) (w : Word) : (s.setReg a w).drain = s.drain := (rfl)
@[simp] theorem setReg_sp (s : State) (a : Nat) (w : Word) : (s.setReg a w).sp = s.sp := (rfl)
@[simp] theorem setReg_flt (s : State) (a : Nat) (w : Word) : (s.setReg a w).flt = s.flt := (rfl)
@[simp] theorem setReg_board (s : State) (a : Nat) (w : Word) : (s.setReg a w).board = s.board := (rfl)
@[simp] theorem setReg_img (s : State) (a : Nat) (w : Word) : (s.setReg a w).img = s.img := (rfl)
@[simp] theorem setReg_tap (s : State) (a : Nat) (w : Word) : (s.setReg a w).tap = s.tap := (rfl)
@[simp] theorem setReg_cmd (s : State) (a : Nat) (w : Word) : (s.setReg a w).cmd = s.cmd := (rfl)
@[simp] theorem setReg_evt (s : State) (a : Nat) (w : Word) : (s.setReg a w).evt = s.evt := (rfl)
@[simp] theorem setReg_key (s : State) (a : Nat) (w : Word) : (s.setReg a w).key = s.key := (rfl)
@[simp] theorem setReg_mon (s : State) (a : Nat) (w : Word) : (s.setReg a w).mon = s.mon := (rfl)
@[simp] theorem setReg_cfl (s : State) (a : Nat) (w : Word) : (s.setReg a w).cfl = s.cfl := (rfl)
@[simp] theorem setReg_cat (s : State) (a : Nat) (w : Word) : (s.setReg a w).cat = s.cat := (rfl)
@[simp] theorem setReg_dsq (s : State) (a : Nat) (w : Word) : (s.setReg a w).dsq = s.dsq := (rfl)
@[simp] theorem setReg_cls (s : State) (a : Nat) (w : Word) : (s.setReg a w).cls = s.cls := (rfl)
@[simp] theorem setReg_tbl (s : State) (a : Nat) (w : Word) : (s.setReg a w).tbl = s.tbl := (rfl)
@[simp] theorem setReg_trees (s : State) (a : Nat) (w : Word) : (s.setReg a w).trees = s.trees := (rfl)
@[simp] theorem setReg_allocs (s : State) (a : Nat) (w : Word) : (s.setReg a w).allocs = s.allocs := (rfl)
@[simp] theorem setReg_buckets (s : State) (a : Nat) (w : Word) : (s.setReg a w).buckets = s.buckets := (rfl)
@[simp] theorem setReg_bucketWas (s : State) (a : Nat) (w : Word) : (s.setReg a w).bucketWas = s.bucketWas := (rfl)
@[simp] theorem setReg_sets (s : State) (a : Nat) (w : Word) : (s.setReg a w).sets = s.sets := (rfl)
@[simp] theorem setReg_ohm (s : State) (a : Nat) (w : Word) : (s.setReg a w).ohm = s.ohm := (rfl)
@[simp] theorem setReg_msgNext (s : State) (a : Nat) (w : Word) : (s.setReg a w).msgNext = s.msgNext := (rfl)

/-! ### setRegs changes `regs` alone -/

@[simp] theorem setRegs_pending (s : State) (a : Nat) (ws : List Word) : (s.setRegs a ws).pending = s.pending := (rfl)
@[simp] theorem setRegs_out (s : State) (a : Nat) (ws : List Word) : (s.setRegs a ws).out = s.out := (rfl)
@[simp] theorem setRegs_free (s : State) (a : Nat) (ws : List Word) : (s.setRegs a ws).free = s.free := (rfl)
@[simp] theorem setRegs_start (s : State) (a : Nat) (ws : List Word) : (s.setRegs a ws).start = s.start := (rfl)
@[simp] theorem setRegs_claims (s : State) (a : Nat) (ws : List Word) : (s.setRegs a ws).claims = s.claims := (rfl)
@[simp] theorem setRegs_now (s : State) (a : Nat) (ws : List Word) : (s.setRegs a ws).now = s.now := (rfl)
@[simp] theorem setRegs_nt (s : State) (a : Nat) (ws : List Word) : (s.setRegs a ws).nt = s.nt := (rfl)
@[simp] theorem setRegs_ntSet (s : State) (a : Nat) (ws : List Word) : (s.setRegs a ws).ntSet = s.ntSet := (rfl)
@[simp] theorem setRegs_ntWas (s : State) (a : Nat) (ws : List Word) : (s.setRegs a ws).ntWas = s.ntWas := (rfl)
@[simp] theorem setRegs_stamps (s : State) (a : Nat) (ws : List Word) : (s.setRegs a ws).stamps = s.stamps := (rfl)
@[simp] theorem setRegs_ppsAt (s : State) (a : Nat) (ws : List Word) : (s.setRegs a ws).ppsAt = s.ppsAt := (rfl)
@[simp] theorem setRegs_ppsOut (s : State) (a : Nat) (ws : List Word) : (s.setRegs a ws).ppsOut = s.ppsOut := (rfl)
@[simp] theorem setRegs_ppsLow (s : State) (a : Nat) (ws : List Word) : (s.setRegs a ws).ppsLow = s.ppsLow := (rfl)
@[simp] theorem setRegs_regdef (s : State) (a : Nat) (ws : List Word) : (s.setRegs a ws).regdef = s.regdef := (rfl)
@[simp] theorem setRegs_mode (s : State) (a : Nat) (ws : List Word) : (s.setRegs a ws).mode = s.mode := (rfl)
@[simp] theorem setRegs_prevMode (s : State) (a : Nat) (ws : List Word) : (s.setRegs a ws).prevMode = s.prevMode := (rfl)
@[simp] theorem setRegs_modeTick (s : State) (a : Nat) (ws : List Word) : (s.setRegs a ws).modeTick = s.modeTick := (rfl)
@[simp] theorem setRegs_drainLimited (s : State) (a : Nat) (ws : List Word) : (s.setRegs a ws).drainLimited = s.drainLimited := (rfl)
@[simp] theorem setRegs_drain (s : State) (a : Nat) (ws : List Word) : (s.setRegs a ws).drain = s.drain := (rfl)
@[simp] theorem setRegs_sp (s : State) (a : Nat) (ws : List Word) : (s.setRegs a ws).sp = s.sp := (rfl)
@[simp] theorem setRegs_flt (s : State) (a : Nat) (ws : List Word) : (s.setRegs a ws).flt = s.flt := (rfl)
@[simp] theorem setRegs_board (s : State) (a : Nat) (ws : List Word) : (s.setRegs a ws).board = s.board := (rfl)
@[simp] theorem setRegs_img (s : State) (a : Nat) (ws : List Word) : (s.setRegs a ws).img = s.img := (rfl)
@[simp] theorem setRegs_tap (s : State) (a : Nat) (ws : List Word) : (s.setRegs a ws).tap = s.tap := (rfl)
@[simp] theorem setRegs_cmd (s : State) (a : Nat) (ws : List Word) : (s.setRegs a ws).cmd = s.cmd := (rfl)
@[simp] theorem setRegs_evt (s : State) (a : Nat) (ws : List Word) : (s.setRegs a ws).evt = s.evt := (rfl)
@[simp] theorem setRegs_key (s : State) (a : Nat) (ws : List Word) : (s.setRegs a ws).key = s.key := (rfl)
@[simp] theorem setRegs_mon (s : State) (a : Nat) (ws : List Word) : (s.setRegs a ws).mon = s.mon := (rfl)
@[simp] theorem setRegs_cfl (s : State) (a : Nat) (ws : List Word) : (s.setRegs a ws).cfl = s.cfl := (rfl)
@[simp] theorem setRegs_cat (s : State) (a : Nat) (ws : List Word) : (s.setRegs a ws).cat = s.cat := (rfl)
@[simp] theorem setRegs_dsq (s : State) (a : Nat) (ws : List Word) : (s.setRegs a ws).dsq = s.dsq := (rfl)
@[simp] theorem setRegs_cls (s : State) (a : Nat) (ws : List Word) : (s.setRegs a ws).cls = s.cls := (rfl)
@[simp] theorem setRegs_tbl (s : State) (a : Nat) (ws : List Word) : (s.setRegs a ws).tbl = s.tbl := (rfl)
@[simp] theorem setRegs_trees (s : State) (a : Nat) (ws : List Word) : (s.setRegs a ws).trees = s.trees := (rfl)
@[simp] theorem setRegs_allocs (s : State) (a : Nat) (ws : List Word) : (s.setRegs a ws).allocs = s.allocs := (rfl)
@[simp] theorem setRegs_buckets (s : State) (a : Nat) (ws : List Word) : (s.setRegs a ws).buckets = s.buckets := (rfl)
@[simp] theorem setRegs_bucketWas (s : State) (a : Nat) (ws : List Word) : (s.setRegs a ws).bucketWas = s.bucketWas := (rfl)
@[simp] theorem setRegs_sets (s : State) (a : Nat) (ws : List Word) : (s.setRegs a ws).sets = s.sets := (rfl)
@[simp] theorem setRegs_ohm (s : State) (a : Nat) (ws : List Word) : (s.setRegs a ws).ohm = s.ohm := (rfl)
@[simp] theorem setRegs_msgNext (s : State) (a : Nat) (ws : List Word) : (s.setRegs a ws).msgNext = s.msgNext := (rfl)

/-! ### setRf changes `regs` alone -/

@[simp] theorem setRf_pending (s : State) (a hi lo v : Nat) : (s.setRf a hi lo v).pending = s.pending := (rfl)
@[simp] theorem setRf_out (s : State) (a hi lo v : Nat) : (s.setRf a hi lo v).out = s.out := (rfl)
@[simp] theorem setRf_free (s : State) (a hi lo v : Nat) : (s.setRf a hi lo v).free = s.free := (rfl)
@[simp] theorem setRf_start (s : State) (a hi lo v : Nat) : (s.setRf a hi lo v).start = s.start := (rfl)
@[simp] theorem setRf_claims (s : State) (a hi lo v : Nat) : (s.setRf a hi lo v).claims = s.claims := (rfl)
@[simp] theorem setRf_now (s : State) (a hi lo v : Nat) : (s.setRf a hi lo v).now = s.now := (rfl)
@[simp] theorem setRf_nt (s : State) (a hi lo v : Nat) : (s.setRf a hi lo v).nt = s.nt := (rfl)
@[simp] theorem setRf_ntSet (s : State) (a hi lo v : Nat) : (s.setRf a hi lo v).ntSet = s.ntSet := (rfl)
@[simp] theorem setRf_ntWas (s : State) (a hi lo v : Nat) : (s.setRf a hi lo v).ntWas = s.ntWas := (rfl)
@[simp] theorem setRf_stamps (s : State) (a hi lo v : Nat) : (s.setRf a hi lo v).stamps = s.stamps := (rfl)
@[simp] theorem setRf_ppsAt (s : State) (a hi lo v : Nat) : (s.setRf a hi lo v).ppsAt = s.ppsAt := (rfl)
@[simp] theorem setRf_ppsOut (s : State) (a hi lo v : Nat) : (s.setRf a hi lo v).ppsOut = s.ppsOut := (rfl)
@[simp] theorem setRf_ppsLow (s : State) (a hi lo v : Nat) : (s.setRf a hi lo v).ppsLow = s.ppsLow := (rfl)
@[simp] theorem setRf_regdef (s : State) (a hi lo v : Nat) : (s.setRf a hi lo v).regdef = s.regdef := (rfl)
@[simp] theorem setRf_mode (s : State) (a hi lo v : Nat) : (s.setRf a hi lo v).mode = s.mode := (rfl)
@[simp] theorem setRf_prevMode (s : State) (a hi lo v : Nat) : (s.setRf a hi lo v).prevMode = s.prevMode := (rfl)
@[simp] theorem setRf_modeTick (s : State) (a hi lo v : Nat) : (s.setRf a hi lo v).modeTick = s.modeTick := (rfl)
@[simp] theorem setRf_drainLimited (s : State) (a hi lo v : Nat) : (s.setRf a hi lo v).drainLimited = s.drainLimited := (rfl)
@[simp] theorem setRf_drain (s : State) (a hi lo v : Nat) : (s.setRf a hi lo v).drain = s.drain := (rfl)
@[simp] theorem setRf_sp (s : State) (a hi lo v : Nat) : (s.setRf a hi lo v).sp = s.sp := (rfl)
@[simp] theorem setRf_flt (s : State) (a hi lo v : Nat) : (s.setRf a hi lo v).flt = s.flt := (rfl)
@[simp] theorem setRf_board (s : State) (a hi lo v : Nat) : (s.setRf a hi lo v).board = s.board := (rfl)
@[simp] theorem setRf_img (s : State) (a hi lo v : Nat) : (s.setRf a hi lo v).img = s.img := (rfl)
@[simp] theorem setRf_tap (s : State) (a hi lo v : Nat) : (s.setRf a hi lo v).tap = s.tap := (rfl)
@[simp] theorem setRf_cmd (s : State) (a hi lo v : Nat) : (s.setRf a hi lo v).cmd = s.cmd := (rfl)
@[simp] theorem setRf_evt (s : State) (a hi lo v : Nat) : (s.setRf a hi lo v).evt = s.evt := (rfl)
@[simp] theorem setRf_key (s : State) (a hi lo v : Nat) : (s.setRf a hi lo v).key = s.key := (rfl)
@[simp] theorem setRf_mon (s : State) (a hi lo v : Nat) : (s.setRf a hi lo v).mon = s.mon := (rfl)
@[simp] theorem setRf_cfl (s : State) (a hi lo v : Nat) : (s.setRf a hi lo v).cfl = s.cfl := (rfl)
@[simp] theorem setRf_cat (s : State) (a hi lo v : Nat) : (s.setRf a hi lo v).cat = s.cat := (rfl)
@[simp] theorem setRf_dsq (s : State) (a hi lo v : Nat) : (s.setRf a hi lo v).dsq = s.dsq := (rfl)
@[simp] theorem setRf_cls (s : State) (a hi lo v : Nat) : (s.setRf a hi lo v).cls = s.cls := (rfl)
@[simp] theorem setRf_tbl (s : State) (a hi lo v : Nat) : (s.setRf a hi lo v).tbl = s.tbl := (rfl)
@[simp] theorem setRf_trees (s : State) (a hi lo v : Nat) : (s.setRf a hi lo v).trees = s.trees := (rfl)
@[simp] theorem setRf_allocs (s : State) (a hi lo v : Nat) : (s.setRf a hi lo v).allocs = s.allocs := (rfl)
@[simp] theorem setRf_buckets (s : State) (a hi lo v : Nat) : (s.setRf a hi lo v).buckets = s.buckets := (rfl)
@[simp] theorem setRf_bucketWas (s : State) (a hi lo v : Nat) : (s.setRf a hi lo v).bucketWas = s.bucketWas := (rfl)
@[simp] theorem setRf_sets (s : State) (a hi lo v : Nat) : (s.setRf a hi lo v).sets = s.sets := (rfl)
@[simp] theorem setRf_ohm (s : State) (a hi lo v : Nat) : (s.setRf a hi lo v).ohm = s.ohm := (rfl)
@[simp] theorem setRf_msgNext (s : State) (a hi lo v : Nat) : (s.setRf a hi lo v).msgNext = s.msgNext := (rfl)

/-! ### bump changes `regs` alone -/

@[simp] theorem bump_pending (s : State) (a n : Nat) : (s.bump a n).pending = s.pending := (rfl)
@[simp] theorem bump_out (s : State) (a n : Nat) : (s.bump a n).out = s.out := (rfl)
@[simp] theorem bump_free (s : State) (a n : Nat) : (s.bump a n).free = s.free := (rfl)
@[simp] theorem bump_start (s : State) (a n : Nat) : (s.bump a n).start = s.start := (rfl)
@[simp] theorem bump_claims (s : State) (a n : Nat) : (s.bump a n).claims = s.claims := (rfl)
@[simp] theorem bump_now (s : State) (a n : Nat) : (s.bump a n).now = s.now := (rfl)
@[simp] theorem bump_nt (s : State) (a n : Nat) : (s.bump a n).nt = s.nt := (rfl)
@[simp] theorem bump_ntSet (s : State) (a n : Nat) : (s.bump a n).ntSet = s.ntSet := (rfl)
@[simp] theorem bump_ntWas (s : State) (a n : Nat) : (s.bump a n).ntWas = s.ntWas := (rfl)
@[simp] theorem bump_stamps (s : State) (a n : Nat) : (s.bump a n).stamps = s.stamps := (rfl)
@[simp] theorem bump_ppsAt (s : State) (a n : Nat) : (s.bump a n).ppsAt = s.ppsAt := (rfl)
@[simp] theorem bump_ppsOut (s : State) (a n : Nat) : (s.bump a n).ppsOut = s.ppsOut := (rfl)
@[simp] theorem bump_ppsLow (s : State) (a n : Nat) : (s.bump a n).ppsLow = s.ppsLow := (rfl)
@[simp] theorem bump_regdef (s : State) (a n : Nat) : (s.bump a n).regdef = s.regdef := (rfl)
@[simp] theorem bump_mode (s : State) (a n : Nat) : (s.bump a n).mode = s.mode := (rfl)
@[simp] theorem bump_prevMode (s : State) (a n : Nat) : (s.bump a n).prevMode = s.prevMode := (rfl)
@[simp] theorem bump_modeTick (s : State) (a n : Nat) : (s.bump a n).modeTick = s.modeTick := (rfl)
@[simp] theorem bump_drainLimited (s : State) (a n : Nat) : (s.bump a n).drainLimited = s.drainLimited := (rfl)
@[simp] theorem bump_drain (s : State) (a n : Nat) : (s.bump a n).drain = s.drain := (rfl)
@[simp] theorem bump_sp (s : State) (a n : Nat) : (s.bump a n).sp = s.sp := (rfl)
@[simp] theorem bump_flt (s : State) (a n : Nat) : (s.bump a n).flt = s.flt := (rfl)
@[simp] theorem bump_board (s : State) (a n : Nat) : (s.bump a n).board = s.board := (rfl)
@[simp] theorem bump_img (s : State) (a n : Nat) : (s.bump a n).img = s.img := (rfl)
@[simp] theorem bump_tap (s : State) (a n : Nat) : (s.bump a n).tap = s.tap := (rfl)
@[simp] theorem bump_cmd (s : State) (a n : Nat) : (s.bump a n).cmd = s.cmd := (rfl)
@[simp] theorem bump_evt (s : State) (a n : Nat) : (s.bump a n).evt = s.evt := (rfl)
@[simp] theorem bump_key (s : State) (a n : Nat) : (s.bump a n).key = s.key := (rfl)
@[simp] theorem bump_mon (s : State) (a n : Nat) : (s.bump a n).mon = s.mon := (rfl)
@[simp] theorem bump_cfl (s : State) (a n : Nat) : (s.bump a n).cfl = s.cfl := (rfl)
@[simp] theorem bump_cat (s : State) (a n : Nat) : (s.bump a n).cat = s.cat := (rfl)
@[simp] theorem bump_dsq (s : State) (a n : Nat) : (s.bump a n).dsq = s.dsq := (rfl)
@[simp] theorem bump_cls (s : State) (a n : Nat) : (s.bump a n).cls = s.cls := (rfl)
@[simp] theorem bump_tbl (s : State) (a n : Nat) : (s.bump a n).tbl = s.tbl := (rfl)
@[simp] theorem bump_trees (s : State) (a n : Nat) : (s.bump a n).trees = s.trees := (rfl)
@[simp] theorem bump_allocs (s : State) (a n : Nat) : (s.bump a n).allocs = s.allocs := (rfl)
@[simp] theorem bump_buckets (s : State) (a n : Nat) : (s.bump a n).buckets = s.buckets := (rfl)
@[simp] theorem bump_bucketWas (s : State) (a n : Nat) : (s.bump a n).bucketWas = s.bucketWas := (rfl)
@[simp] theorem bump_sets (s : State) (a n : Nat) : (s.bump a n).sets = s.sets := (rfl)
@[simp] theorem bump_ohm (s : State) (a n : Nat) : (s.bump a n).ohm = s.ohm := (rfl)
@[simp] theorem bump_msgNext (s : State) (a n : Nat) : (s.bump a n).msgNext = s.msgNext := (rfl)

/-! ### emit changes `out` alone -/

@[simp] theorem emit_pending (s : State) (o : Out) : (s.emit o).pending = s.pending := (rfl)
@[simp] theorem emit_free (s : State) (o : Out) : (s.emit o).free = s.free := (rfl)
@[simp] theorem emit_start (s : State) (o : Out) : (s.emit o).start = s.start := (rfl)
@[simp] theorem emit_claims (s : State) (o : Out) : (s.emit o).claims = s.claims := (rfl)
@[simp] theorem emit_now (s : State) (o : Out) : (s.emit o).now = s.now := (rfl)
@[simp] theorem emit_nt (s : State) (o : Out) : (s.emit o).nt = s.nt := (rfl)
@[simp] theorem emit_ntSet (s : State) (o : Out) : (s.emit o).ntSet = s.ntSet := (rfl)
@[simp] theorem emit_ntWas (s : State) (o : Out) : (s.emit o).ntWas = s.ntWas := (rfl)
@[simp] theorem emit_stamps (s : State) (o : Out) : (s.emit o).stamps = s.stamps := (rfl)
@[simp] theorem emit_ppsAt (s : State) (o : Out) : (s.emit o).ppsAt = s.ppsAt := (rfl)
@[simp] theorem emit_ppsOut (s : State) (o : Out) : (s.emit o).ppsOut = s.ppsOut := (rfl)
@[simp] theorem emit_ppsLow (s : State) (o : Out) : (s.emit o).ppsLow = s.ppsLow := (rfl)
@[simp] theorem emit_regs (s : State) (o : Out) : (s.emit o).regs = s.regs := (rfl)
@[simp] theorem emit_regdef (s : State) (o : Out) : (s.emit o).regdef = s.regdef := (rfl)
@[simp] theorem emit_mode (s : State) (o : Out) : (s.emit o).mode = s.mode := (rfl)
@[simp] theorem emit_prevMode (s : State) (o : Out) : (s.emit o).prevMode = s.prevMode := (rfl)
@[simp] theorem emit_modeTick (s : State) (o : Out) : (s.emit o).modeTick = s.modeTick := (rfl)
@[simp] theorem emit_drainLimited (s : State) (o : Out) : (s.emit o).drainLimited = s.drainLimited := (rfl)
@[simp] theorem emit_drain (s : State) (o : Out) : (s.emit o).drain = s.drain := (rfl)
@[simp] theorem emit_sp (s : State) (o : Out) : (s.emit o).sp = s.sp := (rfl)
@[simp] theorem emit_flt (s : State) (o : Out) : (s.emit o).flt = s.flt := (rfl)
@[simp] theorem emit_board (s : State) (o : Out) : (s.emit o).board = s.board := (rfl)
@[simp] theorem emit_img (s : State) (o : Out) : (s.emit o).img = s.img := (rfl)
@[simp] theorem emit_tap (s : State) (o : Out) : (s.emit o).tap = s.tap := (rfl)
@[simp] theorem emit_cmd (s : State) (o : Out) : (s.emit o).cmd = s.cmd := (rfl)
@[simp] theorem emit_evt (s : State) (o : Out) : (s.emit o).evt = s.evt := (rfl)
@[simp] theorem emit_key (s : State) (o : Out) : (s.emit o).key = s.key := (rfl)
@[simp] theorem emit_mon (s : State) (o : Out) : (s.emit o).mon = s.mon := (rfl)
@[simp] theorem emit_cfl (s : State) (o : Out) : (s.emit o).cfl = s.cfl := (rfl)
@[simp] theorem emit_cat (s : State) (o : Out) : (s.emit o).cat = s.cat := (rfl)
@[simp] theorem emit_dsq (s : State) (o : Out) : (s.emit o).dsq = s.dsq := (rfl)
@[simp] theorem emit_cls (s : State) (o : Out) : (s.emit o).cls = s.cls := (rfl)
@[simp] theorem emit_tbl (s : State) (o : Out) : (s.emit o).tbl = s.tbl := (rfl)
@[simp] theorem emit_trees (s : State) (o : Out) : (s.emit o).trees = s.trees := (rfl)
@[simp] theorem emit_allocs (s : State) (o : Out) : (s.emit o).allocs = s.allocs := (rfl)
@[simp] theorem emit_buckets (s : State) (o : Out) : (s.emit o).buckets = s.buckets := (rfl)
@[simp] theorem emit_bucketWas (s : State) (o : Out) : (s.emit o).bucketWas = s.bucketWas := (rfl)
@[simp] theorem emit_sets (s : State) (o : Out) : (s.emit o).sets = s.sets := (rfl)
@[simp] theorem emit_ohm (s : State) (o : Out) : (s.emit o).ohm = s.ohm := (rfl)
@[simp] theorem emit_msgNext (s : State) (o : Out) : (s.emit o).msgNext = s.msgNext := (rfl)

/-! ### drew changes `free` alone -/

@[simp] theorem drew_pending (s : State) : (s.drew).pending = s.pending := (rfl)
@[simp] theorem drew_out (s : State) : (s.drew).out = s.out := (rfl)
@[simp] theorem drew_start (s : State) : (s.drew).start = s.start := (rfl)
@[simp] theorem drew_claims (s : State) : (s.drew).claims = s.claims := (rfl)
@[simp] theorem drew_now (s : State) : (s.drew).now = s.now := (rfl)
@[simp] theorem drew_nt (s : State) : (s.drew).nt = s.nt := (rfl)
@[simp] theorem drew_ntSet (s : State) : (s.drew).ntSet = s.ntSet := (rfl)
@[simp] theorem drew_ntWas (s : State) : (s.drew).ntWas = s.ntWas := (rfl)
@[simp] theorem drew_stamps (s : State) : (s.drew).stamps = s.stamps := (rfl)
@[simp] theorem drew_ppsAt (s : State) : (s.drew).ppsAt = s.ppsAt := (rfl)
@[simp] theorem drew_ppsOut (s : State) : (s.drew).ppsOut = s.ppsOut := (rfl)
@[simp] theorem drew_ppsLow (s : State) : (s.drew).ppsLow = s.ppsLow := (rfl)
@[simp] theorem drew_regs (s : State) : (s.drew).regs = s.regs := (rfl)
@[simp] theorem drew_regdef (s : State) : (s.drew).regdef = s.regdef := (rfl)
@[simp] theorem drew_mode (s : State) : (s.drew).mode = s.mode := (rfl)
@[simp] theorem drew_prevMode (s : State) : (s.drew).prevMode = s.prevMode := (rfl)
@[simp] theorem drew_modeTick (s : State) : (s.drew).modeTick = s.modeTick := (rfl)
@[simp] theorem drew_drainLimited (s : State) : (s.drew).drainLimited = s.drainLimited := (rfl)
@[simp] theorem drew_drain (s : State) : (s.drew).drain = s.drain := (rfl)
@[simp] theorem drew_sp (s : State) : (s.drew).sp = s.sp := (rfl)
@[simp] theorem drew_flt (s : State) : (s.drew).flt = s.flt := (rfl)
@[simp] theorem drew_board (s : State) : (s.drew).board = s.board := (rfl)
@[simp] theorem drew_img (s : State) : (s.drew).img = s.img := (rfl)
@[simp] theorem drew_tap (s : State) : (s.drew).tap = s.tap := (rfl)
@[simp] theorem drew_cmd (s : State) : (s.drew).cmd = s.cmd := (rfl)
@[simp] theorem drew_evt (s : State) : (s.drew).evt = s.evt := (rfl)
@[simp] theorem drew_key (s : State) : (s.drew).key = s.key := (rfl)
@[simp] theorem drew_mon (s : State) : (s.drew).mon = s.mon := (rfl)
@[simp] theorem drew_cfl (s : State) : (s.drew).cfl = s.cfl := (rfl)
@[simp] theorem drew_cat (s : State) : (s.drew).cat = s.cat := (rfl)
@[simp] theorem drew_dsq (s : State) : (s.drew).dsq = s.dsq := (rfl)
@[simp] theorem drew_cls (s : State) : (s.drew).cls = s.cls := (rfl)
@[simp] theorem drew_tbl (s : State) : (s.drew).tbl = s.tbl := (rfl)
@[simp] theorem drew_trees (s : State) : (s.drew).trees = s.trees := (rfl)
@[simp] theorem drew_allocs (s : State) : (s.drew).allocs = s.allocs := (rfl)
@[simp] theorem drew_buckets (s : State) : (s.drew).buckets = s.buckets := (rfl)
@[simp] theorem drew_bucketWas (s : State) : (s.drew).bucketWas = s.bucketWas := (rfl)
@[simp] theorem drew_sets (s : State) : (s.drew).sets = s.sets := (rfl)
@[simp] theorem drew_ohm (s : State) : (s.drew).ohm = s.ohm := (rfl)
@[simp] theorem drew_msgNext (s : State) : (s.drew).msgNext = s.msgNext := (rfl)

/-! ### setQueue changes `cmd` alone -/

@[simp] theorem setQueue_pending (s : State) (q : Nat) (u : CmdQueue) : (s.setQueue q u).pending = s.pending := (rfl)
@[simp] theorem setQueue_out (s : State) (q : Nat) (u : CmdQueue) : (s.setQueue q u).out = s.out := (rfl)
@[simp] theorem setQueue_free (s : State) (q : Nat) (u : CmdQueue) : (s.setQueue q u).free = s.free := (rfl)
@[simp] theorem setQueue_start (s : State) (q : Nat) (u : CmdQueue) : (s.setQueue q u).start = s.start := (rfl)
@[simp] theorem setQueue_claims (s : State) (q : Nat) (u : CmdQueue) : (s.setQueue q u).claims = s.claims := (rfl)
@[simp] theorem setQueue_now (s : State) (q : Nat) (u : CmdQueue) : (s.setQueue q u).now = s.now := (rfl)
@[simp] theorem setQueue_nt (s : State) (q : Nat) (u : CmdQueue) : (s.setQueue q u).nt = s.nt := (rfl)
@[simp] theorem setQueue_ntSet (s : State) (q : Nat) (u : CmdQueue) : (s.setQueue q u).ntSet = s.ntSet := (rfl)
@[simp] theorem setQueue_ntWas (s : State) (q : Nat) (u : CmdQueue) : (s.setQueue q u).ntWas = s.ntWas := (rfl)
@[simp] theorem setQueue_stamps (s : State) (q : Nat) (u : CmdQueue) : (s.setQueue q u).stamps = s.stamps := (rfl)
@[simp] theorem setQueue_ppsAt (s : State) (q : Nat) (u : CmdQueue) : (s.setQueue q u).ppsAt = s.ppsAt := (rfl)
@[simp] theorem setQueue_ppsOut (s : State) (q : Nat) (u : CmdQueue) : (s.setQueue q u).ppsOut = s.ppsOut := (rfl)
@[simp] theorem setQueue_ppsLow (s : State) (q : Nat) (u : CmdQueue) : (s.setQueue q u).ppsLow = s.ppsLow := (rfl)
@[simp] theorem setQueue_regs (s : State) (q : Nat) (u : CmdQueue) : (s.setQueue q u).regs = s.regs := (rfl)
@[simp] theorem setQueue_regdef (s : State) (q : Nat) (u : CmdQueue) : (s.setQueue q u).regdef = s.regdef := (rfl)
@[simp] theorem setQueue_mode (s : State) (q : Nat) (u : CmdQueue) : (s.setQueue q u).mode = s.mode := (rfl)
@[simp] theorem setQueue_prevMode (s : State) (q : Nat) (u : CmdQueue) : (s.setQueue q u).prevMode = s.prevMode := (rfl)
@[simp] theorem setQueue_modeTick (s : State) (q : Nat) (u : CmdQueue) : (s.setQueue q u).modeTick = s.modeTick := (rfl)
@[simp] theorem setQueue_drainLimited (s : State) (q : Nat) (u : CmdQueue) : (s.setQueue q u).drainLimited = s.drainLimited := (rfl)
@[simp] theorem setQueue_drain (s : State) (q : Nat) (u : CmdQueue) : (s.setQueue q u).drain = s.drain := (rfl)
@[simp] theorem setQueue_sp (s : State) (q : Nat) (u : CmdQueue) : (s.setQueue q u).sp = s.sp := (rfl)
@[simp] theorem setQueue_flt (s : State) (q : Nat) (u : CmdQueue) : (s.setQueue q u).flt = s.flt := (rfl)
@[simp] theorem setQueue_board (s : State) (q : Nat) (u : CmdQueue) : (s.setQueue q u).board = s.board := (rfl)
@[simp] theorem setQueue_img (s : State) (q : Nat) (u : CmdQueue) : (s.setQueue q u).img = s.img := (rfl)
@[simp] theorem setQueue_tap (s : State) (q : Nat) (u : CmdQueue) : (s.setQueue q u).tap = s.tap := (rfl)
@[simp] theorem setQueue_evt (s : State) (q : Nat) (u : CmdQueue) : (s.setQueue q u).evt = s.evt := (rfl)
@[simp] theorem setQueue_key (s : State) (q : Nat) (u : CmdQueue) : (s.setQueue q u).key = s.key := (rfl)
@[simp] theorem setQueue_mon (s : State) (q : Nat) (u : CmdQueue) : (s.setQueue q u).mon = s.mon := (rfl)
@[simp] theorem setQueue_cfl (s : State) (q : Nat) (u : CmdQueue) : (s.setQueue q u).cfl = s.cfl := (rfl)
@[simp] theorem setQueue_cat (s : State) (q : Nat) (u : CmdQueue) : (s.setQueue q u).cat = s.cat := (rfl)
@[simp] theorem setQueue_dsq (s : State) (q : Nat) (u : CmdQueue) : (s.setQueue q u).dsq = s.dsq := (rfl)
@[simp] theorem setQueue_cls (s : State) (q : Nat) (u : CmdQueue) : (s.setQueue q u).cls = s.cls := (rfl)
@[simp] theorem setQueue_tbl (s : State) (q : Nat) (u : CmdQueue) : (s.setQueue q u).tbl = s.tbl := (rfl)
@[simp] theorem setQueue_trees (s : State) (q : Nat) (u : CmdQueue) : (s.setQueue q u).trees = s.trees := (rfl)
@[simp] theorem setQueue_allocs (s : State) (q : Nat) (u : CmdQueue) : (s.setQueue q u).allocs = s.allocs := (rfl)
@[simp] theorem setQueue_buckets (s : State) (q : Nat) (u : CmdQueue) : (s.setQueue q u).buckets = s.buckets := (rfl)
@[simp] theorem setQueue_bucketWas (s : State) (q : Nat) (u : CmdQueue) : (s.setQueue q u).bucketWas = s.bucketWas := (rfl)
@[simp] theorem setQueue_sets (s : State) (q : Nat) (u : CmdQueue) : (s.setQueue q u).sets = s.sets := (rfl)
@[simp] theorem setQueue_ohm (s : State) (q : Nat) (u : CmdQueue) : (s.setQueue q u).ohm = s.ohm := (rfl)
@[simp] theorem setQueue_msgNext (s : State) (q : Nat) (u : CmdQueue) : (s.setQueue q u).msgNext = s.msgNext := (rfl)

/-! ### setExec changes `cmd` alone -/

@[simp] theorem setExec_pending (s : State) (q : Nat) (e : Exec) : (s.setExec q e).pending = s.pending := (rfl)
@[simp] theorem setExec_out (s : State) (q : Nat) (e : Exec) : (s.setExec q e).out = s.out := (rfl)
@[simp] theorem setExec_free (s : State) (q : Nat) (e : Exec) : (s.setExec q e).free = s.free := (rfl)
@[simp] theorem setExec_start (s : State) (q : Nat) (e : Exec) : (s.setExec q e).start = s.start := (rfl)
@[simp] theorem setExec_claims (s : State) (q : Nat) (e : Exec) : (s.setExec q e).claims = s.claims := (rfl)
@[simp] theorem setExec_now (s : State) (q : Nat) (e : Exec) : (s.setExec q e).now = s.now := (rfl)
@[simp] theorem setExec_nt (s : State) (q : Nat) (e : Exec) : (s.setExec q e).nt = s.nt := (rfl)
@[simp] theorem setExec_ntSet (s : State) (q : Nat) (e : Exec) : (s.setExec q e).ntSet = s.ntSet := (rfl)
@[simp] theorem setExec_ntWas (s : State) (q : Nat) (e : Exec) : (s.setExec q e).ntWas = s.ntWas := (rfl)
@[simp] theorem setExec_stamps (s : State) (q : Nat) (e : Exec) : (s.setExec q e).stamps = s.stamps := (rfl)
@[simp] theorem setExec_ppsAt (s : State) (q : Nat) (e : Exec) : (s.setExec q e).ppsAt = s.ppsAt := (rfl)
@[simp] theorem setExec_ppsOut (s : State) (q : Nat) (e : Exec) : (s.setExec q e).ppsOut = s.ppsOut := (rfl)
@[simp] theorem setExec_ppsLow (s : State) (q : Nat) (e : Exec) : (s.setExec q e).ppsLow = s.ppsLow := (rfl)
@[simp] theorem setExec_regs (s : State) (q : Nat) (e : Exec) : (s.setExec q e).regs = s.regs := (rfl)
@[simp] theorem setExec_regdef (s : State) (q : Nat) (e : Exec) : (s.setExec q e).regdef = s.regdef := (rfl)
@[simp] theorem setExec_mode (s : State) (q : Nat) (e : Exec) : (s.setExec q e).mode = s.mode := (rfl)
@[simp] theorem setExec_prevMode (s : State) (q : Nat) (e : Exec) : (s.setExec q e).prevMode = s.prevMode := (rfl)
@[simp] theorem setExec_modeTick (s : State) (q : Nat) (e : Exec) : (s.setExec q e).modeTick = s.modeTick := (rfl)
@[simp] theorem setExec_drainLimited (s : State) (q : Nat) (e : Exec) : (s.setExec q e).drainLimited = s.drainLimited := (rfl)
@[simp] theorem setExec_drain (s : State) (q : Nat) (e : Exec) : (s.setExec q e).drain = s.drain := (rfl)
@[simp] theorem setExec_sp (s : State) (q : Nat) (e : Exec) : (s.setExec q e).sp = s.sp := (rfl)
@[simp] theorem setExec_flt (s : State) (q : Nat) (e : Exec) : (s.setExec q e).flt = s.flt := (rfl)
@[simp] theorem setExec_board (s : State) (q : Nat) (e : Exec) : (s.setExec q e).board = s.board := (rfl)
@[simp] theorem setExec_img (s : State) (q : Nat) (e : Exec) : (s.setExec q e).img = s.img := (rfl)
@[simp] theorem setExec_tap (s : State) (q : Nat) (e : Exec) : (s.setExec q e).tap = s.tap := (rfl)
@[simp] theorem setExec_evt (s : State) (q : Nat) (e : Exec) : (s.setExec q e).evt = s.evt := (rfl)
@[simp] theorem setExec_key (s : State) (q : Nat) (e : Exec) : (s.setExec q e).key = s.key := (rfl)
@[simp] theorem setExec_mon (s : State) (q : Nat) (e : Exec) : (s.setExec q e).mon = s.mon := (rfl)
@[simp] theorem setExec_cfl (s : State) (q : Nat) (e : Exec) : (s.setExec q e).cfl = s.cfl := (rfl)
@[simp] theorem setExec_cat (s : State) (q : Nat) (e : Exec) : (s.setExec q e).cat = s.cat := (rfl)
@[simp] theorem setExec_dsq (s : State) (q : Nat) (e : Exec) : (s.setExec q e).dsq = s.dsq := (rfl)
@[simp] theorem setExec_cls (s : State) (q : Nat) (e : Exec) : (s.setExec q e).cls = s.cls := (rfl)
@[simp] theorem setExec_tbl (s : State) (q : Nat) (e : Exec) : (s.setExec q e).tbl = s.tbl := (rfl)
@[simp] theorem setExec_trees (s : State) (q : Nat) (e : Exec) : (s.setExec q e).trees = s.trees := (rfl)
@[simp] theorem setExec_allocs (s : State) (q : Nat) (e : Exec) : (s.setExec q e).allocs = s.allocs := (rfl)
@[simp] theorem setExec_buckets (s : State) (q : Nat) (e : Exec) : (s.setExec q e).buckets = s.buckets := (rfl)
@[simp] theorem setExec_bucketWas (s : State) (q : Nat) (e : Exec) : (s.setExec q e).bucketWas = s.bucketWas := (rfl)
@[simp] theorem setExec_sets (s : State) (q : Nat) (e : Exec) : (s.setExec q e).sets = s.sets := (rfl)
@[simp] theorem setExec_ohm (s : State) (q : Nat) (e : Exec) : (s.setExec q e).ohm = s.ohm := (rfl)
@[simp] theorem setExec_msgNext (s : State) (q : Nat) (e : Exec) : (s.setExec q e).msgNext = s.msgNext := (rfl)

/-! ### setQstate changes `regs` alone -/

@[simp] theorem setQstate_pending (s : State) (q v : Nat) : (s.setQstate q v).pending = s.pending := (rfl)
@[simp] theorem setQstate_out (s : State) (q v : Nat) : (s.setQstate q v).out = s.out := (rfl)
@[simp] theorem setQstate_free (s : State) (q v : Nat) : (s.setQstate q v).free = s.free := (rfl)
@[simp] theorem setQstate_start (s : State) (q v : Nat) : (s.setQstate q v).start = s.start := (rfl)
@[simp] theorem setQstate_claims (s : State) (q v : Nat) : (s.setQstate q v).claims = s.claims := (rfl)
@[simp] theorem setQstate_now (s : State) (q v : Nat) : (s.setQstate q v).now = s.now := (rfl)
@[simp] theorem setQstate_nt (s : State) (q v : Nat) : (s.setQstate q v).nt = s.nt := (rfl)
@[simp] theorem setQstate_ntSet (s : State) (q v : Nat) : (s.setQstate q v).ntSet = s.ntSet := (rfl)
@[simp] theorem setQstate_ntWas (s : State) (q v : Nat) : (s.setQstate q v).ntWas = s.ntWas := (rfl)
@[simp] theorem setQstate_stamps (s : State) (q v : Nat) : (s.setQstate q v).stamps = s.stamps := (rfl)
@[simp] theorem setQstate_ppsAt (s : State) (q v : Nat) : (s.setQstate q v).ppsAt = s.ppsAt := (rfl)
@[simp] theorem setQstate_ppsOut (s : State) (q v : Nat) : (s.setQstate q v).ppsOut = s.ppsOut := (rfl)
@[simp] theorem setQstate_ppsLow (s : State) (q v : Nat) : (s.setQstate q v).ppsLow = s.ppsLow := (rfl)
@[simp] theorem setQstate_regdef (s : State) (q v : Nat) : (s.setQstate q v).regdef = s.regdef := (rfl)
@[simp] theorem setQstate_mode (s : State) (q v : Nat) : (s.setQstate q v).mode = s.mode := (rfl)
@[simp] theorem setQstate_prevMode (s : State) (q v : Nat) : (s.setQstate q v).prevMode = s.prevMode := (rfl)
@[simp] theorem setQstate_modeTick (s : State) (q v : Nat) : (s.setQstate q v).modeTick = s.modeTick := (rfl)
@[simp] theorem setQstate_drainLimited (s : State) (q v : Nat) : (s.setQstate q v).drainLimited = s.drainLimited := (rfl)
@[simp] theorem setQstate_drain (s : State) (q v : Nat) : (s.setQstate q v).drain = s.drain := (rfl)
@[simp] theorem setQstate_sp (s : State) (q v : Nat) : (s.setQstate q v).sp = s.sp := (rfl)
@[simp] theorem setQstate_flt (s : State) (q v : Nat) : (s.setQstate q v).flt = s.flt := (rfl)
@[simp] theorem setQstate_board (s : State) (q v : Nat) : (s.setQstate q v).board = s.board := (rfl)
@[simp] theorem setQstate_img (s : State) (q v : Nat) : (s.setQstate q v).img = s.img := (rfl)
@[simp] theorem setQstate_tap (s : State) (q v : Nat) : (s.setQstate q v).tap = s.tap := (rfl)
@[simp] theorem setQstate_cmd (s : State) (q v : Nat) : (s.setQstate q v).cmd = s.cmd := (rfl)
@[simp] theorem setQstate_evt (s : State) (q v : Nat) : (s.setQstate q v).evt = s.evt := (rfl)
@[simp] theorem setQstate_key (s : State) (q v : Nat) : (s.setQstate q v).key = s.key := (rfl)
@[simp] theorem setQstate_mon (s : State) (q v : Nat) : (s.setQstate q v).mon = s.mon := (rfl)
@[simp] theorem setQstate_cfl (s : State) (q v : Nat) : (s.setQstate q v).cfl = s.cfl := (rfl)
@[simp] theorem setQstate_cat (s : State) (q v : Nat) : (s.setQstate q v).cat = s.cat := (rfl)
@[simp] theorem setQstate_dsq (s : State) (q v : Nat) : (s.setQstate q v).dsq = s.dsq := (rfl)
@[simp] theorem setQstate_cls (s : State) (q v : Nat) : (s.setQstate q v).cls = s.cls := (rfl)
@[simp] theorem setQstate_tbl (s : State) (q v : Nat) : (s.setQstate q v).tbl = s.tbl := (rfl)
@[simp] theorem setQstate_trees (s : State) (q v : Nat) : (s.setQstate q v).trees = s.trees := (rfl)
@[simp] theorem setQstate_allocs (s : State) (q v : Nat) : (s.setQstate q v).allocs = s.allocs := (rfl)
@[simp] theorem setQstate_buckets (s : State) (q v : Nat) : (s.setQstate q v).buckets = s.buckets := (rfl)
@[simp] theorem setQstate_bucketWas (s : State) (q v : Nat) : (s.setQstate q v).bucketWas = s.bucketWas := (rfl)
@[simp] theorem setQstate_sets (s : State) (q v : Nat) : (s.setQstate q v).sets = s.sets := (rfl)
@[simp] theorem setQstate_ohm (s : State) (q v : Nat) : (s.setQstate q v).ohm = s.ohm := (rfl)
@[simp] theorem setQstate_msgNext (s : State) (q v : Nat) : (s.setQstate q v).msgNext = s.msgNext := (rfl)

/-! ### setSlot changes `key` alone -/

@[simp] theorem setSlot_pending (s : State) (n : Nat) (k : KeySlot) : (s.setSlot n k).pending = s.pending := (rfl)
@[simp] theorem setSlot_out (s : State) (n : Nat) (k : KeySlot) : (s.setSlot n k).out = s.out := (rfl)
@[simp] theorem setSlot_free (s : State) (n : Nat) (k : KeySlot) : (s.setSlot n k).free = s.free := (rfl)
@[simp] theorem setSlot_start (s : State) (n : Nat) (k : KeySlot) : (s.setSlot n k).start = s.start := (rfl)
@[simp] theorem setSlot_claims (s : State) (n : Nat) (k : KeySlot) : (s.setSlot n k).claims = s.claims := (rfl)
@[simp] theorem setSlot_now (s : State) (n : Nat) (k : KeySlot) : (s.setSlot n k).now = s.now := (rfl)
@[simp] theorem setSlot_nt (s : State) (n : Nat) (k : KeySlot) : (s.setSlot n k).nt = s.nt := (rfl)
@[simp] theorem setSlot_ntSet (s : State) (n : Nat) (k : KeySlot) : (s.setSlot n k).ntSet = s.ntSet := (rfl)
@[simp] theorem setSlot_ntWas (s : State) (n : Nat) (k : KeySlot) : (s.setSlot n k).ntWas = s.ntWas := (rfl)
@[simp] theorem setSlot_stamps (s : State) (n : Nat) (k : KeySlot) : (s.setSlot n k).stamps = s.stamps := (rfl)
@[simp] theorem setSlot_ppsAt (s : State) (n : Nat) (k : KeySlot) : (s.setSlot n k).ppsAt = s.ppsAt := (rfl)
@[simp] theorem setSlot_ppsOut (s : State) (n : Nat) (k : KeySlot) : (s.setSlot n k).ppsOut = s.ppsOut := (rfl)
@[simp] theorem setSlot_ppsLow (s : State) (n : Nat) (k : KeySlot) : (s.setSlot n k).ppsLow = s.ppsLow := (rfl)
@[simp] theorem setSlot_regs (s : State) (n : Nat) (k : KeySlot) : (s.setSlot n k).regs = s.regs := (rfl)
@[simp] theorem setSlot_regdef (s : State) (n : Nat) (k : KeySlot) : (s.setSlot n k).regdef = s.regdef := (rfl)
@[simp] theorem setSlot_mode (s : State) (n : Nat) (k : KeySlot) : (s.setSlot n k).mode = s.mode := (rfl)
@[simp] theorem setSlot_prevMode (s : State) (n : Nat) (k : KeySlot) : (s.setSlot n k).prevMode = s.prevMode := (rfl)
@[simp] theorem setSlot_modeTick (s : State) (n : Nat) (k : KeySlot) : (s.setSlot n k).modeTick = s.modeTick := (rfl)
@[simp] theorem setSlot_drainLimited (s : State) (n : Nat) (k : KeySlot) : (s.setSlot n k).drainLimited = s.drainLimited := (rfl)
@[simp] theorem setSlot_drain (s : State) (n : Nat) (k : KeySlot) : (s.setSlot n k).drain = s.drain := (rfl)
@[simp] theorem setSlot_sp (s : State) (n : Nat) (k : KeySlot) : (s.setSlot n k).sp = s.sp := (rfl)
@[simp] theorem setSlot_flt (s : State) (n : Nat) (k : KeySlot) : (s.setSlot n k).flt = s.flt := (rfl)
@[simp] theorem setSlot_board (s : State) (n : Nat) (k : KeySlot) : (s.setSlot n k).board = s.board := (rfl)
@[simp] theorem setSlot_img (s : State) (n : Nat) (k : KeySlot) : (s.setSlot n k).img = s.img := (rfl)
@[simp] theorem setSlot_tap (s : State) (n : Nat) (k : KeySlot) : (s.setSlot n k).tap = s.tap := (rfl)
@[simp] theorem setSlot_cmd (s : State) (n : Nat) (k : KeySlot) : (s.setSlot n k).cmd = s.cmd := (rfl)
@[simp] theorem setSlot_evt (s : State) (n : Nat) (k : KeySlot) : (s.setSlot n k).evt = s.evt := (rfl)
@[simp] theorem setSlot_mon (s : State) (n : Nat) (k : KeySlot) : (s.setSlot n k).mon = s.mon := (rfl)
@[simp] theorem setSlot_cfl (s : State) (n : Nat) (k : KeySlot) : (s.setSlot n k).cfl = s.cfl := (rfl)
@[simp] theorem setSlot_cat (s : State) (n : Nat) (k : KeySlot) : (s.setSlot n k).cat = s.cat := (rfl)
@[simp] theorem setSlot_dsq (s : State) (n : Nat) (k : KeySlot) : (s.setSlot n k).dsq = s.dsq := (rfl)
@[simp] theorem setSlot_cls (s : State) (n : Nat) (k : KeySlot) : (s.setSlot n k).cls = s.cls := (rfl)
@[simp] theorem setSlot_tbl (s : State) (n : Nat) (k : KeySlot) : (s.setSlot n k).tbl = s.tbl := (rfl)
@[simp] theorem setSlot_trees (s : State) (n : Nat) (k : KeySlot) : (s.setSlot n k).trees = s.trees := (rfl)
@[simp] theorem setSlot_allocs (s : State) (n : Nat) (k : KeySlot) : (s.setSlot n k).allocs = s.allocs := (rfl)
@[simp] theorem setSlot_buckets (s : State) (n : Nat) (k : KeySlot) : (s.setSlot n k).buckets = s.buckets := (rfl)
@[simp] theorem setSlot_bucketWas (s : State) (n : Nat) (k : KeySlot) : (s.setSlot n k).bucketWas = s.bucketWas := (rfl)
@[simp] theorem setSlot_sets (s : State) (n : Nat) (k : KeySlot) : (s.setSlot n k).sets = s.sets := (rfl)
@[simp] theorem setSlot_ohm (s : State) (n : Nat) (k : KeySlot) : (s.setSlot n k).ohm = s.ohm := (rfl)
@[simp] theorem setSlot_msgNext (s : State) (n : Nat) (k : KeySlot) : (s.setSlot n k).msgNext = s.msgNext := (rfl)

/-! ### setTree changes `trees` alone -/

@[simp] theorem setTree_pending (s : State) (t : Nat) (u : Tree) : (s.setTree t u).pending = s.pending := (rfl)
@[simp] theorem setTree_out (s : State) (t : Nat) (u : Tree) : (s.setTree t u).out = s.out := (rfl)
@[simp] theorem setTree_free (s : State) (t : Nat) (u : Tree) : (s.setTree t u).free = s.free := (rfl)
@[simp] theorem setTree_start (s : State) (t : Nat) (u : Tree) : (s.setTree t u).start = s.start := (rfl)
@[simp] theorem setTree_claims (s : State) (t : Nat) (u : Tree) : (s.setTree t u).claims = s.claims := (rfl)
@[simp] theorem setTree_now (s : State) (t : Nat) (u : Tree) : (s.setTree t u).now = s.now := (rfl)
@[simp] theorem setTree_nt (s : State) (t : Nat) (u : Tree) : (s.setTree t u).nt = s.nt := (rfl)
@[simp] theorem setTree_ntSet (s : State) (t : Nat) (u : Tree) : (s.setTree t u).ntSet = s.ntSet := (rfl)
@[simp] theorem setTree_ntWas (s : State) (t : Nat) (u : Tree) : (s.setTree t u).ntWas = s.ntWas := (rfl)
@[simp] theorem setTree_stamps (s : State) (t : Nat) (u : Tree) : (s.setTree t u).stamps = s.stamps := (rfl)
@[simp] theorem setTree_ppsAt (s : State) (t : Nat) (u : Tree) : (s.setTree t u).ppsAt = s.ppsAt := (rfl)
@[simp] theorem setTree_ppsOut (s : State) (t : Nat) (u : Tree) : (s.setTree t u).ppsOut = s.ppsOut := (rfl)
@[simp] theorem setTree_ppsLow (s : State) (t : Nat) (u : Tree) : (s.setTree t u).ppsLow = s.ppsLow := (rfl)
@[simp] theorem setTree_regs (s : State) (t : Nat) (u : Tree) : (s.setTree t u).regs = s.regs := (rfl)
@[simp] theorem setTree_regdef (s : State) (t : Nat) (u : Tree) : (s.setTree t u).regdef = s.regdef := (rfl)
@[simp] theorem setTree_mode (s : State) (t : Nat) (u : Tree) : (s.setTree t u).mode = s.mode := (rfl)
@[simp] theorem setTree_prevMode (s : State) (t : Nat) (u : Tree) : (s.setTree t u).prevMode = s.prevMode := (rfl)
@[simp] theorem setTree_modeTick (s : State) (t : Nat) (u : Tree) : (s.setTree t u).modeTick = s.modeTick := (rfl)
@[simp] theorem setTree_drainLimited (s : State) (t : Nat) (u : Tree) : (s.setTree t u).drainLimited = s.drainLimited := (rfl)
@[simp] theorem setTree_drain (s : State) (t : Nat) (u : Tree) : (s.setTree t u).drain = s.drain := (rfl)
@[simp] theorem setTree_sp (s : State) (t : Nat) (u : Tree) : (s.setTree t u).sp = s.sp := (rfl)
@[simp] theorem setTree_flt (s : State) (t : Nat) (u : Tree) : (s.setTree t u).flt = s.flt := (rfl)
@[simp] theorem setTree_board (s : State) (t : Nat) (u : Tree) : (s.setTree t u).board = s.board := (rfl)
@[simp] theorem setTree_img (s : State) (t : Nat) (u : Tree) : (s.setTree t u).img = s.img := (rfl)
@[simp] theorem setTree_tap (s : State) (t : Nat) (u : Tree) : (s.setTree t u).tap = s.tap := (rfl)
@[simp] theorem setTree_cmd (s : State) (t : Nat) (u : Tree) : (s.setTree t u).cmd = s.cmd := (rfl)
@[simp] theorem setTree_evt (s : State) (t : Nat) (u : Tree) : (s.setTree t u).evt = s.evt := (rfl)
@[simp] theorem setTree_key (s : State) (t : Nat) (u : Tree) : (s.setTree t u).key = s.key := (rfl)
@[simp] theorem setTree_mon (s : State) (t : Nat) (u : Tree) : (s.setTree t u).mon = s.mon := (rfl)
@[simp] theorem setTree_cfl (s : State) (t : Nat) (u : Tree) : (s.setTree t u).cfl = s.cfl := (rfl)
@[simp] theorem setTree_cat (s : State) (t : Nat) (u : Tree) : (s.setTree t u).cat = s.cat := (rfl)
@[simp] theorem setTree_dsq (s : State) (t : Nat) (u : Tree) : (s.setTree t u).dsq = s.dsq := (rfl)
@[simp] theorem setTree_cls (s : State) (t : Nat) (u : Tree) : (s.setTree t u).cls = s.cls := (rfl)
@[simp] theorem setTree_tbl (s : State) (t : Nat) (u : Tree) : (s.setTree t u).tbl = s.tbl := (rfl)
@[simp] theorem setTree_allocs (s : State) (t : Nat) (u : Tree) : (s.setTree t u).allocs = s.allocs := (rfl)
@[simp] theorem setTree_buckets (s : State) (t : Nat) (u : Tree) : (s.setTree t u).buckets = s.buckets := (rfl)
@[simp] theorem setTree_bucketWas (s : State) (t : Nat) (u : Tree) : (s.setTree t u).bucketWas = s.bucketWas := (rfl)
@[simp] theorem setTree_sets (s : State) (t : Nat) (u : Tree) : (s.setTree t u).sets = s.sets := (rfl)
@[simp] theorem setTree_ohm (s : State) (t : Nat) (u : Tree) : (s.setTree t u).ohm = s.ohm := (rfl)
@[simp] theorem setTree_msgNext (s : State) (t : Nat) (u : Tree) : (s.setTree t u).msgNext = s.msgNext := (rfl)

/-! ### Reads past an update of another field -/

@[simp] theorem queue_setReg (s : State) (a : Nat) (w : Word) (r : Nat) : (s.setReg a w).queue r = s.queue r := (rfl)
@[simp] theorem slot_setReg (s : State) (a : Nat) (w : Word) (m : Nat) : (s.setReg a w).slot m = s.slot m := (rfl)
@[simp] theorem tree_setReg (s : State) (a : Nat) (w : Word) (r : Nat) : (s.setReg a w).tree r = s.tree r := (rfl)
@[simp] theorem queue_setRegs (s : State) (a : Nat) (ws : List Word) (r : Nat) : (s.setRegs a ws).queue r = s.queue r := (rfl)
@[simp] theorem slot_setRegs (s : State) (a : Nat) (ws : List Word) (m : Nat) : (s.setRegs a ws).slot m = s.slot m := (rfl)
@[simp] theorem tree_setRegs (s : State) (a : Nat) (ws : List Word) (r : Nat) : (s.setRegs a ws).tree r = s.tree r := (rfl)
@[simp] theorem queue_setRf (s : State) (a hi lo v : Nat) (r : Nat) : (s.setRf a hi lo v).queue r = s.queue r := (rfl)
@[simp] theorem slot_setRf (s : State) (a hi lo v : Nat) (m : Nat) : (s.setRf a hi lo v).slot m = s.slot m := (rfl)
@[simp] theorem tree_setRf (s : State) (a hi lo v : Nat) (r : Nat) : (s.setRf a hi lo v).tree r = s.tree r := (rfl)
@[simp] theorem queue_bump (s : State) (a n : Nat) (r : Nat) : (s.bump a n).queue r = s.queue r := (rfl)
@[simp] theorem slot_bump (s : State) (a n : Nat) (m : Nat) : (s.bump a n).slot m = s.slot m := (rfl)
@[simp] theorem tree_bump (s : State) (a n : Nat) (r : Nat) : (s.bump a n).tree r = s.tree r := (rfl)
@[simp] theorem raw_emit (s : State) (o : Out) (b : Nat) : (s.emit o).raw b = s.raw b := (rfl)
@[simp] theorem queue_emit (s : State) (o : Out) (r : Nat) : (s.emit o).queue r = s.queue r := (rfl)
@[simp] theorem slot_emit (s : State) (o : Out) (m : Nat) : (s.emit o).slot m = s.slot m := (rfl)
@[simp] theorem tree_emit (s : State) (o : Out) (r : Nat) : (s.emit o).tree r = s.tree r := (rfl)
@[simp] theorem raw_drew (s : State) (b : Nat) : (s.drew).raw b = s.raw b := (rfl)
@[simp] theorem queue_drew (s : State) (r : Nat) : (s.drew).queue r = s.queue r := (rfl)
@[simp] theorem slot_drew (s : State) (m : Nat) : (s.drew).slot m = s.slot m := (rfl)
@[simp] theorem tree_drew (s : State) (r : Nat) : (s.drew).tree r = s.tree r := (rfl)
@[simp] theorem raw_setQueue (s : State) (q : Nat) (u : CmdQueue) (b : Nat) : (s.setQueue q u).raw b = s.raw b := (rfl)
@[simp] theorem slot_setQueue (s : State) (q : Nat) (u : CmdQueue) (m : Nat) : (s.setQueue q u).slot m = s.slot m := (rfl)
@[simp] theorem tree_setQueue (s : State) (q : Nat) (u : CmdQueue) (r : Nat) : (s.setQueue q u).tree r = s.tree r := (rfl)
@[simp] theorem raw_setExec (s : State) (q : Nat) (e : Exec) (b : Nat) : (s.setExec q e).raw b = s.raw b := (rfl)
@[simp] theorem slot_setExec (s : State) (q : Nat) (e : Exec) (m : Nat) : (s.setExec q e).slot m = s.slot m := (rfl)
@[simp] theorem tree_setExec (s : State) (q : Nat) (e : Exec) (r : Nat) : (s.setExec q e).tree r = s.tree r := (rfl)
@[simp] theorem queue_setQstate (s : State) (q v : Nat) (r : Nat) : (s.setQstate q v).queue r = s.queue r := (rfl)
@[simp] theorem slot_setQstate (s : State) (q v : Nat) (m : Nat) : (s.setQstate q v).slot m = s.slot m := (rfl)
@[simp] theorem tree_setQstate (s : State) (q v : Nat) (r : Nat) : (s.setQstate q v).tree r = s.tree r := (rfl)
@[simp] theorem raw_setSlot (s : State) (n : Nat) (k : KeySlot) (b : Nat) : (s.setSlot n k).raw b = s.raw b := (rfl)
@[simp] theorem queue_setSlot (s : State) (n : Nat) (k : KeySlot) (r : Nat) : (s.setSlot n k).queue r = s.queue r := (rfl)
@[simp] theorem tree_setSlot (s : State) (n : Nat) (k : KeySlot) (r : Nat) : (s.setSlot n k).tree r = s.tree r := (rfl)
@[simp] theorem raw_setTree (s : State) (t : Nat) (u : Tree) (b : Nat) : (s.setTree t u).raw b = s.raw b := (rfl)
@[simp] theorem queue_setTree (s : State) (t : Nat) (u : Tree) (r : Nat) : (s.setTree t u).queue r = s.queue r := (rfl)
@[simp] theorem slot_setTree (s : State) (t : Nat) (u : Tree) (m : Nat) : (s.setTree t u).slot m = s.slot m := (rfl)

/-! ### What they leave -/

@[simp] theorem raw_setReg_same (s : State) (a : Nat) (w : Word) : (s.setReg a w).raw a = w :=
  smGet_smSet_same _ _ _ _

theorem raw_setReg_ne (s : State) {a b : Nat} (w : Word) (h : b ≠ a) : (s.setReg a w).raw b = s.raw b :=
  smGet_smSet_ne _ _ _ h

theorem raw_setReg (s : State) (a b : Nat) (w : Word) : (s.setReg a w).raw b = if b = a then w else s.raw b :=
  smGet_smSet _ _ _ _ _

theorem raw_setRf_ne (s : State) {a b : Nat} (hi lo v : Nat) (h : b ≠ a) : (s.setRf a hi lo v).raw b = s.raw b :=
  raw_setReg_ne s _ h

theorem raw_bump (s : State) (a b n : Nat) : (s.bump a n).raw b = if b = a then s.raw a + toWord n else s.raw b :=
  raw_setReg s a b _

theorem raw_setRegs (s : State) (a b : Nat) (ws : List Word) :
    (s.setRegs a ws).raw b = if a ≤ b ∧ b < a + ws.length then ws.getD (b - a) (regFactory b) else s.raw b :=
  smGet_smSetList _ _ _ _ _

@[simp] theorem emit_out (s : State) (o : Out) : (s.emit o).out = o :: s.out := rfl

@[simp] theorem queue_setQueue_same (s : State) (q : Nat) (u : CmdQueue) : (s.setQueue q u).queue q = u :=
  smGet_smSet_same _ _ _ _

theorem queue_setQueue_ne (s : State) {q r : Nat} (u : CmdQueue) (h : r ≠ q) : (s.setQueue q u).queue r = s.queue r :=
  smGet_smSet_ne _ _ _ h

@[simp] theorem slot_setSlot_same (s : State) (n : Nat) (k : KeySlot) : (s.setSlot n k).slot n = k :=
  smGet_smSet_same _ _ _ _

theorem slot_setSlot_ne (s : State) {n m : Nat} (k : KeySlot) (h : m ≠ n) : (s.setSlot n k).slot m = s.slot m :=
  smGet_smSet_ne _ _ _ h

@[simp] theorem tree_setTree_same (s : State) (t : Nat) (u : Tree) : (s.setTree t u).tree t = u :=
  smGet_smSet_same _ _ _ _

theorem tree_setTree_ne (s : State) {t r : Nat} (u : Tree) (h : r ≠ t) : (s.setTree t u).tree r = s.tree r :=
  smGet_smSet_ne _ _ _ h

/-- Every write of a register word keeps the canonical form of the register file. -/
theorem setReg_wf (s : State) (a : Nat) (w : Word) (h : smWf regFactory s.regs = true) :
    smWf regFactory (s.setReg a w).regs = true := smWf_smSet _ _ _ _ h

theorem setRegs_wf (s : State) (a : Nat) (ws : List Word) (h : smWf regFactory s.regs = true) :
    smWf regFactory (s.setRegs a ws).regs = true := smWf_smSetList _ _ _ _ h

end Sys2Proof.Machine
end

