-- ==== Sys2Proof/Laws/Admission.lean ====
section
/-! SUPPORT. The operations shared by every command: monitor events, event records, alarms, completion records, violations and
admission. Each lemma says once which fields its operation can change. -/

namespace Sys2Proof.Machine

/-! ### Folds -/

/-- What every step of a fold keeps, the fold keeps. -/
theorem foldl_keeps {α β : Type} {P : α → Prop} {f : α → β → α} (hs : ∀ a b, P a → P (f a b)) (l : List β) (a : α)
    (h : P a) : P (l.foldl f a) := by
  induction l generalizing a with
  | nil => exact h
  | cons b l ih => exact ih _ (hs a b h)

/-- The same for steps over members of the list alone. -/
theorem foldl_keeps_mem {α β : Type} {P : α → Prop} {f : α → β → α} (l : List β)
    (hs : ∀ a b, b ∈ l → P a → P (f a b)) (a : α) (h : P a) : P (l.foldl f a) := by
  induction l generalizing a with
  | nil => exact h
  | cons b l ih => exact ih (fun a c hc => hs a c (List.mem_cons_of_mem _ hc)) _ (hs a b List.mem_cons_self h)

/-! ### Monitor events -/

/-- `t` is `s` but for the monitor: its words 0x41000 to 0x412BF, and its unit. -/
def MonOnly (s t : State) : Prop :=
  (∃ r m, t = { s with regs := r, mon := m }) ∧ ∀ a, a < 0x41000 ∨ 0x412C0 ≤ a → t.raw a = s.raw a

theorem MonOnly.refl (s : State) : MonOnly s s := ⟨⟨s.regs, s.mon, rfl⟩, fun _ _ => rfl⟩

theorem MonOnly.trans {s t u : State} (h : MonOnly s t) (g : MonOnly t u) : MonOnly s u := by
  obtain ⟨⟨r, m, h1⟩, h2⟩ := h
  obtain ⟨⟨r', m', g1⟩, g2⟩ := g
  exact ⟨⟨r', m', by rw [g1, h1]⟩, fun a ha => (g2 a ha).trans (h2 a ha)⟩

theorem MonOnly.ite {c : Prop} [Decidable c] {s t u : State} (h : MonOnly s t) (g : MonOnly s u) :
    MonOnly s (if c then t else u) := by
  split
  · exact h
  · exact g

theorem monOnly_setReg (s : State) {a : Nat} (w : Word) (h : 0x41000 ≤ a ∧ a < 0x412C0) : MonOnly s (s.setReg a w) :=
  ⟨⟨_, s.mon, rfl⟩, fun b hb => raw_setReg_ne s w (by omega)⟩

theorem monOne_only (s : State) (u inst ev n k : Nat) (hu : u ≤ 21) (hk : k < 8) :
    MonOnly s (s.monOne u inst ev n k) := by
  have h1 : 0x41000 ≤ 0x41000 + 0x20 * u + 18 ∧ 0x41000 + 0x20 * u + 18 < 0x412C0 := by omega
  have h2 : 0x41000 ≤ 0x41000 + 0x20 * u + 10 + k ∧ 0x41000 + 0x20 * u + 10 + k < 0x412C0 := by omega
  unfold State.monOne
  simp only
  split
  · refine MonOnly.trans ?_ ⟨⟨_, _, rfl⟩, fun _ _ => rfl⟩
    refine MonOnly.trans ?_ (monOnly_setReg _ _ h2)
    exact MonOnly.ite (monOnly_setReg _ _ h1) (MonOnly.refl s)
  · exact MonOnly.refl s

theorem monEv_only (s : State) (u inst ev n : Nat) (hu : u ≤ 21) : MonOnly s (s.monEv u inst ev n) := by
  unfold State.monEv
  split
  · exact foldl_keeps_mem (P := MonOnly s) _
      (fun t k hk h => h.trans (monOne_only t u inst ev n k hu (List.mem_range.mp hk))) s (MonOnly.refl s)
  · exact MonOnly.refl s

/-- A message changes the monitor and what the device has put outside itself. -/
theorem msix_only (s : State) (f v : Nat) : ∃ o r m, s.msix f v = { s with out := o, regs := r, mon := m } ∧
    ∀ a, a < 0x41000 ∨ 0x412C0 ≤ a → (s.msix f v).raw a = s.raw a := by
  unfold State.msix
  split
  · exact ⟨s.out, s.regs, s.mon, rfl, fun _ _ => rfl⟩
  · obtain ⟨⟨r, m, h1⟩, h2⟩ := monEv_only (s.emit (.msix f v)) 21 0 4 1 (by omega)
    exact ⟨(.msix f v) :: s.out, r, m, by rw [h1]; rfl, fun a ha => (h2 a ha).trans rfl⟩

/-! ### Event records and alarms -/

/-- `t` is `s` but for the event unit, and for the words of the event unit and of the monitor. -/
def EvtOnly (s t : State) : Prop :=
  (∃ r m e, t = { s with regs := r, mon := m, evt := e }) ∧
    ∀ a, a < 0x2000F ∨ (0x20014 ≤ a ∧ a < 0x20100) ∨ (0x20200 ≤ a ∧ a < 0x41000) ∨ 0x412C0 ≤ a → t.raw a = s.raw a

theorem EvtOnly.refl (s : State) : EvtOnly s s := ⟨⟨s.regs, s.mon, s.evt, rfl⟩, fun _ _ => rfl⟩

theorem EvtOnly.trans {s t u : State} (h : EvtOnly s t) (g : EvtOnly t u) : EvtOnly s u := by
  obtain ⟨⟨r, m, e, h1⟩, h2⟩ := h
  obtain ⟨⟨r', m', e', g1⟩, g2⟩ := g
  exact ⟨⟨r', m', e', by rw [g1, h1]⟩, fun a ha => (g2 a ha).trans (h2 a ha)⟩

theorem MonOnly.evt {s t : State} (h : MonOnly s t) : EvtOnly s t := by
  obtain ⟨⟨r, m, h1⟩, h2⟩ := h
  exact ⟨⟨r, m, s.evt, by rw [h1]⟩, fun a ha => h2 a (by omega)⟩

theorem stage_only (s : State) (r : EvRec) (h : r.cls ≤ 3) : EvtOnly s (s.stage r) := by
  unfold State.stage
  simp only
  split
  · refine EvtOnly.trans ?_ (monEv_only _ 2 0 2 1 (by omega)).evt
    exact ⟨⟨_, _, _, rfl⟩, fun a ha => raw_setReg_ne _ _ (by omega)⟩
  · split
    · refine EvtOnly.trans ?_ (monEv_only _ 2 0 3 1 (by omega)).evt
      exact ⟨⟨_, _, _, rfl⟩, fun a ha => raw_setReg_ne _ _ (by omega)⟩
    · exact ⟨⟨s.regs, s.mon, _, rfl⟩, fun _ _ => rfl⟩

theorem event_only (s : State) (cls code : Nat) (arg : Word) (h : cls ≤ 3) : EvtOnly s (s.event cls code arg) := by
  unfold State.event
  split
  · exact stage_only s _ h
  · exact EvtOnly.refl s

theorem notice_only (s : State) (code src detail : Nat) : EvtOnly s (s.notice code src detail) :=
  event_only s 2 code _ (by omega)

theorem fault_only (s : State) (code src detail : Nat) : EvtOnly s (s.fault code src detail) :=
  event_only s 1 code _ (by omega)

theorem traceEv_only (s : State) (code src detail : Nat) : EvtOnly s (s.traceEv code src detail) :=
  event_only s 3 code _ (by omega)

theorem alarm_only (s : State) (i code src detail : Nat) (h : alarmWord i (if code = 0x1C0 then 0 else src) < 0x20200) :
    EvtOnly s (s.alarm i code src detail) := by
  have : 0x20100 ≤ alarmWord i (if code = 0x1C0 then 0 else src) := by unfold alarmWord; omega
  exact ⟨⟨_, _, _, rfl⟩, fun a ha => raw_setReg_ne _ _ (by omega)⟩

theorem alarmClear_only (s : State) (i code inst : Nat) (h : alarmWord i inst < 0x20200) :
    EvtOnly s (s.alarmClear i code inst) := by
  have : 0x20100 ≤ alarmWord i inst := by unfold alarmWord; omega
  unfold State.alarmClear
  simp only
  split
  · exact ⟨⟨_, _, _, rfl⟩, fun a ha => raw_setReg_ne _ _ (by omega)⟩
  · exact EvtOnly.refl s

/-! ### Admission -/

/-- An accepted command is executed in its admission tick, on the state in which the dispatcher takes it. -/
theorem command_accepts {s : State} {c : Cmd} {r : CmdRule} (h : s.accepts c r) :
    s.command c r = s.closes c r ((s.taken c r).settle c.port (c.header r.opcode) ((s.taken c r).seqOf c.port)
      (r.run (s.taken c r) ((s.taken c r).atStart.privOf c.port) ((s.taken c r).seqOf c.port))) := by
  obtain ⟨he, hn, hf, hs, hp, hm, ha⟩ := h
  have hs' : (c.port == .sp && !r.spMay) = false := by
    by_cases hc : c.port = .sp
    · simp [hc, hs hc]
    · simp [hc]
  simp only [State.taken] at hp hm ha ⊢
  simp only [State.command, he, if_true, State.admitTick, State.closes, State.takeCommand, State.judge, hn, hf, hs', hp, hm, ha,
    Bool.not_true, Bool.false_eq_true, if_false]

/-- An accepted command that is executed in full ends in its admission tick. The state in which it is taken has a name of its own,
so that unfolding the rule leaves it alone. -/
theorem command_ends {s a : State} {c : Cmd} {r : CmdRule} {st pr re : Nat} {x : State} (h : s.accepts c r)
    (ht : s.taken c r = a) (hr : r.run a (a.atStart.privOf c.port) (a.seqOf c.port) = .fin st pr re x) :
    s.command c r = s.ends c r st pr re x := by
  subst ht
  rw [command_accepts h, hr]; rfl

/-- An accepted command that waits for something goes on. -/
theorem command_goesOn {s a : State} {c : Cmd} {r : CmdRule} {pr : Nat} {w : Wait} {x : State} (h : s.accepts c r)
    (ht : s.taken c r = a) (hr : r.run a (a.atStart.privOf c.port) (a.seqOf c.port) = .wait pr w x) :
    s.command c r = s.goesOn c r pr w x := by
  subst ht
  rw [command_accepts h, hr]; rfl

/-- An accepted command whose execution meets a violation of R85. -/
theorem command_violates {s a : State} {c : Cmd} {r : CmdRule} {reason : Nat} {operand object : Word} {x : State}
    (h : s.accepts c r) (ht : s.taken c r = a)
    (hr : r.run a (a.atStart.privOf c.port) (a.seqOf c.port) = .viol reason operand object x) :
    s.command c r = s.violates c r 3 reason operand object x := by
  subst ht
  rw [command_accepts h, hr]; rfl

/-- A row whose command is of its kind is that command. -/
theorem row_some {s : State} {c : Cmd} {f : State → Option CmdRule} {r : CmdRule} (h : f (s.reach c.port) = some r) :
    s.row c f = s.command c r := by
  simp [State.row, h]

theorem command_waits {s : State} {c : Cmd} {r : CmdRule} (h : (s.reach c.port).eligible c r.opcode = false) :
    s.command c r = s := by
  simp [State.command, h]

/-- The admission changes the dispatcher, the monitor and the service processor's time of admission. -/
theorem noteAdmission_only (s : State) (p : Port) : ∃ r m c x, s.noteAdmission p =
    { s with regs := r, mon := m, cmd := c, sp := x } ∧
      ∀ a, a < 0x41000 ∨ 0x412C0 ≤ a → (s.noteAdmission p).raw a = s.raw a := by
  cases p with
  | sp => exact ⟨s.regs, s.mon, _, _, rfl, fun _ _ => rfl⟩
  | queue q =>
    obtain ⟨⟨r, m, h1⟩, h2⟩ := monEv_only s 1 q.toNat 1 1 (by omega)
    have hc : (s.monEv 1 q.toNat 1 1).cmd = s.cmd := by rw [h1]
    simp only [State.noteAdmission]
    split
    · exact ⟨r, m, { s.cmd with last0 := some s.now, admitted := some s.now }, s.sp, by rw [h1], fun a ha => h2 a ha⟩
    · exact ⟨r, m, { s.cmd with rr := q.toNat, admitted := some s.now }, s.sp, by rw [h1], fun a ha => h2 a ha⟩

/-- Taking the words of a command changes the dispatcher, the monitor, and no register word beside the monitor's. -/
theorem admitted_only (s : State) (c : Cmd) : ∃ r m d x, s.admitted c =
    { s with regs := r, mon := m, cmd := d, sp := x } ∧
      ∀ a, a < 0x41000 ∨ 0x412C0 ≤ a → (s.admitted c).raw a = s.raw a := by
  obtain ⟨r, m, d, x, h1, h2⟩ := noteAdmission_only s c.port
  unfold State.admitted
  split
  · refine ⟨r, m, _, x, by rw [State.takeStaged, State.setQueue, h1], fun a ha => h2 a ha⟩
  · exact ⟨r, m, d, x, h1, h2⟩

theorem admitted_raw (s : State) (c : Cmd) {a : Nat} (h : a < 0x41000 ∨ 0x412C0 ≤ a) :
    (s.admitted c).raw a = s.raw a := by
  obtain ⟨_, _, _, _, _, h2⟩ := admitted_only s c
  exact h2 a h

@[simp] theorem admitted_pending (s : State) (c : Cmd) : (s.admitted c).pending = s.pending := by
  obtain ⟨_, _, _, _, h, _⟩ := admitted_only s c
  rw [h]

@[simp] theorem admitted_now (s : State) (c : Cmd) : (s.admitted c).now = s.now := by
  obtain ⟨_, _, _, _, h, _⟩ := admitted_only s c
  rw [h]

@[simp] theorem admitted_nt (s : State) (c : Cmd) : (s.admitted c).nt = s.nt := by
  obtain ⟨_, _, _, _, h, _⟩ := admitted_only s c
  rw [h]

@[simp] theorem admitted_ntSet (s : State) (c : Cmd) : (s.admitted c).ntSet = s.ntSet := by
  obtain ⟨_, _, _, _, h, _⟩ := admitted_only s c
  rw [h]

@[simp] theorem admitted_mode (s : State) (c : Cmd) : (s.admitted c).mode = s.mode := by
  obtain ⟨_, _, _, _, h, _⟩ := admitted_only s c
  rw [h]

@[simp] theorem admitted_prevMode (s : State) (c : Cmd) : (s.admitted c).prevMode = s.prevMode := by
  obtain ⟨_, _, _, _, h, _⟩ := admitted_only s c
  rw [h]

@[simp] theorem admitted_drain (s : State) (c : Cmd) : (s.admitted c).drain = s.drain := by
  obtain ⟨_, _, _, _, h, _⟩ := admitted_only s c
  rw [h]

@[simp] theorem admitted_flt (s : State) (c : Cmd) : (s.admitted c).flt = s.flt := by
  obtain ⟨_, _, _, _, h, _⟩ := admitted_only s c
  rw [h]

@[simp] theorem admitted_board (s : State) (c : Cmd) : (s.admitted c).board = s.board := by
  obtain ⟨_, _, _, _, h, _⟩ := admitted_only s c
  rw [h]

@[simp] theorem admitted_img (s : State) (c : Cmd) : (s.admitted c).img = s.img := by
  obtain ⟨_, _, _, _, h, _⟩ := admitted_only s c
  rw [h]

@[simp] theorem admitted_key (s : State) (c : Cmd) : (s.admitted c).key = s.key := by
  obtain ⟨_, _, _, _, h, _⟩ := admitted_only s c
  rw [h]

@[simp] theorem admitted_evt (s : State) (c : Cmd) : (s.admitted c).evt = s.evt := by
  obtain ⟨_, _, _, _, h, _⟩ := admitted_only s c
  rw [h]

@[simp] theorem admitted_cfl (s : State) (c : Cmd) : (s.admitted c).cfl = s.cfl := by
  obtain ⟨_, _, _, _, h, _⟩ := admitted_only s c
  rw [h]

@[simp] theorem admitted_cat (s : State) (c : Cmd) : (s.admitted c).cat = s.cat := by
  obtain ⟨_, _, _, _, h, _⟩ := admitted_only s c
  rw [h]

@[simp] theorem admitted_dsq (s : State) (c : Cmd) : (s.admitted c).dsq = s.dsq := by
  obtain ⟨_, _, _, _, h, _⟩ := admitted_only s c
  rw [h]

@[simp] theorem admitted_cls (s : State) (c : Cmd) : (s.admitted c).cls = s.cls := by
  obtain ⟨_, _, _, _, h, _⟩ := admitted_only s c
  rw [h]

@[simp] theorem admitted_tbl (s : State) (c : Cmd) : (s.admitted c).tbl = s.tbl := by
  obtain ⟨_, _, _, _, h, _⟩ := admitted_only s c
  rw [h]

@[simp] theorem admitted_trees (s : State) (c : Cmd) : (s.admitted c).trees = s.trees := by
  obtain ⟨_, _, _, _, h, _⟩ := admitted_only s c
  rw [h]

@[simp] theorem admitted_allocs (s : State) (c : Cmd) : (s.admitted c).allocs = s.allocs := by
  obtain ⟨_, _, _, _, h, _⟩ := admitted_only s c
  rw [h]

@[simp] theorem admitted_buckets (s : State) (c : Cmd) : (s.admitted c).buckets = s.buckets := by
  obtain ⟨_, _, _, _, h, _⟩ := admitted_only s c
  rw [h]

@[simp] theorem admitted_ohm (s : State) (c : Cmd) : (s.admitted c).ohm = s.ohm := by
  obtain ⟨_, _, _, _, h, _⟩ := admitted_only s c
  rw [h]

@[simp] theorem admitted_out (s : State) (c : Cmd) : (s.admitted c).out = s.out := by
  obtain ⟨_, _, _, _, h, _⟩ := admitted_only s c
  rw [h]

@[simp] theorem admitted_free (s : State) (c : Cmd) : (s.admitted c).free = s.free := by
  obtain ⟨_, _, _, _, h, _⟩ := admitted_only s c
  rw [h]

@[simp] theorem admitted_msgNext (s : State) (c : Cmd) : (s.admitted c).msgNext = s.msgNext := by
  obtain ⟨_, _, _, _, h, _⟩ := admitted_only s c
  rw [h]

@[simp] theorem admitted_regdef (s : State) (c : Cmd) : (s.admitted c).regdef = s.regdef := by
  obtain ⟨_, _, _, _, h, _⟩ := admitted_only s c
  rw [h]

@[simp] theorem admitted_sets (s : State) (c : Cmd) : (s.admitted c).sets = s.sets := by
  obtain ⟨_, _, _, _, h, _⟩ := admitted_only s c
  rw [h]

/-! ### Dropping the key-unit lock -/

theorem dropLock_eq (s : State) (q : Nat) : ∃ k, s.dropLock q = { s with key := { s.key with lock := k } } := by
  unfold State.dropLock
  split
  · split
    · exact ⟨_, rfl⟩
    · exact ⟨s.key.lock, rfl⟩
  · exact ⟨s.key.lock, rfl⟩

@[simp] theorem dropLock_regs (s : State) (q : Nat) : (s.dropLock q).regs = s.regs := by
  obtain ⟨k, h⟩ := dropLock_eq s q
  rw [h]

@[simp] theorem dropLock_cmd (s : State) (q : Nat) : (s.dropLock q).cmd = s.cmd := by
  obtain ⟨k, h⟩ := dropLock_eq s q
  rw [h]

@[simp] theorem dropLock_mode (s : State) (q : Nat) : (s.dropLock q).mode = s.mode := by
  obtain ⟨k, h⟩ := dropLock_eq s q
  rw [h]

@[simp] theorem dropLock_tbl (s : State) (q : Nat) : (s.dropLock q).tbl = s.tbl := by
  obtain ⟨k, h⟩ := dropLock_eq s q
  rw [h]

@[simp] theorem dropLock_trees (s : State) (q : Nat) : (s.dropLock q).trees = s.trees := by
  obtain ⟨k, h⟩ := dropLock_eq s q
  rw [h]

@[simp] theorem dropLock_cat (s : State) (q : Nat) : (s.dropLock q).cat = s.cat := by
  obtain ⟨k, h⟩ := dropLock_eq s q
  rw [h]

@[simp] theorem dropLock_dsq (s : State) (q : Nat) : (s.dropLock q).dsq = s.dsq := by
  obtain ⟨k, h⟩ := dropLock_eq s q
  rw [h]

@[simp] theorem dropLock_out (s : State) (q : Nat) : (s.dropLock q).out = s.out := by
  obtain ⟨k, h⟩ := dropLock_eq s q
  rw [h]

@[simp] theorem dropLock_now (s : State) (q : Nat) : (s.dropLock q).now = s.now := by
  obtain ⟨k, h⟩ := dropLock_eq s q
  rw [h]

@[simp] theorem dropLock_slots (s : State) (q : Nat) : (s.dropLock q).key.slots = s.key.slots := by
  obtain ⟨k, h⟩ := dropLock_eq s q
  rw [h]

@[simp] theorem dropLock_raw (s : State) (q a : Nat) : (s.dropLock q).raw a = s.raw a := by simp [State.raw]

@[simp] theorem dropLock_queue (s : State) (q r : Nat) : (s.dropLock q).queue r = s.queue r := by simp [State.queue]

/-! ### Completion -/

/-- `t` is `s` but for registers, the monitor, the dispatcher, what is put outside, and the key-unit lock. -/
def CmdOnly (s t : State) : Prop :=
  ∃ r m d o k, t = { s with regs := r, mon := m, cmd := d, out := o, key := { s.key with lock := k } }

theorem CmdOnly.refl (s : State) : CmdOnly s s := ⟨s.regs, s.mon, s.cmd, s.out, s.key.lock, rfl⟩

theorem CmdOnly.trans {s t u : State} (h : CmdOnly s t) (g : CmdOnly t u) : CmdOnly s u := by
  obtain ⟨_, _, _, _, _, h⟩ := h
  obtain ⟨r, m, d, o, k, g⟩ := g
  exact ⟨r, m, d, o, k, by rw [g, h]⟩

theorem CmdOnly.ite {c : Prop} [Decidable c] {s t u : State} (h : CmdOnly s t) (g : CmdOnly s u) :
    CmdOnly s (if c then t else u) := by
  split
  · exact h
  · exact g

theorem cmdOnly_setReg (s : State) (a : Nat) (w : Word) : CmdOnly s (s.setReg a w) :=
  ⟨_, s.mon, s.cmd, s.out, s.key.lock, rfl⟩

theorem cmdOnly_setQueue (s : State) (q : Nat) (u : CmdQueue) : CmdOnly s (s.setQueue q u) :=
  ⟨s.regs, s.mon, _, s.out, s.key.lock, rfl⟩

theorem msix_cmdOnly (s : State) (f v : Nat) : CmdOnly s (s.msix f v) := by
  obtain ⟨o, r, m, h, _⟩ := msix_only s f v
  exact ⟨r, m, s.cmd, o, s.key.lock, h⟩

theorem irqQueue_cmdOnly (s : State) (q : Nat) : CmdOnly s (s.irqQueue q) :=
  CmdOnly.ite (msix_cmdOnly _ _ _) (msix_cmdOnly _ _ _)

theorem writeCpl_cmdOnly (s : State) (q : Nat) (header : Word) (seq st pr re : Nat) : CmdOnly s (s.writeCpl q header seq st pr re) :=
  ⟨s.regs, s.mon, _, _, s.key.lock, rfl⟩

theorem keyRetired_cmdOnly (s : State) (q : Nat) (header : Word) : CmdOnly s (s.keyRetired q header) := by
  unfold State.keyRetired
  simp only
  refine CmdOnly.trans (t := if hdrOpcode header = 0x12 then s.bump 0x70010 1 else s)
    (CmdOnly.ite (cmdOnly_setReg _ _ _) (CmdOnly.refl s)) ?_
  generalize (if hdrOpcode header = 0x12 then s.bump 0x70010 1 else s) = t
  refine CmdOnly.ite ?_ (CmdOnly.refl t)
  split
  · exact CmdOnly.ite ⟨t.regs, t.mon, t.cmd, t.out, _, rfl⟩ (CmdOnly.refl t)
  · exact CmdOnly.refl t

theorem retireCmd_cmdOnly (s : State) (q : Nat) (header : Word) (seq : Nat) :
    CmdOnly s (s.retireCmd q header seq) := by
  unfold State.retireCmd State.closeCmd
  simp only
  exact (keyRetired_cmdOnly s q header).trans (((cmdOnly_setQueue _ _ _).trans (cmdOnly_setReg _ _ _)).trans
    (CmdOnly.ite (cmdOnly_setReg _ _ _) (CmdOnly.refl _)))

/-- What the end of a command on a queue can change, where no function-level reset waits for it. -/
theorem finish_cmdOnly (s : State) (q : BitVec 6) (header : Word) (seq st pr re : Nat)
    (h : (s.queue q.toNat).resetDue = false) : CmdOnly s (s.finish (.queue q) header seq st pr re) := by
  have hq : q.toNat ≠ 64 := by have := q.isLt; omega
  unfold State.finish State.finishCmd
  simp only [Port.num, hq, if_false, h, Bool.false_eq_true]
  exact CmdOnly.ite (retireCmd_cmdOnly _ _ _ _) (CmdOnly.ite ((writeCpl_cmdOnly s _ _ _ _ _ _).trans
    ((CmdOnly.ite (irqQueue_cmdOnly _ _) (CmdOnly.refl _)).trans (retireCmd_cmdOnly _ _ _ _))) (cmdOnly_setQueue _ _ _))

end Sys2Proof.Machine
end

