-- ==== Sys2Proof/Laws/Line.lean ====
section
/-! SUPPORT. Structures with a HEC: one that is written checks, needs no correction, and keeps its fields (R163, R276, R288). -/

namespace Sys2Proof.Machine

theorem low_of_append {n m : Nat} (a : BitVec n) (b : BitVec m) : (a ++ b).extractLsb' 0 m = b := by
  ext i hi
  simp [BitVec.getLsbD_append, hi]

theorem high_of_append {n m : Nat} (a : BitVec n) (b : BitVec m) : (a ++ b).extractLsb' m n = a := by
  ext i hi
  simp [BitVec.getLsbD_append, hi]

@[simp] theorem hecWord_ok (v : Nat) : hecOk (hecWord v) = true := by
  have h1 := low_of_append (BitVec.ofNat 51 (v / 2 ^ 13)) (Config.hec (BitVec.ofNat 51 (v / 2 ^ 13)))
  have h2 := high_of_append (BitVec.ofNat 51 (v / 2 ^ 13)) (Config.hec (BitVec.ofNat 51 (v / 2 ^ 13)))
  simp only [hecOk, hecWord, beq_iff_eq]
  exact h1.trans (congrArg Config.hec h2.symm)

@[simp] theorem hecFix_hecWord (v : Nat) : hecFix (hecWord v) = some (hecWord v) := by simp [hecFix]

theorem hecWord_high {v : Nat} (hv : v < 2 ^ 64) : (hecWord v).toNat / 2 ^ 13 = v / 2 ^ 13 := by
  simp only [hecWord, BitVec.toNat_append, BitVec.toNat_ofNat]
  have hb := (Config.hec (BitVec.ofNat 51 (v / 2 ^ 13))).isLt
  have ha : v / 2 ^ 13 % 2 ^ 51 = v / 2 ^ 13 := Nat.mod_eq_of_lt (by omega)
  rw [ha, Nat.shiftLeft_eq, Nat.mul_comm, ← Nat.two_pow_add_eq_or_of_lt hb]
  omega

/-- Every field above the HEC is what was written. -/
theorem bitsOf_hecWord {v hi lo : Nat} (hv : v < 2 ^ 64) (hl : 13 ≤ lo) :
    bitsOf (hecWord v).toNat hi lo = bitsOf v hi lo := by
  obtain ⟨k, rfl⟩ := Nat.exists_eq_add_of_le hl
  simp only [bitsOf, Nat.pow_add, ← Nat.div_div_eq_div_mul, hecWord_high hv]

/-- And so is every bit. -/
theorem getLsbD_hecWord {v i : Nat} (hv : v < 2 ^ 64) (hl : 13 ≤ i) : (hecWord v).getLsbD i = v.testBit i := by
  obtain ⟨k, rfl⟩ := Nat.exists_eq_add_of_le hl
  have h := congrArg (Nat.testBit · k) (hecWord_high hv)
  simp only [Nat.testBit_div_two_pow] at h
  rwa [Nat.add_comm k 13] at h

end Sys2Proof.Machine
end

