-- ==== Sys2Proof/Laws/Sluice.lean ====
section
/-! SUPPORT. What a step of a run does, said once for every Sluice instruction (R199, R228). -/

namespace Sys2Proof.Machine

/-- At an instruction of its opcode a step counts, goes behind the instruction's words, and does what the instruction does. -/
theorem sluStep_at {s : State} {t op : Nat} {r : Run} (f : Word → Word → Word → State → Run → State × Run)
    (h : s.atRun t op r) :
    s.sluStep t op f =
      let g := f (s.raw (adBank t r.bank r.pc)) (s.raw (adBank t r.bank (r.pc + 1))) (s.raw (adBank t r.bank (r.pc + 2)))
        (s.monEv 11 t 1 1) (r.past op)
      g.1.putRun t g.2 := by
  obtain ⟨h1, h2, h3, h4⟩ := h
  have h5 : Nat.ble ((r.view s).rf (adTree t 0x1000) 14 0) r.steps = false := by
    rw [← Bool.not_eq_true, Nat.ble_eq]; omega
  simp [State.sluStep, h1, h2, h3, h5, State.putRun, Run.past]

/-- At any other word, or with its budget used up, a run takes no step of that opcode. -/
theorem sluStep_none {s : State} {t op : Nat} (f : Word → Word → Word → State → Run → State × Run)
    (h : ∀ r, ¬ s.atRun t op r) : s.sluStep t op f = s := by
  unfold State.sluStep
  split
  · rfl
  · rename_i r hr
    dsimp only
    split
    · rfl
    · rename_i hc
      simp only [ne_eq, Bool.or_eq_true, decide_eq_true_eq, Bool.not_eq_true', Nat.ble_eq] at hc
      push Not at hc
      exact absurd ⟨hr, by simpa using hc.1.2, by simpa using hc.1.1, by omega⟩ (h r)

end Sys2Proof.Machine
end

