-- ==== Sys2Proof/Laws/Tick.lean ====
section
/-! SUPPORT. What passes of itself: nothing where no tick is to pass, and no work where no command is in execution. -/

namespace Sys2Proof.Machine

@[simp] theorem runTicks_zero (fuel : Nat) (s : State) : State.runTicks fuel 0 s = s := by
  cases fuel <;> simp [State.runTicks]

/-- A tick that has come is not waited for. -/
theorem waitUntil_come {s : State} {n : Nat} (h : n ≤ s.now) : s.waitUntil n = s := by
  simp [State.waitUntil, Nat.sub_eq_zero_of_le h]

/-- In a device that does not run no tick passes of itself. -/
theorem runTicks_still (fuel k : Nat) {s : State} (h : s.running = false) : State.runTicks fuel k s = s := by
  cases fuel <;> simp [State.runTicks, h]

/-- Where nothing is claimed nothing is put back. -/
theorem keepClaims_none {u t : State} (h : u.claims = []) : u.keepClaims t = t := by
  simp [State.keepClaims, h]

/-- With no command in execution and nothing claimed a tick brings no work. -/
theorem jobs_none {s : State} (h : s.execs = []) (hc : s.claims = []) : s.jobs = s := by
  simp [State.jobs, State.jobQueues, h, sortNat, keepClaims_none hc]

/-- A command looks at the present tick where none has been admitted in it and none of its queue has retired in it. -/
theorem reach_now {s : State} {p : Port} (h : s.tickFree = true) (hr : (s.queue p.num).retiredAt ≠ some s.now) :
    s.reach p = s := by
  simp [State.reach, h, hr]

/-- Such a command is taken from the state as it stands, where none is in execution and nothing is claimed. -/
theorem taken_now {s : State} {c : Cmd} {r : CmdRule} (h : s.tickFree = true)
    (hr : (s.queue c.port.num).retiredAt ≠ some s.now) (hx : s.execs = []) (hc : s.claims = []) :
    s.taken c r = s.admitted c := by
  simp [State.taken, State.readied, reach_now h hr, jobs_none hx hc, hx]

/-- A tick in which nothing is claimed ends with the effects of its command, but for a MODE or RETIRE. -/
theorem worked_none {u v : State} {r : CmdRule} (hc : u.claims = []) (h1 : r.opcode ≠ 0x01) (h2 : r.opcode ≠ 0x18) :
    u.worked r v = v := by
  simp [State.worked, keepClaims_none hc, h1, h2]

end Sys2Proof.Machine
end

