-- ==== Sys2Proof/Tests/Slice0.lean ====
section
/-! SUPPORT. Small tests: every check of WellFormed refuses an ill-formed term, single steps on small states, and states
that meet the hypotheses of the statements. -/

namespace Sys2Proof.Tests

open Sys2Proof.Machine

set_option Elab.async false

/-! ### Well-formedness -/

/-- A command of queue 0 with the operands given. -/
def cmd0 (flags : BitVec 2) (args : BitVec 32) (ops : List Word) : Cmd :=
  { port := .queue 0, silent := false, irq := false, opflags := flags, args := args, ops := ops }

/-- Nothing from the host, in the admission tick, or over some ticks. -/
def io0 : HostIo := { slots := [], octets := [], took := 0 }
def io3 : HostIo := { io0 with took := 3 }

theorem test_wf_accepts_nop : (Instr.nop (cmd0 0 7 [])).wf = true := by decide
theorem test_wf_refuses_64_operands : (Instr.nop (cmd0 0 7 (List.replicate 64 0))).wf = false := by decide
theorem test_wf_refuses_4097_slots :
    (Instr.read (cmd0 0 0 []) { io0 with slots := List.replicate 4097 0 }).wf = false := by decide +kernel
theorem test_wf_refuses_mask_of_write :
    (Instr.softReset
      { port := .queue 0, silent := false, irq := false, masked := false, addr := 0x10, mask := 1, value := 1 }).wf = false := by decide
theorem test_wf_refuses_65_symbols :
    (Instr.burstAccepted 0 false 0 (List.replicate 65 0) (0, 0)).wf = false := by decide
theorem test_wf_refuses_more_octets_than_the_frame :
    (Instr.uplinkFrameReceived 0 { octets := [1, 2], len := 1, tail := true, sfd := 0 }).wf = false := by decide
theorem test_wf_refuses_long_fetch : (Instr.commandFetch 0 (List.replicate 65 0)).wf = false := by decide
theorem test_wf_refuses_ring_132 : (Instr.ringWriteRetry 132).wf = false := by decide
theorem test_wf_refuses_15_rails : (Instr.railSample (List.replicate 15 0)).wf = false := by decide
theorem test_wf_refuses_21_sensors : (Instr.temperatureSample (List.replicate 21 0)).wf = false := by decide
theorem test_wf_refuses_sensor_20 : (Instr.thermtrip 20 0).wf = false := by decide

/-- No word spells a row: the table gives none bits. -/
theorem test_no_row_has_bits : decodeTableWord 48 0x0100_0000_0000 = none := by decide

/-- A tick begins in the state. -/
def begun (s : State) : State := { s with start := s.toDevice }

/-- A state put in a mode one second on, with room for records and the words of a command waiting in queue 0, as a tick
begins. -/
def waiting (m : Mode) (c : Cmd) (op : Nat) (s : State) : State :=
  let x := ({ s with mode := m, now := 10 ^ 9 }.setReg (adQueue 0 9) 1).setReg (adQueue 0 3) 4
  begun (x.setQueue 0 { CmdQueue.fresh with staging := c.header op :: c.ops })

/-- The command is accepted in that state. -/
def can (m : Mode) (c : Cmd) (r : CmdRule) (s : State) : Prop := (waiting m c r.opcode s).accepts c r

/-- The state with the words of the command taken, in which it is judged. -/
def taken (m : Mode) (c : Cmd) (r : CmdRule) (s : State) : State := (waiting m c r.opcode s).taken c r
/-- The same of a row that has a rule for the command. -/
def takenRow (m : Mode) (c : Cmd) (r : Option CmdRule) (s : State) : State := taken m c (r.getD (nopRule c)) s

/-! ### States that meet the hypotheses of the statements: admission and plain commands -/

theorem test_meets_step_executes_front_row :
    { State.reset with pending := [.holdoffUs] }.pending = .holdoffUs :: [] ∧ State.reset.pending = [] := by decide
theorem test_meets_commands_wait :
    hostRow (.nop (cmd0 0 7 [])) = some (cmd0 0 7 [], fun _ => some (nopRule (cmd0 0 7 []))) ∧
      (State.reset.reach (.queue 0)).eligible (cmd0 0 7 []) 0 = false := ⟨rfl, by decide +kernel⟩
theorem test_meets_checks_form :
    hostRow (.nop (cmd0 1 0 [])) = some (cmd0 1 0 [], fun _ => some (nopRule (cmd0 1 0 []))) ∧
      ((waiting .still (cmd0 1 0 []) 0 State.reset).reach (.queue 0)).eligible (cmd0 1 0 []) 0 = true ∧
      (((waiting .still (cmd0 1 0 []) 0 State.reset).reach (.queue 0)).readied (cmd0 1 0 []) (nopRule (cmd0 1 0 []))).fatalNow = false ∧
      (nopRule (cmd0 1 0 [])).form = some (0x04, 0) := ⟨rfl, by decide +kernel, by decide +kernel, by decide⟩
theorem test_meets_checks_privilege :
    let c : Cmd := { cmd0 0 0 [] with port := .sp }
    let s : State := begun { State.reset with mode := .still }
    hostRow (.keyLock c) = some (c, fun _ => some (keyLockRule c)) ∧ (s.reach .sp).eligible c 0x11 = true ∧
      ((s.reach .sp).readied c (keyLockRule c)).fatalNow = false ∧ (keyLockRule c).form = none ∧ c.port = .sp ∧ (keyLockRule c).spMay = false :=
  ⟨rfl, by decide +kernel, by decide +kernel, by decide, rfl, rfl⟩
theorem test_meets_checks_mode :
    let c := cmd0 0 2 []
    let s := waiting .drain c 1 State.reset
    modeRow c [2] = some (modeRule c) ∧ (s.reach (.queue 0)).eligible c 1 = true ∧
      ((s.reach (.queue 0)).readied c (modeRule c)).fatalNow = false ∧ (modeRule c).form = none ∧
      (modeRule c).priv (s.taken c (modeRule c)).atStart .supervisor = none ∧ (s.taken c (modeRule c)).atStart.modeOk c (modeRule c) = false :=
  ⟨rfl, by decide +kernel, by decide +kernel, by decide, by decide, by decide +kernel⟩
theorem test_meets_checks_arguments :
    let c := cmd0 0 0 []
    let s := waiting .still c 1 State.reset
    modeRow c [0, 1, 6, 7] = some (modeRule c) ∧ (s.reach (.queue 0)).eligible c 1 = true ∧ (modeRule c).form = none ∧
      (s.taken c (modeRule c)).atStart.modeOk c (modeRule c) = true ∧ (modeRule c).args (s.taken c (modeRule c)).atStart .supervisor = false :=
  ⟨rfl, by decide +kernel, by decide, by decide +kernel, by decide⟩
theorem test_meets_violation : (1 : BitVec 6) ≠ 0 ∧ (3 : Nat) ≠ 0x0D := by decide
theorem test_meets_completion_record :
    let s := waiting .still (cmd0 0 0 []) 0 State.reset
    (s.queue 0).resetDue = false ∧ hdrSilent ((cmd0 0 0 []).header 0) = false ∧ hdrIrq ((cmd0 0 0 []).header 0) = false ∧
      s.cplRoom 0 = true ∧ State.reset.cplRoom 0 = false := by decide +kernel
/-- A flush of bridge port 0 in execution on queue 0, admitted one tick ago. -/
def flushing (s : State) : State :=
  s.setExec 0
    { header := (cmd0 0 0 []).header 0x0A, seq := 0, progress := 0, wait := .work 0 (.flush 0 true 0 0), since := 10 ^ 9 - 1 }
theorem test_meets_work :
    let s := flushing (waiting .still (cmd0 0 0 []) 0 State.reset)
    s.running = true ∧ s.claims = [] ∧ s.jobQueues = [0] ∧ (s.queue 0).exec.isSome = true := by decide +kernel
theorem test_meets_nop : can .still (cmd0 0 7 []) (nopRule (cmd0 0 7 [])) State.reset := by
  unfold can State.accepts; decide +kernel
theorem test_meets_read :
    can .still (cmd0 0 0x20 []) (readRule (cmd0 0 0x20 []) io0) State.reset ∧
      can .still (cmd0 0 0x20 [0x1000]) (readRule (cmd0 0 0x20 [0x1000]) io0) State.reset ∧
      can .still (cmd0 0 0x20 [0x1000]) (readRule (cmd0 0 0x20 [0x1000]) io3) State.reset := by
  unfold can State.accepts; decide +kernel
theorem test_meets_fence_thaw :
    can .still (cmd0 0 0 []) (fenceRule (cmd0 0 0 [])) State.reset ∧
      can .still (cmd0 0 1 []) (thawRule (cmd0 0 1 [])) (State.reset.setReg (adQueue 1 9) 2) := by
  unfold can State.accepts; decide +kernel
/-- Nothing holds the words of a write in that state. -/
def free (c : Cmd) (masked : Bool) (s : State) : Bool :=
  let a := taken .still c (writeRule c masked) s
  a.writeHeld (a.atStart.privOf c.port) (writeWords c masked) || a.atStart.writeBusy (writeWords c masked)
theorem test_meets_write :
    let c := cmd0 0 0x20005 [0x000100000005]
    let d := cmd0 0 0x20005 [0xFF, 5]
    can .still c (writeRule c false) State.reset ∧ free c false State.reset = false ∧
      can .still d (writeRule d true) State.reset ∧ free d true State.reset = false ∧
      (taken .still c (writeRule c false) State.reset).claims = [] := by
  unfold can State.accepts; decide +kernel
/-- A flash operation is under way. -/
def flashing : State :=
  { State.reset with img := { State.reset.img with
      op := some { op := 0, host := 0, flash := 0, len := 0, trial := false, slot := false, bad := 0 } } }
theorem test_meets_write_busy :
    let c := cmd0 0 0xC013 [0]
    let d := cmd0 0 0xC013 [0xFF, 0]
    can .still c (writeRule c false) flashing ∧ free c false flashing = true ∧
      can .still d (writeRule d true) flashing ∧ free d true flashing = true := by
  unfold can State.accepts; decide +kernel
theorem test_meets_stored_word : isAlarmWord 0x20005 = false := by decide
theorem test_meets_mode_commands :
    can .still (cmd0 0 2 []) (modeRule (cmd0 0 2 [])) State.reset ∧ modeTarget (cmd0 0 2 []) = 2 ∧
      (taken .still (cmd0 0 2 []) (modeRule (cmd0 0 2 [])) State.reset).start.mode = .still ∧
      can .flow (cmd0 0 3 []) (modeRule (cmd0 0 3 [])) State.reset ∧ modeTarget (cmd0 0 3 []) = 3 ∧
      (taken .flow (cmd0 0 3 []) (modeRule (cmd0 0 3 [])) State.reset).start.mode = .flow ∧
      can .flow (cmd0 0 4 []) (modeRule (cmd0 0 4 [])) State.reset ∧ modeTarget (cmd0 0 4 []) = 4 ∧
      can .flow (cmd0 0 5 []) (modeRule (cmd0 0 5 [])) State.reset ∧ modeTarget (cmd0 0 5 []) = 5 ∧
      can .still (cmd0 0 1 []) (modeRule (cmd0 0 1 [])) State.reset ∧ modeTarget (cmd0 0 1 []) = Mode.still.code ∧
      can .weir (cmd0 0 3 []) (modeRule (cmd0 0 3 [])) State.reset ∧
      modeTarget (cmd0 0 3 []) = (taken .weir (cmd0 0 3 []) (modeRule (cmd0 0 3 [])) State.reset).start.mode.code := by
  unfold can State.accepts; decide +kernel
theorem test_meets_fatal : State.reset.board.inReset = false ∧ State.reset.mode ≠ .dry ∧ State.reset.sp.held = false := by decide

/-! ### Table commands and staging -/

/-- A MAC entry. -/
def mac1 : List Word := [1, 0, 0x800000000000]
/-- What the first tick of an insertion into table 0x01 brings. -/
def firstTick (s : State) (ws : List Word) : InsOut := s.insertStep (Insertion.fresh 1 ws) (fun _ => false)
/-- The slot that an insertion finds at once. -/
def roomOf : InsOut → Option Nat
  | .room k => some k
  | _ => none
/-- The slot of the entry, and a state that holds it. -/
def slot1 : Nat := (roomOf (firstTick State.reset mac1)).getD 0
def withMac : State := State.reset.addEntry 1 slot1 mac1
theorem test_meets_insert :
    let c := cmd0 0 0x04000000 mac1
    let a := (taken .still c ((tblInsertRule c).meets 0) State.reset).wordsFixed 0
    let b := (taken .still c ((tblInsertRule c).meets 0) withMac).wordsFixed 0
    can .still c ((tblInsertRule c).meets 0) State.reset ∧ tblKeyed (tcTable c) = true ∧ a.digestHolds 1 = false ∧
      a.tableTaken 1 a.now = false ∧ (a.stepsOn 1).findEntry 1 (entryKey 1 mac1) = none ∧ (a.stepsOn 1).filterOk 1 mac1 = true ∧
      (roomOf (firstTick (a.stepsOn 1) mac1)).isSome = true ∧ can .still c ((tblInsertRule c).meets 0) withMac ∧ c.flag0 = false ∧
      ((b.stepsOn 1).findEntry 1 (entryKey 1 mac1)).any (fun x => foundOwned .supervisor 1 x.2) = true := by
  unfold can State.accepts; decide +kernel
theorem test_meets_delete_search :
    let c := cmd0 0 0x04000000 [1, 0]
    let d := cmd0 0 0x04000000 [0x1000, 1, 0]
    let a := (taken .still c (tblDeleteRule c).reads withMac).someFixed
    can .still c (tblDeleteRule c).reads withMac ∧ a.digestHolds 1 = false ∧ a.tableTaken 1 a.now = false ∧
      ((a.stepsOn 1).findEntry 1 [1, 0]).any (fun x => foundOwned .supervisor 1 x.2) = true ∧
      ((taken .still c (tblDeleteRule c).reads State.reset).someFixed.stepsOn 1).findEntry 1 [1, 0] = none ∧
      can .still d (tblSearchRule d io0).reads withMac ∧ can .still d (tblSearchRule d io3).reads State.reset ∧
      (taken .still d (tblSearchRule d io0).reads State.reset).someFixed.foundEntry 1 [1, 0] = none ∧
      ((taken .still d (tblSearchRule d io0).reads withMac).someFixed.foundEntry 1 [1, 0]).any
        (fun x => foundOwned .supervisor 1 x.2 && !x.2.isEmpty) = true := by
  unfold can State.accepts; decide +kernel
/-- A walk of table 0x01. -/
def walk1 (slot : Nat) : Walk := { table := 1, slot := slot, late := [], dup := [], used := 0, seen := [], cursor := 5 }
theorem test_meets_flush_next :
    let c := cmd0 0 0x04000000 [0]
    let d := cmd0 0 0x04000000 [0x1000, 5]
    let s := State.reset.setWalk 0 (some (walk1 0))
    can .still c ((tblFlushPortRule c).meets 0) State.reset ∧ can .still d ((tblNextRule d).meets 0) s ∧ d.op 1 ≠ 0 ∧
      ((taken .still d ((tblNextRule d).meets 0) s).walkFor 1 5).isRight = true ∧ ((taken .still d ((tblNextRule d).meets 0) State.reset).walkFor 1 5).isLeft = true ∧
      s.walk 0 = some (walk1 0) ∧ (s.walkTake .supervisor (walk1 0) 4).2.complete = false ∧
      (s.walkTake .supervisor (walk1 0) 0).1.length = 0 := by
  unfold can State.accepts; decide +kernel
/-- A grant profile with nothing granted. -/
def profile0 : List Word := [0, 0, 0, 0, 0, 0, 0, 0x800000000000]
theorem test_meets_indexed :
    let c := cmd0 0 0x48000000 profile0
    let d := cmd0 0 0x48000000 []
    let e := cmd0 0 0x48000000 [0x1000]
    let s := State.reset.setEntry 0x12 0 profile0
    can .still c ((tblInsertRule c).meets 0) State.reset ∧ tcTable c = 0x12 ∧ (taken .still c ((tblInsertRule c).meets 0) State.reset).digestHolds 0x12 = false ∧
      can .still d (tblDeleteRule d).reads s ∧ (taken .still d (tblDeleteRule d).reads s).digestHolds 0x12 = false ∧
      bitOf (nth ((taken .still d (tblDeleteRule d).reads s).someFixed.atStart.entry 0x12 0) 7 0) 47 = true ∧
      can .still e (tblSearchRule e io0).reads s ∧ tblKeyed (tcTable e) = false ∧
      entryValid 0x12 ((taken .still e (tblSearchRule e io0).reads s).someFixed.atStart.entry 0x12 0) = true ∧
      (taken .still e (tblSearchRule e io0).reads s).someFixed.struck (.indexed (0x12 * 2 ^ 24)) = false := by
  unfold can State.accepts; decide +kernel
theorem test_meets_staging :
    let c := cmd0 1 0x80000000 []
    let d := cmd0 0 0 []
    let a := taken .still c (ruleStageRule c io0) State.reset
    can .still c (ruleStageRule c io0) State.reset ∧ a.atStart.retiring = false ∧ a.tableTaken (tcTable c) a.now = false ∧
      c.flag0 = true ∧ can .still d (genSwapRule d) State.reset ∧ (taken .still d (genSwapRule d) State.reset).atStart.retiring = false ∧
      (taken .still d (genSwapRule d) State.reset).swapHeld = false := by
  unfold can State.accepts; decide +kernel
/-- FRAME and END. -/
def ioProgram : HostIo := { io0 with slots := [0x800000000000, 0xC00000000000] }
theorem test_meets_sluice :
    let c := cmd0 1 0 [0x1000, 0x1000]
    let d := cmd0 0 0 []
    let a := taken .still c (sluiceLoadRule c ioProgram) State.reset
    can .still c (sluiceLoadRule c ioProgram) State.reset ∧ ioProgram.took = 0 ∧ a.swapDue 0 = false ∧ c.flag0 = true ∧
      (a.commitPending && a.sluMasked 0) = false ∧
      sluBadWord (fun i => ((a.setBankValid 0 1 false).setRegs (adBank 0 1 0)
        (takePad 2 0 (ioProgram.slots.map wordOf))).raw (adBank 0 1 i)) = none ∧
      can .still d (sluiceSwapRule d) (State.reset.setBankValid 0 1 true) ∧
      (taken .still d (sluiceSwapRule d) (State.reset.setBankValid 0 1 true)).bankValid 0 1 = true := by
  unfold can State.accepts; decide +kernel
theorem test_meets_sluice_bad_word :
    (sluBadWord (fun _ => 0)).isSome = true := by decide +kernel

/-! ### ONUs, messages and keys -/

/-- ONU 0 is used, on lane 0. -/
def withOnu : State := State.reset.setReg (adOnu 0 0) 0x800004000000
theorem test_meets_admit :
    let c := cmd0 0 0 [0x4000000, 0, 0, 0, 0, 0, 0, 0]
    ∃ r, onuAdmitRow c = some r ∧ can .still c r State.reset ∧ onuOp c = 0 ∧
      (takenRow .still c (onuAdmitRow c) State.reset).standby 0 = false :=
  ⟨_, rfl, by unfold can State.accepts; decide +kernel, by decide, by decide +kernel⟩
theorem test_meets_update :
    let c := cmd0 0 0x10000000 [0, 0, 0]
    ∃ r, onuUpdateRow c = some r ∧ can .still c r withOnu ∧ onuOp c = 1 ∧ (takenRow .still c (onuUpdateRow c) withOnu).atStart.standby 0 = false ∧
      (takenRow .still c (onuUpdateRow c) withOnu).atStart.onuUsed 0 = true ∧
      onuWord0Ok (merge ((takenRow .still c (onuUpdateRow c) withOnu).raw (adOnu 0 0)) (c.op 1) (c.op 2)) = true :=
  ⟨_, rfl, by unfold can State.accepts; decide +kernel, by decide, by decide +kernel, by decide +kernel, by decide +kernel⟩
theorem test_meets_remove :
    let c := cmd0 0 0x20000000 []
    ∃ r, onuRemoveRow c = some r ∧ can .still c r withOnu ∧ onuOp c = 2 ∧
      (takenRow .still c (onuRemoveRow c) withOnu).atStart.standby 0 = false ∧ (takenRow .still c (onuRemoveRow c) withOnu).atStart.onuUsed 0 = true :=
  ⟨_, rfl, by unfold can State.accepts; decide +kernel, by decide, by decide +kernel, by decide +kernel⟩
theorem test_meets_set_owner :
    let c := cmd0 0 0x30000000 [0]
    ∃ r, setOwnerRow c = some r ∧ can .still c r withOnu ∧ onuOp c = 3 ∧
      (takenRow .still c (setOwnerRow c) withOnu).atStart.standby 0 = false ∧ (takenRow .still c (setOwnerRow c) withOnu).atStart.onuUsed 0 = true :=
  ⟨_, rfl, by unfold can State.accepts; decide +kernel, by decide, by decide +kernel, by decide +kernel⟩
theorem test_meets_bind :
    let c := cmd0 0 0x40000000 [0]
    ∃ r, bindAllocRow c = some r ∧ can .still c r withOnu ∧ onuOp c = 4 ∧
      (takenRow .still c (bindAllocRow c) withOnu).atStart.standby 0 = false ∧ (takenRow .still c (bindAllocRow c) withOnu).atStart.onuUsed 0 = true ∧
      (takenRow .still c (bindAllocRow c) withOnu).rf (adOnu 0 2) 31 20 ≠ 4095 :=
  ⟨_, rfl, by unfold can State.accepts; decide +kernel, by decide, by decide +kernel, by decide +kernel, by decide +kernel⟩
theorem test_meets_unbind :
    let c := cmd0 0 0x50000000 [0]
    let s := withOnu.setAlloc 0 (some (0, 7))
    ∃ r, unbindAllocRow c = some r ∧ can .still c r s ∧ onuOp c = 5 ∧
      (takenRow .still c (unbindAllocRow c) s).atStart.standby 0 = false ∧ (takenRow .still c (unbindAllocRow c) s).atStart.onuUsed 0 = true ∧
      (takenRow .still c (unbindAllocRow c) s).alloc (bindHandle c) = some (0, 7) :=
  ⟨_, rfl, by unfold can State.accepts; decide +kernel, by decide, by decide +kernel, by decide +kernel, by decide +kernel⟩
theorem test_meets_set_eqd :
    let c := cmd0 0 0x60000000 [0]
    ∃ r, setEqdRow c = some r ∧ can .still c r withOnu ∧ onuOp c = 6 ∧
      (takenRow .still c (setEqdRow c) withOnu).atStart.standby 0 = false ∧ (takenRow .still c (setEqdRow c) withOnu).atStart.onuUsed 0 = true :=
  ⟨_, rfl, by unfold can State.accepts; decide +kernel, by decide, by decide +kernel, by decide +kernel⟩
/-- Tree 0 is enabled, and ONU 0 used. -/
def withTree : State := withOnu.setReg (adTree 0 0) 1
theorem test_meets_ploam :
    let c := cmd0 0 0 [0, 0, 0, 0, 0, 0, 0, 0]
    let d := cmd0 1 0x100 [0, 0, 0, 0, 0, 0, 0, 0]
    (∃ r, ploamRow 0 c = some r ∧ can .flow c r withTree) ∧ (takenRow .flow c (ploamRow 0 c) withTree).atStart.onuUsed 0 = true ∧
      (takenRow .flow c (ploamRow 0 c) withTree).atStart.msgLanes c = [0] ∧ ((takenRow .flow c (ploamRow 0 c) withTree).atStart.lane 0 0).msgs.length < 64 ∧
      (∃ r, ploamRow 1 d = some r ∧ can .flow d r withTree) ∧ msgType d = 1 ∧ (takenRow .flow d (ploamRow 1 d) withTree).atStart.msgLanes d = [0] :=
  ⟨⟨_, rfl, by unfold can State.accepts; decide +kernel⟩, by decide +kernel, by decide +kernel, by decide +kernel,
    ⟨_, rfl, by unfold can State.accepts; decide +kernel⟩, by decide, by decide +kernel⟩
theorem test_meets_omci :
    let c := cmd0 2 0 [0x1000, 48]
    (∃ r, omciRow c io0 = some r ∧ can .flow c r withTree) ∧ (∃ r, omciRow c io3 = some r ∧ can .flow c r withTree) ∧
      msgType c = 2 ∧ io0.took = 0 ∧ io3.took ≠ 0 ∧ (takenRow .flow c (omciRow c io0) withTree).atStart.msgLanes c = [0] ∧
      (takenRow .flow c (omciRow c io3) withTree).atStart.msgRefused c = none :=
  ⟨⟨_, rfl, by unfold can State.accepts; decide +kernel⟩, ⟨_, rfl, by unfold can State.accepts; decide +kernel⟩,
    by decide, rfl, by decide, by decide +kernel, by decide +kernel⟩
/-- The key-unit lock is held by queue `q`. -/
def locked (q : Nat) (s : State) : State := { s with key := { s.key with lock := some (q, 2 * 10 ^ 9) } }
theorem test_meets_key_lock :
    let c := cmd0 1 0 []
    let d := cmd0 0 0 []
    can .still c (keyLockRule c) State.reset ∧ c.flag0 = true ∧ (taken .still c (keyLockRule c) State.reset).atStart.key.lock = none ∧
      can .still c (keyLockRule c) (locked 0 State.reset) ∧
      (taken .still c (keyLockRule c) (locked 0 State.reset)).atStart.key.lock = some (0, 2 * 10 ^ 9) ∧
      can .still c (keyLockRule c) (locked 5 State.reset) ∧
      (taken .still c (keyLockRule c) (locked 5 State.reset)).atStart.key.lock = some (5, 2 * 10 ^ 9) ∧
      can .still d (keyLockRule d) (locked 0 State.reset) ∧ d.flag0 = false ∧ can .still d (keyLockRule d) State.reset ∧
      (taken .still d (keyLockRule d) State.reset).atStart.key.lock = none := by
  unfold can State.accepts; decide +kernel
/-- Queue 0 holds the lock, the first general slot, of tree 0's first group entry, and slot 0 hold keys. -/
def withKeys : State :=
  (((locked 0 withTree).setReg (adGrp 0 0) 0x800000020000).setSlot 131072 { KeySlot.fresh with valid := true, key := 5 }).setSlot 0 { KeySlot.fresh with valid := true }
/-- Nothing stops the KEY_OP before its work. -/
theorem ready_of {a : State} {c : Cmd} (h : a.atStart.key.lock = some (c.port.num, 2 * 10 ^ 9)) (h1 : a.keyStandby c = false)
    (h2 : a.keyStop c = none) : a.keyReady c := ⟨⟨_, h⟩, h1, h2⟩
theorem test_meets_key_load :
    let c := cmd0 0 0 [0x1000, 0x20000, 16]
    (∃ r, keyRow c 0 (keyStart c io0) = some r ∧ can .still c r withKeys) ∧ (∃ r, keyRow c 0 (keyStart c io3) = some r ∧
      can .still c r withKeys) ∧ Cmd.keyOp c = 0 ∧ (takenRow .still c (keyRow c 0 (keyStart c io0)) withKeys).keyReady c ∧ keyTook c io0 = 0 ∧ keyTook c io3 ≠ 0 :=
  ⟨⟨_, rfl, by unfold can State.accepts; decide +kernel⟩, ⟨_, rfl, by unfold can State.accepts; decide +kernel⟩, by decide,
    ready_of (by decide +kernel) (by decide +kernel) (by decide +kernel), by decide, by decide⟩
theorem test_meets_key_gen :
    let c := cmd0 0 0x10000000 [0, 0x20000, 0]
    (∃ r, keyRow c 1 (keyStart c io0) = some r ∧ can .still c r withKeys) ∧ Cmd.keyOp c = 1 ∧
      (takenRow .still c (keyRow c 1 (keyStart c io0)) withKeys).keyReady c ∧ keyTook c io0 = 0 :=
  ⟨⟨_, rfl, by unfold can State.accepts; decide +kernel⟩, by decide,
    ready_of (by decide +kernel) (by decide +kernel) (by decide +kernel), by decide⟩
theorem test_meets_key_erase :
    let c := cmd0 0 0x20000000 [0, 0x20000, 0]
    (∃ r, keyRow c 2 (keyStart c io0) = some r ∧ can .still c r withKeys) ∧ Cmd.keyOp c = 2 ∧
      (takenRow .still c (keyRow c 2 (keyStart c io0)) withKeys).keyReady c :=
  ⟨⟨_, rfl, by unfold can State.accepts; decide +kernel⟩, by decide,
    ready_of (by decide +kernel) (by decide +kernel) (by decide +kernel)⟩
theorem test_meets_ecb_dec_slot :
    let c := cmd0 0 0x50020000 [0x1000, 0x20001, 16]
    (∃ r, keyRow c 5 (keyStart c io0) = some r ∧ can .still c r withKeys) ∧ Cmd.keyOp c = 5 ∧
      (takenRow .still c (keyRow c 5 (keyStart c io0)) withKeys).keyReady c ∧ (keyTarget c).any withKeys.invalNow = false :=
  ⟨⟨_, rfl, by unfold can State.accepts; decide +kernel⟩, by decide,
    ready_of (by decide +kernel) (by decide +kernel) (by decide +kernel), by decide +kernel⟩
theorem test_meets_unwrap :
    let c := cmd0 0 0x90020000 [0x1000, 0x20001, 24]
    (∃ r, keyRow c 9 (keyStart c io0) = some r ∧ can .still c r withKeys) ∧ Cmd.keyOp c = 9 ∧
      (takenRow .still c (keyRow c 9 (keyStart c io0)) withKeys).keyReady c :=
  ⟨⟨_, rfl, by unfold can State.accepts; decide +kernel⟩, by decide,
    ready_of (by decide +kernel) (by decide +kernel) (by decide +kernel)⟩
/-- Both outcomes of an unwrapping happen: the wrapped key of RFC 3394, 4.1, and octets that no key gives. -/
theorem test_meets_unwrap_outcomes :
    let kek := List.range 16
    let w := [0x1F, 0xA6, 0x8B, 0x0A, 0x81, 0x12, 0xB4, 0x47, 0xAE, 0xF3, 0x4B, 0xD8, 0xFB, 0x5A, 0x7B, 0x82, 0x9D, 0x3E, 0x86,
      0x23, 0x71, 0xD2, 0xCF, 0xE5]
    (aesUnwrap kek w).isSome = true ∧ aesUnwrap kek (List.replicate 24 0) = none := by decide +kernel
theorem test_meets_set_attr :
    let c := cmd0 0 0xB0020000 [0, 0, 0]
    (∃ r, keyRow c 0xB (setAttrWork c) = some r ∧ can .still c r withKeys) ∧ Cmd.keyOp c = 0xB ∧
      (takenRow .still c (keyRow c 0xB (setAttrWork c)) withKeys).keyReady c :=
  ⟨⟨_, rfl, by unfold can State.accepts; decide +kernel⟩, by decide,
    ready_of (by decide +kernel) (by decide +kernel) (by decide +kernel)⟩
/-- A KEY_OP of operation `op` that gives octets to the host. -/
def giving (op : Nat) (n : Word) : Cmd := cmd0 0 (BitVec.ofNat 32 (op * 2 ^ 28 + 0x20000)) [0x1000, 0x2000, n]
theorem test_meets_key_data :
    (∀ x ∈ [(3, (16 : Word)), (4, 16), (6, 16)], ∀ r, keyRow (giving x.1 x.2) x.1 (keyStart (giving x.1 x.2) io3) = some r →
      can .still (giving x.1 x.2) r withKeys ∧ 0 < keyBlocks (giving x.1 x.2) ∧ 0 / 16 < ((giving x.1 x.2).op 2).toNat / 16) ∧
      ∀ x ∈ [(3, (16 : Word)), (4, 16), (6, 16)], (takenRow .still (giving x.1 x.2) (keyRow (giving x.1 x.2) x.1 (keyStart (giving x.1 x.2) io3)) withKeys).keyReady (giving x.1 x.2) := by
  constructor
  · intro x hx r h
    simp only [List.mem_cons, List.not_mem_nil, or_false] at hx
    rcases hx with rfl | rfl | rfl <;>
      (cases Option.some.inj h; refine ⟨by unfold can State.accepts; decide +kernel, by decide, by decide⟩)
  · intro x hx
    simp only [List.mem_cons, List.not_mem_nil, or_false] at hx
    rcases hx with rfl | rfl | rfl <;> exact ready_of (by decide +kernel) (by decide +kernel) (by decide +kernel)
theorem test_meets_verify_wrap :
    let d := cmd0 0 0x70020000 [0x1000, 0, 32]
    let c := cmd0 0 0x80020000 [0x20000, 0x2000, 24]
    (∃ r, keyRow d 7 (keyStart d io0) = some r ∧ can .still d r withKeys) ∧ (takenRow .still d (keyRow d 7 (keyStart d io0)) withKeys).keyReady d ∧
      (∃ r, keyRow c 8 (keyStart c io0) = some r ∧ can .still c r withKeys) ∧ Cmd.keyOp c = 8 ∧
      (takenRow .still c (keyRow c 8 (keyStart c io0)) withKeys).keyReady c ∧ 0 < keyBlocks c ∧ 0 < keyBlocks d :=
  ⟨⟨_, rfl, by unfold can State.accepts; decide +kernel⟩, ready_of (by decide +kernel) (by decide +kernel) (by decide +kernel),
    ⟨_, rfl, by unfold can State.accepts; decide +kernel⟩, by decide,
    ready_of (by decide +kernel) (by decide +kernel) (by decide +kernel), by decide, by decide⟩
theorem test_meets_set_tx :
    let c := cmd0 0 0xA0000000 [toWord ((waiting .still (cmd0 0 0 []) 0 withKeys).sfc 0 + 5), 0, 0]
    let a := takenRow .still c (keyRow c 0xA (setTxWork c)) withKeys
    (∃ r, keyRow c 0xA (setTxWork c) = some r ∧ can .still c r withKeys) ∧ a.keyReady c ∧ Cmd.keySlot c < keyGeneral ∧
      inRange 2 65536 (((c.op 0).toNat + 2 ^ 48 - a.sfc 0 % 2 ^ 48) % 2 ^ 48) = true ∧ a.atStart.txPending 0 = none :=
  ⟨⟨_, rfl, by unfold can State.accepts; decide +kernel⟩, ready_of (by decide +kernel) (by decide +kernel) (by decide +kernel),
    by decide +kernel, by decide +kernel, by decide +kernel⟩

/-! ### Scans, dumps, the system and the buffers -/

theorem test_meets_scan_snap_dump :
    let c := cmd0 1 0 [0x1000, 8]
    let d := cmd0 0 0x600 [0x1000]
    let e := cmd0 0 0 [0x1000, 0x400000, 10000]
    let f := cmd0 0 1 [0x1000, 0, 0]
    can .still c (crcScanRule c io0) State.reset ∧ (taken .still c (crcScanRule c io0) State.reset).crcBusy 0 = false ∧ c.flag0 = true ∧
      can .still d (ctrSnapRule d io0) State.reset ∧ can .still d (ctrSnapRule d io3) State.reset ∧
      can .still e (dumpCfgRule e) State.reset ∧ dumpKind e = 0 ∧ can .still f (dumpCfgRule f) State.reset ∧ dumpKind f = 1 := by
  unfold can State.accepts; decide +kernel
/-- Network time has been set, the member is master, and epoch 1 is open. -/
def withEpoch : State :=
  (((State.reset.setReg 0x80003 2).setReg (adOhm 0) 0x000C00000000).setReg (adOhm 0x10) 0x8000).setReg (adOhm 0x11) 0x10000
theorem test_meets_epoch :
    let c := cmd0 0 1 []
    can .still c (epochBeginRule c) State.reset ∧ can .still c (epochCommitRule c) withEpoch ∧
      (taken .still c (epochCommitRule c) withEpoch).stageHeld = false ∧ (taken .still c (epochCommitRule c) withEpoch).commitPending = false := by unfold can State.accepts; decide +kernel
theorem test_meets_retire :
    let c := cmd0 0 0x50000000 []
    let a := taken .still c (retireRule c) State.reset
    can .still c (retireRule c) State.reset ∧ a.isRetired 5 0 = false ∧ (a.retiredOf 5).length < resLimit 5 ∧ resClass c = 5 := by
  unfold can State.accepts; decide +kernel
theorem test_meets_restore :
    let c := cmd0 0 0x10000000 []
    let d := cmd0 0 0x20000000 []
    let e := cmd0 0 0x50000000 []
    let s := (State.reset.setTree 0 { Tree.fresh with retired := true }).setReg (adPort 0 1) 0x10000
    let u := { s with flt := { s.flt with pipes := smSet (fun _ => false) [] 0 true } }
    can .still c (restoreRule c) u ∧ (taken .still c (restoreRule c) u).isRetired 1 0 = true ∧ can .still d (restoreRule d) u ∧
      (taken .still d (restoreRule d) u).isRetired 2 0 = true ∧ can .still e (restoreRule e) u ∧ (taken .still e (restoreRule e) u).isRetired 5 0 = true := by
  unfold can State.accepts; decide +kernel
theorem test_meets_defaults :
    let c := cmd0 0 0x10000 []
    let a := taken .still c (defaultsRule c) State.reset
    can .still c (defaultsRule c) State.reset ∧ blockOf (c.arg 24 0) = some (0x11000, 8) ∧
      a.atStart.defaultsBusy (c.arg 24 0) = false ∧ a.spInReset = false ∧ flashing.defaultsBusy 0xC000 = true := by
  unfold can State.accepts; decide +kernel
theorem test_meets_time_set :
    let c := cmd0 0 0 [1, 0]
    let d := cmd0 1 0 [1, 0]
    can .still c (timeSetRule c) State.reset ∧ c.flag0 = false ∧ (taken .still c (timeSetRule c) State.reset).ppsWait = none ∧
      can .still d (timeSetRule d) State.reset ∧ d.flag0 = true := by
  unfold can State.accepts; decide +kernel
/-- A packet whose buffer the host holds, with its head in cell 0. -/
def heldPkt : Packet :=
  { grp := 0, octets := [], len := 64, ended := true, input := 31, output := 0, part := 0, cells := [0], arrived := 1, dests := [],
    refs := 1, held := true, bad := false, cut := false, dequeued := false, spread := false, hash := 0, de := false, src := 512,
    decided := 0, reason := 0, akind := 3, index := 0, spills := 0, punted := true, arr := 0, reqClass := 3,
    reqIndex := 0, trace := none, inject := none }
theorem test_meets_inject :
    let c := cmd0 0 0 [0x1000, 64, 0x400000000000]
    (∃ r, injectRow c io0 [] = some r ∧ can .flow c r State.reset) ∧ (∃ r, injectRow c io3 [] = some r ∧ can .flow c r State.reset) ∧
      dirFromPtr (c.op 2) = false ∧ dirClassify (c.op 2) = true :=
  ⟨⟨_, rfl, by unfold can State.accepts; decide +kernel⟩, ⟨_, rfl, by unfold can State.accepts; decide +kernel⟩,
    by decide, by decide⟩
theorem test_meets_return :
    let c := cmd0 0 0x10000000 [0]
    let s := { State.reset with cat := { State.reset.cat with pkts := [(3, some heldPkt)], next := 4 } }
    ∃ r, bufReturnRow c = some r ∧ can .flow c r s ∧ pointerBad (c.op 0) = false ∧ (takenRow .flow c (bufReturnRow c) s).heldAt (c.op 0) = some 3 :=
  ⟨_, rfl, by unfold can State.accepts; decide +kernel, by decide, by decide +kernel⟩

/-! ### Writes that are rows of their own -/

/-- A WRITE of one word by queue 0. -/
def write0 (addr : BitVec 25) (value : Word) : RegWrite :=
  { port := .queue 0, silent := false, irq := false, masked := false, addr := addr, mask := 0, value := value }
/-- The state in which the write waits, and its being accepted there. -/
def atWrite (m : Mode) (w : RegWrite) (s : State) : State := waiting m w.cmd 2 s
def canWrite (m : Mode) (w : RegWrite) (s : State) : Prop := (atWrite m w s).acceptsWrite w
/-- The row's condition on that state, as the dispatcher sees it. -/
def rowHolds (f : RegWrite → State → Bool) (m : Mode) (w : RegWrite) (s : State) : Bool :=
  f w ((atWrite m w s).reach (.queue 0))
theorem test_meets_global_writes :
    let w := write0 0x100 0x010000000001
    let v := write0 0x10 1
    rowHolds rowReqGo .still w State.reset = true ∧ canWrite .still w State.reset ∧
      rowHolds rowSoftReset .still v State.reset = true ∧ canWrite .still v State.reset := by
  unfold canWrite State.acceptsWrite State.accepts; decide +kernel
theorem test_meets_flash_writes :
    [(0, Instr.imgErase), (1, .imgProgram), (2, .imgCheck), (3, .setBoot), (4, .confirm), (5, .rollback), (6, .keyProgram)].all
      (fun x => rowHolds (rowImg x.1) .still (write0 0xC010 (0x800000000000 + toWord x.1)) State.reset) = true ∧
      canWrite .still (write0 0xC010 0x800000000006) State.reset := by
  unfold canWrite State.acceptsWrite State.accepts; decide +kernel
/-- Tree 0 is enabled in STANDARD on lane 0. -/
def tree0 : State := State.reset.setReg (adTree 0 0) 1
theorem test_meets_enable :
    let w := write0 0x100000 1
    let v := write0 0x100000 0
    rowHolds rowEnableSet .flow w State.reset = true ∧ canWrite .flow w State.reset ∧
      rowHolds rowEnableClear .flow v tree0 = true ∧ canWrite .flow v tree0 ∧ (taken .flow v.cmd (ruleOf v) tree0).treeUp 0 = true ∧
      State.reset.treeEnable 0 = false ∧ tree0.treeEnable 0 = true ∧ (tree0.tree 0).stopping = false := by
  unfold canWrite State.acceptsWrite State.accepts; decide +kernel
theorem test_meets_tree_writes :
    let w := write0 0x100000 0x800
    let v := write0 0x100010 0x80
    let u := write0 0x100002 5
    let x := write0 0x100020 7
    rowHolds rowLineMode .still w State.reset = true ∧ canWrite .still w State.reset ∧
      rowHolds rowTxdisForce .still v State.reset = true ∧ canWrite .still v State.reset ∧
      rowHolds rowTrePonid .still u State.reset = true ∧ canWrite .still u State.reset ∧
      rowHolds rowFphase .still x State.reset = true ∧ canWrite .still x State.reset := by
  unfold canWrite State.acceptsWrite State.accepts; decide +kernel
theorem test_meets_unit_writes :
    let w := write0 0x70100 0x800000000000
    let v := write0 0x40020 0x400000001000
    let u := write0 0x40000 0x800000000000
    let x := write0 0x40011 9
    let y := write0 0x20100 1
    rowHolds rowRekey .still w State.reset = true ∧ canWrite .still w (State.reset.setReg (adXts 0 0) 0x200000000000) ∧
      rowHolds rowBandwidthReset .still v State.reset = true ∧ canWrite .still v State.reset ∧
      rowHolds rowMonRun .still u State.reset = true ∧ canWrite .still u State.reset ∧
      rowHolds rowTagSeed .still x State.reset = true ∧ canWrite .still x State.reset ∧
      rowHolds rowAlarmLevelClear .still y State.reset = true ∧ canWrite .still y State.reset := by
  unfold canWrite State.acceptsWrite State.accepts; decide +kernel
theorem test_meets_ring_writes :
    let w := write0 0x20000 0x1000
    let v := write0 0x90018 1
    let u := write0 0x90010 0x10000
    let x := write0 0x90100 0x2000000
    rowHolds rowRingReset .still w State.reset = true ∧ canWrite .still w State.reset ∧
      rowHolds rowRecompute .still v State.reset = true ∧ canWrite .still v State.reset ∧
      rowHolds rowCommitted .still u State.reset = true ∧ canWrite .still u (State.reset.setReg (adOhm 8) 0x800000000000) ∧
      rowHolds rowRingSwitch .still x State.reset = true ∧ canWrite .still x State.reset ∧
      ((atWrite .still x State.reset).stored x).standby 0 = (taken .still x.cmd (ruleOf x) State.reset).standby 0 := by
  unfold canWrite State.acceptsWrite State.accepts; decide +kernel
/-- The admin list of MAC 0 has one entry, which the other bank holds. -/
def withGates : State :=
  (((State.reset.setReg (adGate 0 1) 0x400).setReg (adGate 0 4) 1000000).setReg (0x1200800 + 1024) 1000000).setReg (0x1200800) 1000000
theorem test_meets_gate_change :
    let w := write0 0x1200001 0x800000000400
    rowHolds rowGateChange .still w withGates = true ∧ canWrite .still w withGates := by
  unfold canWrite State.acceptsWrite State.accepts; decide +kernel

/-! ### Host pages, the mailbox, pins and faults -/

/-- STILL, one second on, with queue 1 idle on a ring of 256 words and 16 records. -/
def still : State :=
  begun ((({ State.reset with mode := .still, now := 10 ^ 9 }.setReg (adQueue 1 9) 1).setReg (adQueue 1 1) 8).setReg (adQueue 1 3) 4)
theorem test_meets_queue_page :
    still.board.inReset = false ∧ still.board.perst = false ∧ still.mode ≠ .dry ∧ still.pageOpen 0 1 = true ∧
      still.doorbellOk 1 5 = true ∧ still.ringFree 2 = true := by decide +kernel
theorem test_meets_fetch :
    let s := still.ringDoorbell 1 5
    (s.queue 1).fetchAt ≤ s.now ∧ s.fetches 1 = true := by decide +kernel
theorem test_meets_discards :
    still.hostWord 0 0x20005 = false ∧ still.pageOpen 3 1 = false ∧ still.doorbellOk 1 5000 = false ∧
      still.ringFree 1 = false ∧ (0x11001 : Nat) ≠ 0x11000 := by decide +kernel
theorem test_meets_transfer_failures :
    let e : Exec :=
      { header := 0, seq := 0, progress := 0, wait := .work 0 (.give 0 [] 0 3 3), since := 10 ^ 9 }
    let l : LastCpl := { header := 0, before := 0, seq := 1, status := 0, progress := 0, result := 0 }
    let x : RingRec := { w0 := 0, rest := [], tail := [] }
    let f := still.ringDoorbell 1 5
    f.fetches 1 = true ∧ f.fetchable 1 ≠ 0 ∧ (f.queue 1).fetchAt ≤ f.now ∧
      ((still.setQueue 1 { CmdQueue.fresh with lastCpl := some l }).queue 1).lastCpl = some l ∧
      ((still.setExec 1 e).queue 1).exec = some e ∧ (Work.give 0 [] 0 3 3).transfers = true ∧
      ((still.setRing 0 { still.ring 0 with last := some x }).ring 0).last = some x ∧ 
      { still.mon.dump with run := some (1, 10 ^ 9, 1) }.run ≠ none ∧
      still.running = true ∧ still.board.perst = false ∧ still.queueBudget 1 = true ∧
      (still.setQueue 1 { CmdQueue.fresh with retries := List.replicate 70 (10 ^ 9) }).queueBudget 1 = false ∧
      still.ringBudget ringDump = true := by decide +kernel
/-- The service processor has a request of code `c`. -/
def asked (c : Nat) (s : State) : State :=
  { s with sp := { s.sp with req := some { code := c, tag := 0, args := [0, 0, 0, 0, 0, 0, 0] } } }
theorem test_meets_mailbox :
    let s := { (asked 4 still).setRf 0x220 44 44 1 with
      flt := { still.flt with dump := { still.flt.dump with area := some (0, 0x1000000) } } }
    s.board.inReset = false ∧ s.spInReset = false ∧ s.sp.held = false ∧ s.sp.req.isSome = true ∧ s.rb 0x220 44 = true ∧
      s.flt.dump.area = some (0, 0x1000000) ∧ (asked 4 still).rb 0x220 44 = false ∧ fld (0 : Word) 7 0 < 20 ∧
      ({ still with flt := { still.flt with log := [⟨0, false, 0, 0⟩] } }).flt.log.drop 0 ≠ [] := by decide +kernel
theorem test_meets_pins :
    let low := { still with board := { still.board with resetLow := true } }
    still.board.inReset = false ∧ still.board.perst = false ∧ still.running = true ∧ still.board.resetLow = false ∧
      low.board.resetLow = true ∧ low.board.railsLow = [] ∧ still.board.thermtrip = false ∧ still.tap.ir = 1 ∧
      (List.replicate 32 true).length = 32 := by decide +kernel
theorem test_meets_sensors :
    inRange (still.railRange 0).1 (still.railRange 0).2 ((still.railRange 0).1 + 1) = true ∧
      inRange (still.railRange 0).1 (still.railRange 0).2 0 = false ∧
      smGet (fun _ => false) { still with board := { still.board with railOut := [(0, true)] } }.board.railOut 0 = true ∧
      125000 ≤ (125000 : BitVec 24).toInt ∧ (3 : BitVec 5).toNat < 20 := by decide +kernel
theorem test_meets_faults :
    let s := { (still.setRf 0x220 47 45 1) with mode := .dry }
    3 ≤ (5 : BitVec 8).toNat ∧ s.rf 0x220 47 45 = 1 ∧ s.mode = .dry ∧ s.board.inReset = false ∧ s.flt.dump.area = none ∧
      { s.flt.dump with area := some (0, 0x1000000) }.area = some (0, 0x1000000) ∧ s.flt.dump.toFlash = false ∧
      3 ≤ ([10 ^ 9, 10 ^ 9, 10 ^ 9].filter (fun n => Nat.blt s.now (n + 60000000000))).length := by decide +kernel
/-- FLOW, with tree 0 in service on lane 0. -/
def flow : State := begun { still.setReg (adTree 0 0) 1 with mode := .flow }
theorem test_meets_losses :
    flow.running = true ∧ flow.mode ≠ .spring ∧ flow.treeUp 0 = true ∧ flow.laneUp 0 0 = true ∧
      (flow.setReg (adPort 0 0) 8).rb (adPort 0 0) 3 = true ∧ (flow.setReg (adPort 0 0) 8).rb (adPort 0 1) 16 = false := by
  decide +kernel
/-- A command that waits on queue 0, admitted in the present tick. -/
def waitsFor (w : Wait) (s : State) : State :=
  s.setExec 0 { header := 0, seq := 0, progress := 0, wait := w, since := 10 ^ 9 }
theorem test_meets_retries :
    let s := waitsFor (.pcMove 2) still
    let u := waitsFor (.pcRebuild 2 7) still
    let v := { waitsFor (.rowCopy 9) still with flt := { still.flt with copying := [(9, false)] } }
    let h := still.setHist 5 3 { still.hist 5 3 with busy := true, starts := [0] }
    resOk 0 5 = true ∧ (s.movingExec 2).isSome = true ∧ u.rebuildExec 2 = some (0, 7) ∧ 7 + 65536 ≤ u.now ∧
      v.flt.copying.find? (fun x => x.1 == 9) = some (9, false) ∧ (h.hist 5 3).busy = true ∧
      (h.hist 5 3).starts.headD 0 + 1000 ≤ h.now ∧
      ({ v with flt := { v.flt with copying := [] } }.findExec (fun w => w == Wait.rowCopy 9)).isSome = true := by decide +kernel

/-! ### Modes, frames and runs -/

theorem test_meets_mode_changes :
    let s := { still with mode := .drain, drain := some { since := 10 ^ 9 - 5, done := none } }
    let t := { still with mode := .drain, drain := some { since := 10 ^ 9, done := some (10 ^ 9) } }
    let l := { still.setRf 0x22 31 16 1 with mode := .drain, drain := some { since := 0, done := none } }
    State.reset.running = true ∧ State.reset.mode = .spring ∧ s.drainReady = true ∧ l.limitTick = some 1000000 ∧
      1000000 ≤ l.now ∧ t.drain = some { since := 10 ^ 9, done := some (10 ^ 9) } ∧ allTrees.any t.treeUp = false := by decide +kernel
/-- Tree 0 stops, at a boundary of the present tick. -/
def stopping : State := flow.setTree 0 { Tree.fresh with stopping := true, sending := true, since := some 0 }
theorem test_meets_boundaries :
    let s := { stopping with nt := 0 }
    stopping.running = true ∧ stopping.mode ≠ .spring ∧ stopping.treeUp 0 = true ∧ (stopping.tree 0).stopping = true ∧
      (stopping.tree 0).since = some 0 ∧ stopping.laneUp 0 0 = true ∧ (stopping.tree 0).sending = true ∧
      (s.toBoundary 0).running = true ∧
      ((stopping.setLane 0 0 { Lane.fresh with returnAt := some 7 }).lane 0 0).returnAt = some 7 ∧
      (waitsFor (.setTx 0 0 5) still).nextTx.isSome = true := by decide +kernel

/-! ### Runs, bursts and packets -/

/-- A run of tree 0 at word 0 of bank 0, which holds `w`, begun in the present tick less its steps. -/
def running (w : Word) (steps : Nat) : State × Run :=
  let s := flow.setReg (adBank 0 0 0) w
  let l : RunLane := { cur := 0, items := [], resv := [], last := none }
  let r : Run :=
    { bound := 10 ^ 9 - steps, sfc := 0, snap := ⟨s.regs, [], [], [], .flow, 1, 0, 0⟩, bank := 0, pc := 0, steps := steps, lane := 0,
      l0 := l, l1 := l, loops := [(1, 0, 0)], prog := 0, lastL := 0, tagNext := none }
  (s.setTree 0 { Tree.fresh with run := some r }, r)
/-- The run is at an instruction of the opcode in the tick of its next step. -/
def isAt (op : Nat) : Bool :=
  let y := running (toWord (op * 2 ^ 42)) 0
  let x := if op = 0x25 then y.1.waitUntil (y.1.alignLast 0) else y.1.atStep 0 op
  (x.tree 0).run == some y.2 && x.running && hdrOpcode (x.raw (adBank 0 y.2.bank y.2.pc)) == op &&
    Nat.blt y.2.steps ((y.2.view x).rf (adTree 0 0x1000) 14 0)
theorem test_meets_run_steps :
    [0x20, 0x2A, 0x2B, 0x2F, 0x2E, 0x21, 0x22, 0x23, 0x24, 0x25, 0x2D, 0x26, 0x27, 0x28, 0x2C, 0x29, 0x30].all isAt = true := by
  decide +kernel
theorem test_meets_run_end :
    let x := running 0 20000
    let s := { flow with nt := 0 }
    (x.2.view x.1).rf (adTree 0 0x1000) 14 0 ≤ x.2.steps ∧ (flow.setTree 0 { Tree.fresh with revert := true }).running = true ∧
      (s.toBoundary 0).running = true ∧ (waitsFor (.sluiceSwap 0) flow).swapDue 0 = true := by decide +kernel
/-- FLOW, with tree 0 in service on both lanes in TORRENT, its bursts of rate 0 with a delimiter of 32 symbols 0, and ONU 0. -/
def torrent : State :=
  begun { (((still.setReg (adTree 0 0) 0x201).setReg (adOnu 0 0) 0x80000C000000).setReg (adBrx 0 0 0x11) 0x020240000000) with
    mode := .flow }
/-- A grant of ONU 0, or a window, and what lane 0 expects of it alone, a tenth of a second ago; a state that does. -/
def grant0 (kind : Nat) : Item :=
  { start := 100, size := 150, kind := kind, alloc := 3, allocId := 3, onu := 0, rate := 0, ovh := 20, first := 100, dbru := true,
    ploamu := true, fwi := false, sn := kind == 1, rssi := false, trace := none }
def burst0 (kind state : Nat) : Expect :=
  { base := 31104 * 9 * 10 ^ 8, sfc := 0, items := [grant0 kind], prevEnd := 0, state := state, rejected := 0,
    prm := 0x0000_0808_0808, lossN := 15, delim := none, fins := [], delta := 0, next := 0, placed := 9 * 10 ^ 8 }
def expecting (e : Expect) : State :=
  torrent.setTree 0 { Tree.fresh with lane0 := { Lane.fresh with expects := [e] } }
/-- A candidate at a position with a header of VERSION 1, of ONU-ID `n`. -/
def header0 (n first len : Nat) : BitVec 64 × BitVec 64 := (hecWord (n * 2 ^ 54 + 2 ^ 49 + first * 2 ^ 32), hecWord (len * 2 ^ 47))
def candidate0 (p n : Nat) : Candidate :=
  { pos := p, symbols := List.replicate 32 0, h1 := (header0 n 100 150).1, h2 := (header0 n 100 150).2 }
/-- What it reads as. -/
def read0 (n first len : Nat) : BurstHdr := { onuId := n, lane := 0, version := 1, first := first, len := len, dg := false }
theorem test_meets_header (s : State) (h : s.torrent 0 = true) :
    ∀ x ∈ [(0, 100, 150), (9, 100, 150), (0, 120, 16)], s.readHdr 0 (header0 x.1 x.2.1 x.2.2).1 (header0 x.1 x.2.1 x.2.2).2 = some (read0 x.1 x.2.1 x.2.2) := by
  intro x hx
  simp only [List.mem_cons, List.not_mem_nil, or_false] at hx
  rcases hx with rfl | rfl | rfl <;> simp only [State.readHdr, h, header0, read0, hecFix_hecWord, if_true] <;>
    rw [getLsbD_hecWord (by decide) (by decide)] <;>
    simp only [bitsOf_hecWord, Nat.reducePow, Nat.reduceMul, Nat.reduceAdd, Nat.reduceLT, Nat.reduceLeDiff] <;> decide
theorem test_meets_bursts :
    let e := burst0 0 0
    let q := burst0 1 0
    let s := expecting e
    let p := ((s.window 0 0 e).1 + 1000).toNat
    let u := expecting q
    let z := (u.window 0 0 q).1.toNat
    s.candidateFor 0 0 (candidate0 p 0) = some e ∧ s.headerTick 0 0 e.rate p ≤ s.now ∧ e.kind = 0 ∧
      s.hdrOk 0 0 e (read0 0 100 150) = true ∧ s.hdrOk 0 0 e (read0 9 100 150) = false ∧ u.candidateFor 0 0 (candidate0 z 0) = some q ∧ q.kind = 1 ∧
      s.unanswered 0 0 = some e ∧ s.closeTick 0 0 e ≤ s.now ∧
      s.running = true ∧ (s.setLoss 0 0 (2 ^ 17)).lossCount 0 0 = 2 ^ 17 := by decide +kernel
/-- A response that fits its ranging window, and one that begins too late to do so. -/
theorem test_meets_windows_of_ranging :
    let e := burst0 2 0
    let s := expecting e
    let p := ((s.window 0 0 e).1).toNat
    let q := ((s.window 0 0 e).2).toNat - 1
    s.candidateFor 0 0 (candidate0 p 0) = some e ∧ s.hdrOk 0 0 e (read0 0 120 16) = true ∧ s.fitsWindow 0 0 e p = true ∧
      s.candidateFor 0 0 (candidate0 q 0) = some e ∧ s.fitsWindow 0 0 e q = false := by decide +kernel
/-- A burst under way whose PBRST has an edge before it ends. -/
theorem test_meets_pulses :
    let s := (expecting (burst0 0 0)).setReg (adTree 0 0x10) 0x60
    (s.firstEdge 0 0).any (fun x => Nat.ble (x.2 + s.pinLag 0 0) s.now && s.pinLevel 0 0 x.1 x.2 != ((s.lane 0 0).pin x.1).high) =
      true := by decide +kernel
theorem test_meets_fifo_loss :
    let e := { burst0 0 1 with base := 31104 * 10 ^ 9 - 5000000 }
    (expecting e).receiving 0 0 = some e := by decide +kernel
/-- Reports, messages and frames that wait on lane 0. -/
def report0 : ReportIn := { alloc := 3, occ := 7, out := 0, trace := none }
def ploam0 (kind : Nat) : PloamIn := { kind := kind, onu := 0, at_ := 0, rate := 0, delta := 0, msg := [] }
def xgem0 : XgemIn :=
  { onu := 0, start := 100, sfc := 0, rate := 0, port := 1, keyIndex := 0, options := 0, lf := true, pli := 1, pos := 0, payload := [1],
    last := 9, ready := 0, key := none, trace := none }
def received : State :=
  torrent.setLane 0 0
    { Lane.fresh with reports := [report0], ploamIn := [ploam0 0, ploam0 1, ploam0 2], released := [xgem0], expects := [burst0 2 1] }
theorem test_meets_accepted_bursts :
    let s := expecting (burst0 0 1)
    (s.nextOut 0 0).any (fun x => decide (x.tick ≤ s.now)) = true ∧
      (s.elements 0 (burst0 0 1)).any (fun x => x.what == 2) = true ∧
      (received.lane 0 0).reports = [report0] ∧ stampTick report0.out ≤ received.now ∧
      ((received.takePloam 0 0 (fun x => x.kind == 0)).any (fun x => x.2.onuUsed x.1.onu)) = true ∧ ploamTick 0 0 ≤ received.now ∧
      (received.lane 0 0).released = [xgem0] ∧ xgem0.ready = 0 := by decide +kernel
/-- A frame without DBRU of an entry not in use gives no message. -/
theorem test_meets_unused_entry : flow.onuUsed 0 = false := by decide +kernel
theorem test_meets_responses :
    let r := burst0 2 0
    let s := expecting r
    (received.takePloam 0 0 (fun x => x.kind == 1)).isSome = true ∧ (received.takeRanging 0 0 (burst0 2 1)).isSome = true ∧
      received.rangeOpen 0 0 = some (burst0 2 1) ∧ s.rangeOpen 0 0 = some r ∧ r.state ≠ 1 ∧
      s.rangeEnd 0 0 r ≤ s.now ∧ s.rangeFresh r = true ∧ flow.rangeFresh r = false := by decide +kernel
/-- A braided frame, and an SDU that is open. -/
def frame0 : DskFrame :=
  { bseq := 0, expires := 10 ^ 9, enterBy := 10 ^ 9, lane := 0, onu := 0, lf := true, len := 1, octets := [1], burst := none }
theorem test_meets_deskew :
    let d : Sdu := { lane := 0, port := 0, braided := false, onu := 0, arr := 0, at_ := 10 ^ 9 - 250000 }
    let s := flow.setTree 0 { Tree.fresh with sdus := [d], lane0 := { Lane.fresh with toDeskew := [(1, false, frame0)] } }
    let u := flow.setTree 0 { Tree.fresh with dsk := [(1, { (flow.dskSeq 0 1) with held := [frame0] })] }
    s.oldestSdu 0 = some d ∧ d.at_ + 250000 ≤ s.now ∧ (s.tree 0).sdus.contains d = true ∧
      (s.lane 0 0).toDeskew = [(1, false, frame0)] ∧ u.firstExpiry 0 = some (10 ^ 9) := by decide +kernel
/-- A complete packet for a destination, and a state that holds it. -/
def pkt0 (d : Dest) (bad : Bool) : Packet :=
  { grp := 0, octets := [], len := 64, ended := true, input := 0, output := 0, part := 0, cells := [0], arrived := 1, dests := [d],
    refs := 1, held := false, bad := bad, cut := true, dequeued := false, spread := false, hash := 0, de := false, src := 0,
    decided := 0, reason := 0, akind := 0, index := 0, spills := 0, punted := true, arr := 0, reqClass := 3,
    reqIndex := 0, trace := none, inject := none }
def holding (p : Packet) : State := { flow with cat := { flow.cat with pkts := [(3, some p)], next := 4 } }
/-- The head of a frame from source 0, all of it present and parsed. -/
def arrival0 : Arrival :=
  { id := 0, src := 0, octets := List.replicate 64 0, len := 64, ended := true, bad := false, xgem := 0, onu := 0, reqClass := 0,
    reqIndex := 0, slow := false, burst := none, ready := some 5 }
/-- MAC 0 is enabled, with link, on port 0. -/
def port0 : State := begun (((flow.setReg (adPort 0 0) 8).setReg (adPort 0 1) 0x0101).setReg (adMac 0) 0x20001)
theorem test_meets_packets :
    let f : Flood :=
      { arr := arrival0, base := 0, len := 6, ingress := none, cls := 0, de := false, hash := 0, copy := false, trace := none,
        next := 0, got := [] }
    let z := { flow with cls := { flow.cls with floods := [f] } }
    let s := { flow with cls := { flow.cls with
      arrivals := [arrival0],
      oxbow := [{ arr := arrival0, copy := false, oxop := 1, entered := 0, at_ := 10 ^ 9 - 20, trace := none }],
      floods := [{ arr := arrival0, base := 0, len := 1, ingress := none, cls := 0, de := false, hash := 0, copy := false,
                   trace := none, next := 1, got := [.mac 0 2] }] } }
    port0.uplReceives 0 = true ∧ port0.rxTick 0 64 0 ≤ port0.now ∧ s.traffic = true ∧ s.pipeUp 0 = true ∧ s.headAt = some s.now ∧
      s.nextArrival s.now = some arrival0 ∧ s.nextOx.isSome = true ∧
      s.floodWalked.isSome = true ∧ z.floodWalked = none ∧ 2 ∈ z.floodsRead.map (fun f => ceilDiv (f.len - f.next) 3) ∧
      (z.waitUntil (z.now + 2)).traffic = true ∧ (z.waitUntil (z.now + 2)).floodWalked.isSome = true ∧
      (holding (pkt0 .punt false)).pkt 3 = some (pkt0 .punt false) := by decide +kernel
theorem test_meets_cells :
    let c : FCell := ⟨0, 0, 0, 0, 0, true, 0, 0⟩
    let s := { flow with cfl := { flow.cfl with lastSlot := some (10 ^ 9 - 1), reseq := [(0, [(c, 10 ^ 9 - 128)])] } }
    let r := { flow with cat := { flow.cat with rebuild := smSet (fun _ => none) [] 3 (some 7) } }
    smGet (fun _ => none) r.cat.rebuild 3 = some 7 ∧ 7 + 6144 ≤ r.now ∧ port0.atStart.macUp 0 = true ∧
      port0.atStart.macOhmad 0 = false ∧ flow.atStart.macUp 0 = false ∧
      s.traffic = true ∧ s.cfl.lastSlot = some (10 ^ 9 - 1) ∧ flow.cfl.lastSlot = none ∧ s.heldLongest 0 = some (c, 10 ^ 9 - 128) ∧
      10 ^ 9 - 128 + 128 ≤ s.now ∧ (pkt0 (.queue 5 7) false).nextQueue = some (5, 7) ∧
      (pkt0 (.mac 0 2) false).nextMac = some (0, 2) ∧
      port0.atStart.egCells 2 < port0.atStart.rf (adEgQueue 0 2 0) 19 0 ∧
      (begun (port0.setReg (adEgQueue 0 2 0) 0)).atStart.rf (adEgQueue 0 2 0) 19 0 ≤
        (begun (port0.setReg (adEgQueue 0 2 0) 0)).atStart.egCells 2 := by decide +kernel
theorem test_meets_queues :
    let g : Page :=
      { queue := 0, tenant := 0, epoch := false, fillctr := 0, fill := pageData, pkts := [], segs := [], written := false, back := false, bad := false, kept := [] }
    let s := (flow.setPage 9 (some g)).setDq 0 { entries := [], spilled := true, openPage := some 9, lastAdd := 0 }
    let b := (flow.setPage 9 (some { g with written := true })).setDq 0
      { entries := [⟨0, 0, 64, 0, [9]⟩], spilled := true, openPage := none, lastAdd := 0 }
    let u := flow.setTree 0 { Tree.fresh with sending := true, lane0 := { Lane.fresh with frame := some ⟨0, 0, false, []⟩ } }
    s.page 9 = some g ∧ g.written = false ∧ g.fill = pageData ∧ s.pagePresent g = true ∧ s.cat.stamped = [] ∧ s.flushable 0 = some (9, g) ∧
      s.pageFlushTick 0 ≤ s.now ∧ (b.dq 0).entries.flatMap (·.pages) = [9] ∧ (b.page 9).any (fun g => g.written && !g.back) = true ∧
      u.laneAsks 0 0 = true ∧ u.laneTick 0 0 ≤ u.now ∧ u.otherFirst 0 0 = false ∧
      (u.putBucket 7 1 (some { val := -5, at_ := 0, slot := some 12, coarse := none })).bucket? 7 1 = some { val := -5, at_ := 0, slot := some 12, coarse := none } := by
  decide +kernel
theorem test_meets_egress :
    let l : GateList := { bank := 0, idx := 0, len := 1, cycle := 1000000, ext := 0, base := 0 }
    let s := ((port0.setReg (adGate 0 1) 0x400000000400).setReg 0x1200400 0x3E8).setGates 0 { oper := some l, pending := some 0, asked := 0 }
    port0.macUp 0 = true ∧ (smGet (fun _ => []) port0.dsq.lastStart 0) = [] ∧ (s.gates 0).pending = some 0 ∧
      ceilDiv (smGet (fun _ => 0) port0.dsq.lineFree 0) 100 ≤ port0.now ∧ s.tickOfNt 0 ≤ s.now ∧
      (s.gatesAt 0 s.gateNow).2.2.isSome = true ∧ (s.gatesAt 0 s.gateNow).2.1.isSome = true ∧
      (holding (pkt0 .punt false)).puntDue = some (3, pkt0 .punt false) ∧
      (holding (pkt0 .punt true)).puntDue = some (3, pkt0 .punt true) ∧ flow.bucket? ndPunt 0 = none := by decide +kernel

/-! ### Tables, keys and time -/

/-- The learn engine works on a MAC that is new. -/
def learning (p : InsPhase) : State :=
  { flow with tbl := { flow.tbl with going := some (⟨0, 1, 0, false⟩, { Insertion.fresh 1 mac1 with phase := p }) } }
theorem test_meets_table_engines :
    let s := begun { (withMac.setReg 0x1800000 0x10001) with mode := .flow }
    let u := { flow with tbl := { flow.tbl with learn := [⟨0, 1, 0, false⟩] } }
    let b := { withMac with tbl := { withMac.tbl with bad := [(kdKey 1 slot1, 1)], scrub := [(1, [slot1])] } }
    let v := flushing flow
    let m := { withMac with tbl := { withMac.tbl with cmdSlots := [], going := some (⟨0, 1, 0, false⟩, Insertion.fresh 1 mac1) } }
    let w : State := { m with tbl := { m.tbl with cmdSlots := [slot1] } }
    let k := (s.ageGap).getD 0
    let x := s.ageWait (ceilDiv (s.ageSkip k).tbl.ageAt (2 ^ 22) - s.now)
    let q : State := { b with tbl := { b.tbl with scrubs := [(1, slot1)] } }
    let z : State := { b with now := b.patrolTick 1 slot1, mode := .still }
    (m.findMac 0 1).isSome = true ∧ m.flushing 0 = false ∧ (Insertion.fresh 1 mac1).phase = .read ∧
      m.copyTouched (entryKey 1 mac1) = false ∧ w.copyTouched (entryKey 1 mac1) = true ∧
      x.running = true ∧ x.aging = true ∧ x.ageGap = some k ∧ (x.ageSkip k).tbl.ageAt ≤ x.now * 2 ^ 22 ∧
      (q.patrolDues.all (fun y => y.1 != q.now)) = true ∧ q.slotBad 1 slot1 = true ∧
      z.patrolDues.filter (fun y => y.1 == z.now) = [(z.now, 1, slot1)] ∧ z.slotBad 1 slot1 = true ∧
      u.traffic = true ∧ u.tbl.learn ≠ [] ∧ u.tbl.going = none ∧ (learning (.search [] 4)).tbl.going.isSome = true ∧
      flow.flushing 0 = false ∧ v.flushing 0 = true ∧ flow.findMac 0 1 = none ∧ s.aging = true ∧ s.ageStep ≠ 0 ∧
      s.ageGap.isSome = true ∧ (withMac.slotEntry 1 slot1).isSome = true ∧ macStatic mac1 = false ∧
      bitOf (nth mac1 2 0) 45 = false ∧ fld (nth mac1 2 0) 44 43 < 3 ∧
      smGet (fun _ => []) b.tbl.scrub 1 = [slot1] ∧ (b.unqueueScrub 1 slot1).slotBad 1 slot1 = true ∧ still.slotBad 1 0 = false := by
  decide +kernel
theorem test_meets_releases :
    let s := still.setReg 0x1400408 0x20000
    let u := still.setWalk 0 (some (walk1 0))
    s.retiring = true ∧ s.retireTick = some 6 ∧ s.retireNow = true ∧ (u.walk 0).isSome = true ∧ u.walkBusy 0 = false ∧
      (locked 3 still).key.lock = some (3, 2 * 10 ^ 9) ∧ (locked 3 still).keyOpRuns 3 = false ∧
      { locked 3 still with now := 2 * 10 ^ 9 }.keyOpRuns 3 = false ∧ still.xtsReady 1 = false ∧
      still.raw (adXts 1 (2 + (1 - still.xtsEpoch 1))) = 0 := by
  decide +kernel
theorem test_meets_pps :
    let s := begun { waitsFor (.pps 5 1 0) still with now := 5 + 2 * 10 ^ 9 }
    still.running = true ∧ still.ppsAt = none ∧ still.ppsWait = none ∧ s.ppsWait = some (0, 5, ntOf 1 0) ∧ s.running = true ∧
      (still.setReg 0x80010 0x800000000000).rb 0x80010 47 = true := by decide +kernel

/-! ### Counters, records, the ring and the flash -/

theorem test_meets_windows :
    let s := still.setReg 0x40020 0x800000001000
    let d : State := { still with mon := { still.mon with dump := { still.mon.dump with area := 0, size := 2 ^ 32, period := 10000 } } }
    let u : State := { still with mon := { still.mon with dump := { still.mon.dump with
      run := some (1, 10 ^ 9, 1), done := dumpBody 1, holdTill := 0 } } }
    s.rb 0x40020 47 = true ∧ s.mon.bwFrom + 4096 ≤ s.now ∧ d.dumpDue = some (10 ^ 7) ∧ 10 ^ 7 ≤ d.now ∧ d.mon.dump.run = none ∧
      u.mon.dump.run = some (1, 10 ^ 9, 1) ∧ u.mon.dump.done = dumpBody 1 ∧
      max u.now u.mon.dump.holdTill + ceilDiv (dumpBody 1 - u.mon.dump.done) 8 ≤ u.now := by decide +kernel
/-- The event ring has room, and one record waits. -/
def recorded : State := begun (((still.setReg 0x20000 0x1000).setReg 0x20001 10).notice 0x340 0 0)
theorem test_meets_records :
    let t (e : Option (Bool × Bool × Bool)) : TraceSlot := { kind := 0, src := 0, len := 0, base := 0, stages := [], dest := 0, ended := e }
    let s : State := { still with mon := { still.mon with traces := [(0, some (t none)), (1, some (t (some (false, false, false))))] } }
    s.traceSlot 0 = some (t none) ∧ 0 + 10 ^ 9 ≤ s.now ∧ s.traceSlot 1 = some (t (some (false, false, false))) ∧
      recorded.writerOpen = true ∧ (recorded.waitUntil recorded.writerTick).writerOpen = true ∧
      { still.evt with gapped := true }.gapped = true ∧ still.evt.staged.length < 8 * still.rf 0x20008 6 0 ∧
      { still.evt with oldest := some 5 }.oldest = some 5 ∧ 5 + still.rf 0x20005 31 0 * 1000 ≤ still.now := by decide +kernel
/-- The master of a ring whose port 0 has link, and a member that hears it. -/
def ring0 (ctrl : Word) : State :=
  begun (((still.setReg (adOhm 0) ctrl).setReg (adPort 0 0) 0x88).setReg (adPort 0 1) 0x100 |>.setReg (adMac 0) 1)
def ringMaster : State := ring0 0x000C00000000
def ringMember : State := ring0 0x000400000000
theorem test_meets_tokens :
    let o (left : List Nat) : TokenOut := { seq := 1, at_ := 0, rtt := 0, left := left, turned := true, commit := false, ack := 0, nack := 0, late := false }
    let s (left : List Nat) : State := { ringMaster with ohm := { ringMaster.ohm with out := [o left] } }
    ringMaster.ohmRuns = true ∧ ringMaster.ohmMaster = true ∧ (ringMaster.ohm.sentAt.map (· + ringMaster.ohmPeriod)).getD 0 = 0 ∧
      ringMember.ohmHears 0 = true ∧ ohmKind [0x100000000000] ≠ 1 ∧ ringMember.firstCommit [0x100000000000] = false ∧
      (s []).ohm.out.find? (fun t => t.left.isEmpty) = some (o []) ∧
      (s [0]).ohm.out.find? (fun t => !t.left.isEmpty && !t.late) = some (o [0]) ∧ 0 + (s [0]).rttLimit ≤ (s [0]).now ∧
      (s [0]).ohm.out.contains (o [0]) = true ∧ ringMember.listens = true ∧ ringMember.lostTick ≤ ringMember.now := by decide +kernel
theorem test_meets_ring_commits :
    let s : State := { ringMember with ohm := { ringMember.ohm with commit := some 0, digRun := some 1, digAt := 7 } }
    s.ohmRuns = true ∧ s.tickOfNt 0 ≤ s.now ∧ s.ohm.commit = some 0 ∧ s.ohm.digAt ≤ s.now ∧ s.ohm.digRun = some 1 ∧
      s.running = true := by decide +kernel
theorem test_meets_mirrors :
    let a := ringMember.setReg (adOhm 0x100) 0xC00000000000
    let b := (ringMember.setReg (adOhm 0x100) 0x800004000000)
    let x : State := { b with ohm := { b.ohm with silent := [(0, 6)], asked := [(0, 6)] } }
    a.mirrors 0 = true ∧ smGet (fun _ => 0) a.ohm.sfcSent 0 = 0 ∧ smGet (fun _ => 0) a.ohm.refreshed 0 = 0 ∧
      ohmKind [0x110000000000] = 1 ∧ ringMember.ohmForeign [0x110000000000] = false ∧ mirKind [0x110000000000] = .plain ∧
      x.awaitsSfc 0 = true ∧ smGet (fun _ => 0) x.ohm.silent 0 = 6 ∧ 5 + x.rf (adOhm 3) 31 16 * 10 ^ 6 ≤ x.now ∧
      5 + 2 * x.rttLimit ≤ x.now ∧ smGet (fun _ => 0) x.ohm.asked 0 = 6 := by decide +kernel
theorem test_meets_flash :
    (flashing.img.op.isSome = true) ∧ flashing.running = true ∧ flashing.erasedRun 0x200000 256 = 256 := by decide +kernel
theorem test_meets_command_words :
    (cmd0 0 7 []).wf = true ∧ (cmd0 0 7 []).port = (cmd0 0 7 []).port := by decide
theorem test_meets_fuses :
    State.reset.keyWaits ∧ step State.reset = .next State.reset.endTick := by
  have h : State.reset.img.op = none := rfl
  exact ⟨fun o x => (by rw [h] at x; cases x), rfl⟩

end Sys2Proof.Tests
end

/-! The statements of the architecture chapter (spec/01_architecture.md): how command rows are taken, checked and worked
off, what a WRITE leaves, and how fatal causes, losses and packets take effect. -/

namespace Sys2Proof.Machine

/-! ### Rows of the dispatcher -/

/-- Every command row is its command, taken where it is of the row's kind: each arm of `exec` for a row that `hostRow` names
is that row's call. -/
theorem exec_hostRow {i : Instr} {x : Cmd × (State → Option CmdRule)} (h : hostRow i = some x) (s : State) :
    exec i s = .next (s.row x.1 x.2) := by
  revert x
  cases i <;> rintro _ ⟨⟩ <;> rfl

/-- A command row, where the rule holds that the dispatcher sees, is the command of that rule. -/
theorem exec_command {i : Instr} {s : State} {c : Cmd} {f : State → Option CmdRule} {r : CmdRule}
    (h : hostRow i = some (c, f)) (hf : f (s.reach c.port) = some r) : exec i s = .next (s.command c r) := by
  rw [exec_hostRow h, row_some hf]

/-- Settles O3: the row is its command, and a command that cannot be taken changes nothing. -/
theorem commandsWaitUntilEligible : Obligations.CommandsWaitUntilEligible := by
  intro i s c f r h hf he
  rw [exec_command h hf, command_waits he]

/-! ### The order of the checks (R33) -/

/-- A command that is taken in a tick with no fatal cause is judged on the state in which it is taken, and its tick ends. -/
theorem command_judges {s : State} {c : Cmd} {r : CmdRule} (he : (s.reach c.port).eligible c r.opcode = true)
    (hn : ((s.reach c.port).readied c r).fatalNow = false) :
    s.command c r = s.closes c r ((s.taken c r).judge c r ((s.taken c r).seqOf c.port)) := by
  simp [State.command, he, State.admitTick, State.closes, State.takeCommand, State.taken, hn]

section Judge

variable {a : State} {c : Cmd} {r : CmdRule} {n : Nat}

theorem judge_malformed {x : Nat × Word} (hf : r.form = some x) :
    a.judge c r n = a.violate c.port (c.header r.opcode) n 1 x.1 x.2 0 := by
  simp [State.judge, hf]

/-- The permission mask of the service processor's port (R37). -/
theorem judge_masked (hf : r.form = none) (hp : c.port = .sp) (hs : r.spMay = false) :
    a.judge c r n = a.violate c.port (c.header r.opcode) n 2 0x0D 0 0 := by
  simp [State.judge, hf, hp, hs]

variable (hf : r.form = none) (hs : c.port = .sp → r.spMay = true)
include hf hs

theorem judge_foreign {x : Nat × Word × Word} (hp : r.priv a.atStart (a.atStart.privOf c.port) = some x) :
    a.judge c r n = a.violate c.port (c.header r.opcode) n 2 x.1 x.2.1 x.2.2 := by
  have hm : (c.port == .sp && !r.spMay) = false := by simpa using hs
  simp [State.judge, hf, hm, hp]

variable (hp : r.priv a.atStart (a.atStart.privOf c.port) = none)
include hp

theorem judge_rejectState (hm : a.atStart.modeOk c r = false) :
    a.judge c r n = ((a.monEv 1 c.port.num 2 (if c.port = .sp then 0 else 1)).bump 0x11001 1).finish c.port
      (c.header r.opcode) n stRejectState 0 0 := by
  have hx : (c.port == .sp && !r.spMay) = false := by simpa using hs
  simp [State.judge, hf, hx, hp, hm]

theorem judge_rejectArg (hm : a.atStart.modeOk c r = true) (ha : r.args a.atStart (a.atStart.privOf c.port) = false) :
    a.judge c r n = a.finish c.port (c.header r.opcode) n stRejectArg 0 0 := by
  have hx : (c.port == .sp && !r.spMay) = false := by simpa using hs
  simp [State.judge, hf, hx, hp, hm, ha]

theorem judge_runs (hm : a.atStart.modeOk c r = true) (ha : r.args a.atStart (a.atStart.privOf c.port) = true) :
    a.judge c r n = a.settle c.port (c.header r.opcode) n (r.run a (a.atStart.privOf c.port) n) := by
  have hx : (c.port == .sp && !r.spMay) = false := by simpa using hs
  simp [State.judge, hf, hx, hp, hm, ha]

end Judge

/-- Settles O4: the row is judged, and each check that fails has its outcome. -/
theorem checksDecideInOrder : Obligations.ChecksDecideInOrder := by
  intro i s c f r h hrow he hn a p
  rw [exec_command h hrow, command_judges he hn]
  refine ⟨fun x hf => ?malformed, fun hf hp hs => ?masked, fun hf hs =>
    ⟨fun x hp => ?foreign, fun hp hm => ?mode, fun hp hm ha => ?args, fun hp hm ha => ?runs⟩⟩
  case malformed => rw [judge_malformed hf]; rfl
  case masked => rw [judge_masked hf hp hs]; rfl
  case foreign => rw [judge_foreign hf hs hp]; rfl
  case mode => rw [judge_rejectState hf hs hp hm]; rfl
  case args => rw [judge_rejectArg hf hs hp hm ha]; rfl
  case runs => rw [judge_runs hf hs hp hm ha]

/-! ### Work over many ticks (R34, R97) -/

/-- One command that works alone, in a tick in which nothing is claimed, does its tick's work. -/
theorem jobs_single {s : State} {q : Nat} (hr : s.running = true) (hc : s.claims = []) (hq : s.jobQueues = [q]) :
    s.jobs = s.jobTick q := by
  simp [State.jobs, hr, hq, keepClaims_none hc]

/-- The tick's work of a command in execution that works. -/
theorem jobTick_work {s : State} {q hold : Nat} {e : Exec} {w : Work} (he : (s.queue q).exec = some e)
    (hw : e.wait = .work hold w) :
    s.jobTick q = s.resettle q e (s.workTick (s.privOf (portOf q)) w e.progress) := by
  simp [State.jobTick, he, hw]

/-- The end of a running tick: the work, what ends the tick, the clock, and what falls due in the next. -/
theorem endTick_running {s : State} (hr : s.running = true) :
    s.endTick =
      ((s.jobs.tickEnds.dumpReads (s.jobs.tickEnds.quiet 1)).advance (s.jobs.tickEnds.quiet 1)).tickBegins := by
  simp [State.endTick, State.runTicks, hr]

/-- Settles O7: the work of the tick is that of the one command, carried into the state by its outcome. -/
theorem commandsWorkInTheirTicks : Obligations.CommandsWorkInTheirTicks := by
  intro s q e hold w hr hc hq he hw r
  have hj : s.jobs = s.resettle q e r := (jobs_single hr hc hq).trans (jobTick_work he hw)
  refine ⟨fun st pr re t h => ?_, fun pr w' t h => ?_, fun n x y t h => ?_, endTick_running hr⟩
  · rw [hj, h]; rfl
  · rw [hj, h]; rfl
  · rw [hj, h]; rfl

/-! ### WRITE and MASK_WRITE (R93, R95, R476) -/

/-- Where nothing is claimed every word of a write takes effect. -/
theorem writeKept_unclaimed {a : State} (ws : List WordWrite) (h : a.claims = []) : a.writeKept ws = ws := by
  simp [State.writeKept, State.claimsWord, h]

theorem writeRegs_unclaimed {a : State} (ws : List WordWrite) (h : a.claims = []) :
    a.writeRegs ws = ws.foldl (fun y w => y.wordHook a w) (ws.foldl State.storeWord a) := by
  rw [State.writeRegs, writeKept_unclaimed ws h]

/-- A claimed word is not written. -/
theorem writeRegs_claimed {a : State} {w : WordWrite} (h : a.claimsWord w.addr = true) : a.writeRegs [w] = a := by
  simp [State.writeRegs, State.writeKept, h]

/-- The RESULT of a WRITE or MASK_WRITE: the masked word as it stood at the start of the tick. -/
def writeResult (a : State) (c : Cmd) (masked : Bool) : Nat :=
  if masked then (a.atStart.view (c.arg 24 0)).toNat else 0

/-- What a write whose word no error strikes comes to. -/
theorem writeRule_run {a : State} {c : Cmd} {masked : Bool} (p : Priv) (n : Nat)
    (h : masked = true → a.struck (.reg (c.arg 24 0)) = false) :
    (writeRule c masked).run a p n = a.writeRun p (writeWords c masked) (writeResult a c masked) := by
  have hm : (masked && a.struck (.reg (c.arg 24 0))) = false := by simpa using h
  simp only [writeRule, hm, Bool.false_eq_true, if_false, writeResult]

theorem writeRun_free {a : State} {p : Priv} {ws : List WordWrite} (n : Nat)
    (h : (a.writeHeld p ws || a.atStart.writeBusy ws) = false) :
    a.writeRun p ws n = .fin stDone ws.length n (a.writeRegs ws) := by
  simp [State.writeRun, h, Ran.done]

theorem writeRun_held {a : State} {p : Priv} {ws : List WordWrite} (n : Nat)
    (h : (a.writeHeld p ws || a.atStart.writeBusy ws) = true) : a.writeRun p ws n = .fin stRejectBusy 0 0 a := by
  simp [State.writeRun, h]

/-- The rows WRITE and MASK_WRITE. -/
theorem exec_write (s : State) (c : Cmd) (masked : Bool) :
    exec (if masked then .maskWrite c else .write c) s = .next (s.command c (writeRule c masked)) := by
  cases masked <;> rfl

/-- Settles O9: an accepted write runs on the state in which it is taken, and its words are free or held. -/
theorem writesStoreTheirWords : Obligations.WritesStoreTheirWords := by
  intro s c masked hacc a ws held result i hstruck
  have hrun : (writeRule c masked).run a (a.atStart.privOf c.port) (a.seqOf c.port) =
      a.writeRun (a.atStart.privOf c.port) ws result := writeRule_run _ _ hstruck
  have hexec : exec i s = .next (s.command c (writeRule c masked)) := exec_write s c masked
  refine ⟨fun h => ?free, fun h => ?held, writeRegs_unclaimed ws, fun w hw hc => ?claimed⟩
  case free => rw [hexec, command_ends hacc rfl (hrun.trans (writeRun_free result h))]
  case held => rw [hexec, command_ends hacc rfl (hrun.trans (writeRun_held result h))]
  case claimed => rw [hw, writeRegs_claimed hc]

/-! ### Fatal causes and the watchdog (R26, R39, R40, R548, R551) -/

theorem exec_fatalError {s : State} {c : BitVec 8} (x : BitVec 16) (d : BitVec 24) (h3 : 3 ≤ c.toNat) (h9 : c.toNat ≤ 9) :
    exec (.fatalError c x d) s = .next (s.fatal c.toNat x.toNat d.toNat) := by
  have h : inRange 3 9 c.toNat = true := by simp [inRange, h3, h9]
  simp [exec, execFatalError, h]

section FatalDump

variable {s : State} (hv : s.rf 0x220 47 45 = 1) (hm : s.mode = .dry) (hb : s.board.inReset = false)
include hv hm hb

theorem exec_fatalDump_host {x : Nat × Nat} (f : Bool) (ha : s.flt.dump.area = some x)
    (hf : s.flt.dump.toFlash = false) (hp : s.board.perst = false) :
    exec (.fatalDumpComplete false f) s =
      .next { s.dumpToHost x.1 with free := (s.dumpToHost x.1).free + 8192 } := by
  simp [exec, execFatalDumpComplete, hv, hm, hb, ha, hf, hp]

/-- A write into the host area that fails starts again into flash. -/
theorem exec_fatalDump_hostFails {x : Nat × Nat} (f : Bool) (ha : s.flt.dump.area = some x) :
    exec (.fatalDumpComplete true f) s = .next { s.dumpToFlash f with free := (s.dumpToFlash f).free + 8192 } := by
  simp [exec, execFatalDumpComplete, hv, hm, hb, ha]

theorem exec_fatalDump_flash (h f : Bool) (ha : s.flt.dump.area = none) :
    exec (.fatalDumpComplete h f) s = .next { s.dumpToFlash f with free := (s.dumpToFlash f).free + 8192 } := by
  simp [exec, execFatalDumpComplete, hv, hm, hb, ha]

end FatalDump

/-- Settles O34: each row is its cause, its dump or its stop of the service processor. -/
theorem fatalCausesAndWatchdog : Obligations.FatalCausesAndWatchdog := by
  refine ⟨⟨fun s c x d => exec_fatalError x d, fun _ => rfl, fun _ => rfl, fun s hv hm hb =>
    ⟨fun x ha hf hp f => exec_fatalDump_host hv hm hb f ha hf hp, fun x ha f => exec_fatalDump_hostFails hv hm hb f ha,
      fun ha h f => exec_fatalDump_flash hv hm hb h f ha⟩⟩, fun s hb hh => ?watchdog, fun s hb hh hn => ?held⟩
  case watchdog => simp [exec, execWatchdogExpiry, hb, hh]
  case held => simp [exec, execSpHeld, hb, hh, hn]

/-! ### Losses (R25, R528) -/

section HandshakeLoss

variable {s : State} (hr : s.running = true) (hm : s.mode ≠ .spring)
include hr hm

theorem exec_handshakeLoss_tree {t : BitVec 7} (h : s.treeUp t.toNat = true) :
    exec (.handshakeLoss (.tree t)) s =
      .next ((s.treeLoss t.toNat (fun u => { u with handshake := true })).transient 1 t.toNat) := by
  simp [exec, execHandshakeLoss, hr, hm, h]

theorem exec_handshakeLoss_laneRx {t : BitVec 7} {l : Bool} (h : s.laneUp t.toNat (b2n l) = true) :
    exec (.handshakeLoss (.laneRx t l)) s =
      .next (s.laneLoss t.toNat (b2n l) (fun v => { v with handshake := true })) := by
  simp [exec, execHandshakeLoss, hr, hm, h]

theorem exec_handshakeLoss_port {p : BitVec 5} (hu : s.rb (adPort p.toNat 0) 3 = true)
    (hd : s.rb (adPort p.toNat 1) 16 = false) :
    exec (.handshakeLoss (.port p)) s = .next (s.portHandshake p.toNat true) := by
  simp [exec, execHandshakeLoss, hr, hm, hu, hd]

theorem exec_handshakeLoss_hbm (k : BitVec 3) : exec (.handshakeLoss (.hbm k)) s = .next (s.hbmLoss k.toNat true) := by
  simp [exec, execHandshakeLoss, hr, hm]

end HandshakeLoss

/-- Settles O35: a loss is recorded at its resource, and a lost handshake counts as one of an island in service. -/
theorem lossesReachTheirResource : Obligations.LossesReachTheirResource := by
  refine ⟨fun s t l b h hs => ?lane, fun s m b hs => ⟨?line, ?port⟩, fun s t b hs => ?tree, fun s k b hs => ?hbm,
    fun s hr hm => ⟨fun t => exec_handshakeLoss_tree hr hm, fun t l => exec_handshakeLoss_laneRx hr hm,
      fun p => exec_handshakeLoss_port hr hm, exec_handshakeLoss_hbm hr hm⟩⟩
  case lane => simp [exec, execLaneLoss, hs]
  case line => simp [exec, execPortLoss, hs]
  case port => simp [exec, execPortLoss, hs]
  case tree => simp [exec, execTreeLoss, hs]
  case hbm => simp [exec, execHbmLoss, hs]

/-! ### Packets (R191, R342, R343, R358, R401, R403) -/

/-- The least member of a list is what the fold of `min` from its head gives. -/
theorem foldl_min_eq {l : List Nat} {n : Nat} (h : n ∈ l) (hle : ∀ k ∈ l, n ≤ k) : l.foldl min (l.headD 0) = n := by
  cases l with
  | nil => cases h
  | cons x l =>
    have hmin : (x :: l).min? = some n := List.min?_eq_some_iff.mpr ⟨h, hle⟩
    rw [List.min?_cons', Option.some.injEq] at hmin
    simpa using hmin

/-- Octets leave the MAC in their tick where it still receives. -/
theorem exec_uplinkFrameReceived {s u : State} {m : BitVec 8} {f : UplFrame} (hs : s.uplReceives m.toNat = true)
    (hu : s.waitUntil (s.rxTick m.toNat
      ((((s.rxOf m.toNat).map (·.octets)).getD []).length + f.octets.length) f.sfd) = u)
    (hr : u.uplReceives m.toNat = true) :
    exec (.uplinkFrameReceived m f) s = .next (u.rxFrame m.toNat f).finishGoing := by
  simp [exec, execUplinkFrameReceived, hs, hu, hr]

section Decisions

variable {s u : State} {p : BitVec 5} (hs : s.traffic = true) (hp : s.pipeUp p.toNat = true)
  (ht : u.traffic = true) (hq : u.pipeUp p.toNat = true)
include hs hp ht hq

/-- The head that the distributor admits in the tick of the row is decided. -/
theorem exec_pipeDecision {n : Nat} {a : Arrival} (k fx : Nat) (hn : s.headAt = some n) (hu : s.waitUntil n = u)
    (ha : u.nextArrival u.now = some a) :
    exec (.pipeDecision p { pick := k, fixed := fx }) s =
      .next ((u.oxDue.firstPass p.toNat a k).wordsFixed fx) := by
  simp [exec, execPipeDecision, hs, hp, hn, hu, ht, hq, ha]

/-- The packet that is first to re-enter in the tick of the row is decided a second time. -/
theorem exec_oxbowReentry {o o' : OxPacket} (k fx : Nat) (ho : s.nextOx = some o) (hu : s.waitUntil (o.at_ + 20) = u)
    (ho' : u.nextOx = some o') :
    exec (.oxbowReentry p { pick := k, fixed := fx }) s = .next ((u.secondPass p.toNat o' k).wordsFixed fx) := by
  simp [exec, execOxbowReentry, hs, hp, ho, hu, ht, hq, ho']

end Decisions

theorem exec_packetBad {s : State} {k : Nat} {p : Packet} (cut : Bool) (hs : s.running = true) (hp : s.pkt k = some p) :
    exec (.packetBad k cut) s = .next (s.makeBad p.grp cut).finishGoing := by
  simp [exec, execPacketBad, hs, hp]

/-- A flood whose list has been walked is replicated at once. -/
theorem exec_replication_walked {s : State} {f : Flood} (picks : List Nat) (ht : s.traffic = true)
    (hf : s.floodWalked = some f) : exec (.replication picks) s = .next (s.replicate f picks) := by
  have hne : s.cls.floods ≠ [] := fun h => by simp [State.floodWalked, h] at hf
  obtain ⟨x, xs, hx⟩ := List.exists_cons_of_ne_nil hne
  simp [exec, execReplication, ht, hf, hx]

/-- Else the row waits for the list that is read through first. -/
theorem exec_replication_waits {s : State} {n : Nat} {f : Flood} {l : List Nat} (picks : List Nat) (ht : s.traffic = true)
    (hx : s.cls.floods ≠ []) (hw : s.floodWalked = none)
    (hl : s.floodsRead.map (fun f => ceilDiv (f.len - f.next) 3) = l) (hn : n ∈ l) (hle : ∀ k ∈ l, n ≤ k)
    (hu : (s.waitUntil (s.now + n)).traffic = true) (hf : (s.waitUntil (s.now + n)).floodWalked = some f) :
    exec (.replication picks) s = .next ((s.waitUntil (s.now + n)).replicate f picks) := by
  obtain ⟨x, xs, hx⟩ := List.exists_cons_of_ne_nil hx
  simp only [exec, execReplication, ht, hw, hl, foldl_min_eq hn hle, hx, hu, hf, if_true, List.head?_cons,
    Option.isSome_none, Bool.false_eq_true, if_false]

/-- Settles O46: each row waits for its tick and then acts. -/
theorem packetsAreReceivedAndDecided : Obligations.PacketsAreReceivedAndDecided := by
  refine ⟨fun s m f hs => ?received, fun s p k fx n a hs hp hn => ?decided, fun s p k fx o o' hs hp ho => ?reentered,
    fun s picks f => exec_replication_walked picks,
    fun s picks n f ht hx hw hn hle => exec_replication_waits picks ht hx hw rfl hn hle,
    fun s k cut p => exec_packetBad cut⟩
  case received => exact exec_uplinkFrameReceived hs rfl
  case decided => exact fun ht hq => exec_pipeDecision hs hp ht hq k fx hn rfl
  case reentered => exact fun ht hq => exec_oxbowReentry hs hp ht hq k fx ho rfl

end Sys2Proof.Machine

/-! The statements of the chapter of words and addresses (spec/02_words_addresses.md): what a stored word keeps, what stands at
reset, the ONU operations, the one-word writes of the global block, the host's accesses and the mailbox. -/

namespace Sys2Proof.Machine

/-! ### A stored word (R51, R52, R231, R476) -/

/-- A bit of a merge is that of the value where the mask reaches it, else that of the word. -/
theorem getLsbD_merge (w m v : Word) {i : Nat} (hi : i < 48) :
    (merge w m v).getLsbD i = if m.getLsbD i then v.getLsbD i else w.getLsbD i := by
  cases h : m.getLsbD i <;> simp only [merge, BitVec.getLsbD_or, BitVec.getLsbD_and, BitVec.getLsbD_not, hi, h] <;> simp

/-- What a command write leaves in each bit of its word: a bit that writes can set takes the value where the mask reaches it and
else stands as at the start of the tick (R231, R476), and every other bit stands as it is, or clears where it is W1C and
written as 1. -/
theorem getLsbD_storeWord (s : State) (w : WordWrite) {i : Nat} (ha : isAlarmWord w.addr = false) (hi : i < 48) :
    ((s.storeWord w).raw w.addr).getLsbD i =
      ((if (regSetMask w.addr).getLsbD i then
          if w.mask.getLsbD i then w.value.getLsbD i else (s.atStart.raw w.addr).getLsbD i
        else (s.raw w.addr).getLsbD i) &&
        !((regClearMask w.addr).getLsbD i && w.mask.getLsbD i && w.value.getLsbD i)) := by
  simp only [State.storeWord, State.writeBase, ha, raw_setReg_same, BitVec.getLsbD_and, BitVec.getLsbD_not, getLsbD_merge _ _ _ hi,
    hi, Bool.false_eq_true, if_false]
  cases hs : (regSetMask w.addr).getLsbD i <;> simp

/-- In the first tick, the credit counter 0 of tree 0 (word 0x1100 of its window) after a CREDIT step of this tick that left 1
in it. -/
def credited : State := State.reset.setReg (adTree 0 0x1100) 1

/-- Refutes O10: a MASK_WRITE whose mask reaches no bit of a credit counter that a CREDIT step has changed in the same tick
stores the counter as at the start of the tick, so bit 0, which is 1, becomes 0 (R231). -/
theorem not_storedWordKeepsUnwrittenBits : ¬ Obligations.StoredWordKeepsUnwrittenBits := by
  intro h
  let w : WordWrite := { addr := adTree 0 0x1100, mask := 0, value := 0 }
  have hkept : ((credited.storeWord w).raw w.addr).getLsbD 0 = (credited.raw w.addr).getLsbD 0 := by
    obtain ⟨-, hbits, -⟩ := h credited w (by decide)
    simpa [w] using hbits 0 (by decide)
  have hstart : ((credited.storeWord w).raw w.addr).getLsbD 0 = (credited.atStart.raw w.addr).getLsbD 0 := by
    have hset : (regSetMask w.addr).getLsbD 0 = true := by decide
    simpa [w, hset] using getLsbD_storeWord credited w (i := 0) (by decide) (by decide)
  have h1 : (credited.raw w.addr).getLsbD 0 = true := by simp [credited, w]
  have h0 : (credited.atStart.raw w.addr).getLsbD 0 = false := by decide
  rw [hkept, h1, h0] at hstart
  cases hstart

/-! ### The state at reset (R53, R127) -/

/-- CMD_QSTATE of every queue is idle by its factory default. -/
theorem qstate_factory : ∀ q, q < 64 → fld (regFactory (adQueue q 9)) 2 0 = 0 := by decide +kernel

/-- Settles O2: the words are the factory defaults, and the units are those of `Device.reset`. -/
theorem resetLeavesFactoryDefaults : Obligations.ResetLeavesFactoryDefaults :=
  ⟨rfl, rfl, rfl, fun _ => rfl, fun q hq => ⟨qstate_factory q hq, rfl⟩, fun _ => rfl, rfl, rfl, fun _ => rfl, rfl, rfl⟩

/-! ### ONU_OP (R61, R251 to R256) -/

/-- The row of operation `op` has the rule of ONU_OP with its own work. -/
theorem onuRow_rule {c : Cmd} {op : Nat} {argOk : State → Bool} {work : State → Ran} {r : CmdRule}
    (hr : onuRow c op argOk work = some r) (ho : onuOp c = op) : r = onuRule c argOk work := by
  simpa [onuRow, ho] using hr.symm

/-- On a tree that is not a standby one, and but for ADMIT on an entry in use, the operation does its work. -/
theorem onuRule_run {a : State} {c : Cmd} (argOk : State → Bool) (work : State → Ran) (p : Priv) (n : Nat)
    (hs : a.atStart.standby (onuArg c / 512) = false) (hu : onuOp c = 0 ∨ a.atStart.onuUsed (onuArg c) = true) :
    (onuRule c argOk work).run a p n = work a := by
  rcases hu with hu | hu <;> simp [onuRule, hs, hu]

/-- An accepted operation, whose work is done in full, ends in its admission tick. -/
theorem exec_onuRow {i : Instr} {s x : State} {c : Cmd} {op pr re : Nat} {argOk : State → Bool} {work : State → Ran}
    {r : CmdRule} (hi : hostRow i = some (c, fun _ => onuRow c op argOk work)) (hr : onuRow c op argOk work = some r)
    (ha : s.accepts c r) (ho : onuOp c = op) (hs : (s.taken c r).atStart.standby (onuArg c / 512) = false)
    (hu : onuOp c = 0 ∨ (s.taken c r).atStart.onuUsed (onuArg c) = true) (hw : work (s.taken c r) = .done x pr re) :
    exec i s = .next (s.ends c r stDone pr re x) := by
  obtain rfl := onuRow_rule hr ho
  rw [exec_command hi hr, command_ends ha rfl ((onuRule_run argOk work _ _ hs hu).trans hw)]

/-- The word that UPDATE leaves (R252). -/
def updatedWord (a : State) (c : Cmd) : Word :=
  merge (a.raw (adOnu (onuArg c) (fld (c.op 0) 2 0))) (c.op 1) (c.op 2)

theorem updateWork_done {a : State} {c : Cmd} (h : fld (c.op 0) 2 0 = 0 → onuWord0Ok (updatedWord a c) = true) :
    a.updateWork c = .done ((a.setReg (adOnu (onuArg c) (fld (c.op 0) 2 0)) (updatedWord a c)).settleDeficits (onuArg c / 512)) 1
      (a.raw (adOnu (onuArg c) (fld (c.op 0) 2 0))).toNat := by
  have hok : (fld (c.op 0) 2 0 = 0 && !onuWord0Ok (updatedWord a c)) = false := by simpa using h
  simp only [updatedWord] at hok ⊢
  simp only [State.updateWork, hok, Bool.false_eq_true, if_false]

theorem bindWork_done {a : State} {c : Cmd} (h : a.rf (adOnu (onuArg c) 2) 31 20 ≠ 4095) :
    a.bindWork c = .done (a.bindAlloc (onuArg c) (bindHandle c) (fld (c.op 0) 31 18)) 1 0 := by
  simp [State.bindWork, h]

theorem unbindWork_done {a : State} {c : Cmd} {n : Nat} (h : a.alloc (bindHandle c) = some (onuArg c, n)) :
    a.unbindWork c = .done (a.unbindAlloc (onuArg c) (bindHandle c)) 1 0 := by
  simp [State.unbindWork, h]

/-- Settles O16: each operation is its row, and its work is done in full. -/
theorem onuOperationsComplete : Obligations.OnuOperationsComplete := by
  refine ⟨fun s c r hr ha ho hs => ?entry, fun s c r hr ha ho hs => ?update, fun s c r hr ha ho hs hu => ?remove,
    fun s c r hr ha ho hs hu => ?owner, fun s c r hr ha ho hs => ?bind, fun s c r n hr ha ho hs => ?unbind,
    fun s c r hr ha ho hs hu => ?eqd⟩
  case entry => exact exec_onuRow rfl hr ha ho hs (.inl ho) rfl
  case update => exact fun hu hok => exec_onuRow rfl hr ha ho hs (.inr hu) (updateWork_done hok)
  case remove => exact exec_onuRow rfl hr ha ho hs (.inr hu) rfl
  case owner => exact exec_onuRow rfl hr ha ho hs (.inr hu) rfl
  case bind => exact fun hu hn => exec_onuRow rfl hr ha ho hs (.inr hu) (bindWork_done hn)
  case unbind => exact fun hu hn => exec_onuRow rfl hr ha ho hs (.inr hu) (unbindWork_done hn)
  case eqd => exact exec_onuRow rfl hr ha ho hs (.inr hu) rfl

/-! ### One-word writes that are rows of their own (R41, R93, R95) -/

theorem regWrite_port (w : RegWrite) : w.cmd.port = w.port := rfl

/-- The address of such a write, as its command gives it. -/
theorem regWrite_addr (w : RegWrite) : w.cmd.arg 24 0 = w.addr.toNat := by
  have := w.addr.isLt
  simp only [Cmd.arg, RegWrite.cmd, bitsOf, BitVec.toNat_ofNat]
  omega

/-- The one word of such a write. -/
theorem writeWords_regWrite (w : RegWrite) : writeWords w.cmd w.masked = [w.word] := by
  cases hm : w.masked <;> simp [writeWords, regWrite_addr, RegWrite.word, hm] <;> simp [RegWrite.cmd, Cmd.op, hm, nth]

/-- No error has struck a word that nothing claims. -/
theorem struck_unclaimed {a : State} {n : Nat} (h : a.claimsWord n = false) : a.struck (.reg n) = false := by
  simp only [State.claimsWord, List.any_eq_false, beq_iff_eq] at h
  simp only [State.struck, List.contains_eq_mem, decide_eq_false_iff_not]
  exact fun hm => h _ hm rfl

/-- A word that nothing claims is stored, and brings what its write brings beside. -/
theorem writeRegs_single {a : State} {w : WordWrite} (h : a.claimsWord w.addr = false) :
    a.writeRegs [w] = (a.storeWord w).wordHook a w := by
  simp [State.writeRegs, State.writeKept, h]

/-- An accepted write whose row holds ends with DONE: its word is stored, with what the write of that word brings. -/
theorem exec_ownRow {i : Instr} {s : State} {w : RegWrite} {isRow : State → Bool}
    (hi : hostRow i = some (w.cmd, ownRow w isRow)) (hrow : isRow (s.reach w.cmd.port) = true) (ha : s.acceptsWrite w) :
    exec i s = .next (s.writeEnds w ((s.stored w).wordHook (s.taken w.cmd (ruleOf w)) w.word)) := by
  obtain ⟨hacc, hheld, hbusy, hclaim⟩ := ha
  generalize hu : s.taken w.cmd (ruleOf w) = a at hheld hbusy hclaim
  have hrule : ownRow w isRow (s.reach w.cmd.port) = some (ruleOf w) := by simp [ownRow, hrow, ruleOf]
  have hstruck : w.masked = true → a.struck (.reg (w.cmd.arg 24 0)) = false :=
    fun _ => struck_unclaimed (regWrite_addr w ▸ hclaim)
  have hrun : (ruleOf w).run a (a.atStart.privOf w.cmd.port) (a.seqOf w.cmd.port) =
      .fin stDone 1 (writeResult a w.cmd w.masked) ((a.storeWord w.word).wordHook a w.word) := by
    have hfree : (a.writeHeld (a.atStart.privOf w.cmd.port) [w.word] || a.atStart.writeBusy [w.word]) = false := by
      rw [regWrite_port, hheld, hbusy, Bool.or_false]
    rw [ruleOf, writeRule_run _ _ hstruck, writeWords_regWrite, writeRun_free _ hfree, writeRegs_single hclaim]
    rfl
  rw [exec_command hi hrule, command_ends hacc hu hrun, State.writeEnds, State.stored, hu, writeResult, regWrite_addr]

/-! ### The writes of the global and of the image block (R55, R571, R582) -/

theorem rowReqGo_iff {w : RegWrite} {s : State} : rowReqGo w s = true ↔
    w.addr.toNat = 0x100 ∧ bitOf w.word.trig 0 = true := by
  simp [rowReqGo]

theorem wordHook_reqGo {x was : State} {w : WordWrite} (ha : w.addr = 0x100) (ht : bitOf w.trig 0 = true) :
    x.wordHook was w = x.requestGo := by
  simp [State.wordHook, State.hookGlb, ha, ht]

theorem rowSoftReset_iff {w : RegWrite} {s : State} : rowSoftReset w s = true ↔
    w.addr.toNat = 0x10 ∧ bitOf w.word.trig 0 = true := by
  simp [rowSoftReset]

theorem wordHook_softReset {x was : State} {w : WordWrite} (ha : w.addr = 0x10) (ht : bitOf w.trig 0 = true) :
    x.wordHook was w = x.softAsked := by
  simp [State.wordHook, State.hookGlb, ha, ht]

theorem rowImg_iff {op : Nat} {w : RegWrite} {s : State} : rowImg op w s = true ↔
    w.addr.toNat = 0xC010 ∧ bitOf w.word.trig 47 = true ∧ (s.storeWord w.word).rf 0xC010 3 0 = op := by
  simp [rowImg, and_assoc]

theorem wordHook_img {x was : State} {w : WordWrite} (ha : w.addr = 0xC010) (ht : bitOf w.trig 47 = true) :
    x.wordHook was w = x.startImg := by
  simp [State.wordHook, State.hookGlb, ha, ht]

/-- The request that stands in the mailbox words. -/
def mboxRequest (s : State) : MboxReq :=
  { code := s.rf 0x100 47 40, tag := s.rf 0x100 39 32, args := (List.range 7).map (fun i => s.raw (0x101 + i)) }

/-- That request passes to the service processor: the monitor event of the passing leaves it. -/
theorem requestGo_req (s : State) : s.requestGo.sp.req = some (mboxRequest s) := by
  obtain ⟨⟨r, m, h⟩, -⟩ := monEv_only { s with sp := { s.sp with req := some (mboxRequest s) } } 0 0 1 1 (by decide)
  exact congrArg (fun t : State => t.sp.req) h

/-- Every write of IMG_OP with GO starts its operation. -/
theorem exec_imgRow {i : Instr} {s : State} {w : RegWrite} {op : Nat}
    (hi : hostRow i = some (w.cmd, ownRow w (rowImg op w))) (hrow : rowImg op w (s.reach w.cmd.port) = true) (ha : s.acceptsWrite w) :
    exec i s = .next (s.writeEnds w (s.stored w).startImg) := by
  obtain ⟨haddr, htrig, -⟩ := rowImg_iff.mp hrow
  rw [exec_ownRow hi hrow ha, wordHook_img haddr htrig]

/-- Settles O24: each row stores its word, whose write brings the request, the reset or the operation. -/
theorem globalWritesTakeEffect : Obligations.GlobalWritesTakeEffect := by
  refine ⟨fun s w hrow ha => ⟨?go, requestGo_req _⟩, fun s w hrow ha => ?soft, fun op f hop s w hrow ha => ?img⟩
  case go =>
    obtain ⟨haddr, htrig⟩ := rowReqGo_iff.mp hrow
    rw [exec_ownRow (i := .reqGo w) rfl hrow ha, wordHook_reqGo haddr htrig]
  case soft =>
    obtain ⟨haddr, htrig⟩ := rowSoftReset_iff.mp hrow
    rw [exec_ownRow (i := .softReset w) rfl hrow ha, wordHook_softReset haddr htrig]
    rfl
  case img =>
    have hi : hostRow (f w) = some (w.cmd, ownRow w (rowImg op w)) := by
      simp only [List.mem_cons, Prod.mk.injEq, List.not_mem_nil, or_false] at hop
      rcases hop with ⟨rfl, rfl⟩ | ⟨rfl, rfl⟩ | ⟨rfl, rfl⟩ | ⟨rfl, rfl⟩ | ⟨rfl, rfl⟩ | ⟨rfl, rfl⟩ | ⟨rfl, rfl⟩ <;> rfl
    exact exec_imgRow hi hrow ha

/-! ### The host's pages (R42, R57, R68 to R72, R78, R150) -/

section BarWrite

variable {s : State} (hb : s.board.inReset = false) (hp : s.board.perst = false)
include hb hp

/-- A host write that is in order has its effect. -/
theorem barWrite_effect {ok : Bool} (f : State → State) (hok : ok = true) (hm : s.mode ≠ .dry) : s.barWrite ok f = f s := by
  simp [State.barWrite, hb, hp, hok, hm]

/-- Any other is counted in CMD_BAR_DISCARD. -/
theorem barWrite_discard {ok : Bool} (f : State → State) (h : s.mode = .dry ∨ ok = false) :
    s.barWrite ok f = s.bump 0x11000 1 := by
  rcases h with h | h <;> simp [State.barWrite, hb, hp, h]

end BarWrite

theorem exec_cmdDoorbell (s : State) (fn q : BitVec 6) (v : BitVec 64) : exec (.cmdDoorbell fn q v) s = .next
    (s.barWrite (s.pageOpen fn.toNat q.toNat && s.doorbellOk q.toNat (fld (wordOf v) 19 0))
      (fun s => s.ringDoorbell q.toNat (fld (wordOf v) 19 0))) := rfl

theorem exec_ringControlWrite (s : State) (fn q : BitVec 6) (off : BitVec 2) (v : BitVec 64) :
    exec (.ringControlWrite fn q off v) s = .next (s.barWrite (s.pageOpen fn.toNat q.toNat && s.ringFree q.toNat)
      (fun s => s.ringControl q.toNat off.toNat (wordOf v))) := rfl

theorem exec_cmdCplHead (s : State) (fn q : BitVec 6) (v : BitVec 64) : exec (.cmdCplHead fn q v) s = .next
    (s.barWrite (s.pageOpen fn.toNat q.toNat) (fun s => s.cplConsumed q.toNat (fld (wordOf v) 15 0))) := rfl

/-- Words arrive no earlier than the queue may fetch again (R80). -/
theorem exec_commandFetch (s : State) (q : BitVec 6) (ws : List (BitVec 64))
    (h : (s.waitUntil (s.queue q.toNat).fetchAt).fetches q.toNat = true) :
    exec (.commandFetch q ws) s = .next ((s.waitUntil (s.queue q.toNat).fetchAt).fetchWords q.toNat (ws.map wordOf)) := by
  simp only [exec, execCommandFetch, h, if_true]

/-- Bits 63:48 of a slot do not matter (R44). -/
theorem wordOf_congr {v w : BitVec 64} (h : ∀ i, i < 48 → v.getLsbD i = w.getLsbD i) : wordOf v = wordOf w := by
  refine BitVec.eq_of_getLsbD_eq fun i hi => ?_
  simp [wordOf, hi, h i hi]

/-- Settles O28: each write is in order, and has its effect. -/
theorem queuePageWritesTakeEffect : Obligations.QueuePageWritesTakeEffect := by
  refine ⟨fun s fn q v hb hp hm ho hd => ?doorbell, fun s fn q off v hb hp hm ho hf => ?control, fun s fn q v hb hp hm ho => ?head,
    fun s q ws => exec_commandFetch s q ws, fun v w => wordOf_congr⟩
  case doorbell => rw [exec_cmdDoorbell, barWrite_effect hb hp _ (by simp [ho, hd]) hm]
  case control => rw [exec_ringControlWrite, barWrite_effect hb hp _ (by simp [ho, hf]) hm]
  case head => rw [exec_cmdCplHead, barWrite_effect hb hp _ ho hm]

/-! ### Discarded writes, and reads through the BARs (R12, R42 to R49, R57) -/

/-- A write of fewer than 8 octets, or to a word that the host does not write, is discarded. -/
theorem exec_hostBarWriteDiscard {s : State} {fn : BitVec 6} {addr : BitVec 28} {short : Bool} (v : BitVec 64)
    (hb : s.board.inReset = false) (hp : s.board.perst = false)
    (h : short = true ∨ s.hostWord fn.toNat addr.toNat = false) :
    exec (.hostBarWriteDiscard fn addr v short) s = .next (s.bump 0x11000 1) := by
  have hd : (short || !s.hostWord fn.toNat addr.toNat) = true := by rcases h with h | h <;> simp [h]
  simp only [exec, execHostBarWriteDiscard, hd, if_true, barWrite_discard hb hp id (.inr rfl)]

/-- A read of 8 octets gives the slot of the word as the tick began with it, and one of 4 octets a half of it. -/
theorem barRead_word {s : State} (fn w : Nat) {k : Nat} (half : Bool) (hr : s.running = true) (hp : s.board.perst = false)
    (hk : k < 8) :
    s.barRead fn false (8 * w + k) half = some
      (if half then
        if k < 4 then slotOf (s.atStart.barWord fn w) &&& 0xFFFFFFFF else slotOf (s.atStart.barWord fn w) >>> 32
      else slotOf (s.atStart.barWord fn w)) := by
  have hb : s.board.inReset = false := by
    simp only [State.running, Bool.and_eq_true, Bool.not_eq_true'] at hr
    exact hr.1
  have hw : (8 * w + k) / 8 = w := by omega
  have hm : (8 * w + k) % 8 = k := by omega
  simp only [State.barRead, State.barSlot, hb, hp, hw, hm, hr, Bool.or_self, Bool.false_eq_true, if_false, if_true]

/-- While the link is down no read arrives. -/
theorem barRead_linkDown {s : State} (fn a : Nat) (t h : Bool) (hl : s.board.inReset = true ∨ s.board.perst = true) :
    s.barRead fn t a h = none := by
  rcases hl with hl | hl <;> simp [State.barRead, hl]

theorem slotOf_toNat (v : Word) : (slotOf v).toNat = v.toNat :=
  BitVec.toNat_setWidth_of_le (by decide)

theorem wordOf_slotOf (v : Word) : wordOf (slotOf v) = v := by
  simp [wordOf, slotOf]

/-- The page of queue `q` at a VF: the page of a tenant queue that is bound to it (R46, R48). -/
theorem barWord_page (s : State) {fn q i : Nat} (hf : fn ≠ 0) (hq : q < 64) (hi : i < 64) :
    s.barWord fn (0x40 * q + i) =
      if 8 ≤ q ∧ s.qbind q = fn ∧ regAssigned (adQueue q i) = true then s.view (adQueue q i) else 0 := by
  have hw : 0x40 * q + i < 0x1000 := by omega
  have hd : (0x40 * q + i) / 0x40 = q := by omega
  have ha : 0x10000 + (0x40 * q + i) = adQueue q i := by unfold adQueue; omega
  simp only [State.barWord, hf, if_false, hw, if_true, hd, ha, Bool.and_eq_true, Nat.ble_eq, beq_iff_eq, and_assoc]

/-- Beyond the pages a VF sees a copy of GLB_ID, its own number, and zero. -/
theorem barWord_vf (s : State) {fn : Nat} (w : Nat) (hf : fn ≠ 0) :
    s.barWord fn 0x1000 = s.view 0 ∧ s.barWord fn 0x1001 = toWord fn ∧ (0x1001 < w → s.barWord fn w = 0) := by
  refine ⟨by simp [State.barWord, hf], by simp [State.barWord, hf], fun h => ?_⟩
  have h0 : ¬ w < 0x1000 := by omega
  have h1 : w ≠ 0x1000 := by omega
  have h2 : w ≠ 0x1001 := by omega
  simp only [State.barWord, hf, h0, h1, h2, if_false]

/-- Settles O29: writes that are not in order are discarded, and reads give the words that the function reaches. -/
theorem hostAccessesThroughTheBars : Obligations.HostAccessesThroughTheBars := by
  refine ⟨⟨fun s fn addr v short hb hp h => exec_hostBarWriteDiscard v hb hp h, fun s fn q v hb hp h => ⟨?doorbell, ?head⟩,
      fun s fn q v hb hp h => ?disorder, fun s fn q off v hb hp h => ?control, fun s a ha => ⟨?others, ?counter⟩⟩,
    fun s fn w k hr hp hk => ⟨barRead_word fn w false hr hp hk, fun h => ?low, fun h => ?high⟩,
    fun v => ⟨slotOf_toNat v, wordOf_slotOf v⟩, fun s w => rfl, fun s fn q i hf hq hi => barWord_page s hf hq hi,
    fun s fn w hf => barWord_vf s w hf, fun s fn a t h hl => barRead_linkDown fn a t h hl⟩
  case doorbell => rw [exec_cmdDoorbell, barWrite_discard hb hp _ (h.imp_right fun h => by simp [h])]
  case head => rw [exec_cmdCplHead, barWrite_discard hb hp _ h]
  case disorder => rw [exec_cmdDoorbell, barWrite_discard hb hp _ (.inr (by simp [h]))]
  case control =>
    have hc : s.mode = .dry ∨ (s.pageOpen fn.toNat q.toNat && s.ringFree q.toNat) = false :=
      h.imp_right (Bool.and_eq_false_iff.mpr ·)
    rw [exec_ringControlWrite, barWrite_discard hb hp _ hc]
  case others => simp [raw_bump, ha]
  case counter => simp [raw_bump]
  case low => simpa [h] using barRead_word fn w true hr hp hk
  case high => simpa [Nat.not_lt.mpr h] using barRead_word fn w true hr hp hk

/-! ### The mailbox (R55, R547) -/

theorem inRange_iff {lo hi v : Nat} : inRange lo hi v = true ↔ lo ≤ v ∧ v ≤ hi := by
  simp [inRange]

section Mailbox

variable {s : State} {r : MboxReq} (hb : s.board.inReset = false) (hs : s.spInReset = false) (hr : s.sp.req = some r)
include hb hs hr

/-- The request in progress is one for the row where its code is one of the row's. -/
theorem mboxReq_running (p : Nat → Bool) : s.mboxReq p = if p r.code then some r else none := by
  simp [State.mboxReq, hb, hs, hr, Option.filter]

theorem exec_health (hc : r.code = 1) : exec .health s = .next (s.respond r 0
    ([toWord s.sp.fwVersion, toWord ((s.now - s.sp.started) / 10 ^ 9), toWord s.sp.expiryCount] ++
      (List.range 6).map (fun c => toWord (smGet (fun _ => 0) s.flt.retries c)))) := by
  simp [exec, execHealth, mboxReq_running hb hs hr, hc]

theorem exec_health_unknown (hc : r.code = 0 ∨ 7 ≤ r.code) : exec .health s = .next (s.respond r 1 []) := by
  have h1 : r.code ≠ 1 := by omega
  simp [exec, execHealth, mboxReq_running hb hs hr, hc, h1]

theorem exec_sensor (hc : r.code = 2) : exec .sensor s = .next
    (if fld (nth r.args 0 0) 7 0 < 20 then
      s.respond r 0 [toWord (unsigned 48 (signed 24 (s.rf (0x8010 + fld (nth r.args 0 0) 7 0) 23 0)))]
    else if inRange 32 47 (fld (nth r.args 0 0) 7 0) then
      s.respond r 0 [toWord (s.rf (0x4010 + (fld (nth r.args 0 0) 7 0 - 32)) 15 0)]
    else s.respond r 2 []) := by
  simp [exec, execSensor, mboxReq_running hb hs hr, hc]

theorem exec_eye (h w : Word) (hc : r.code = 3) : exec (.eye h w) s = .next
    (if fld (nth r.args 0 0) 8 0 < 256 then s.respond r 0 [h, w] else s.respond r 2 []) := by
  simp [exec, execEye, mboxReq_running hb hs hr, hc]

/-- DUMP_FETCH, with no dump in flash. -/
theorem exec_dumpFetch_none (f : Bool) (hc : r.code = 4) (hv : s.rb 0x220 44 = false) :
    exec (.dumpFetch f) s = .next (s.respond r 3 []) := by
  simp [exec, execDumpFetch, mboxReq_running hb hs hr, hc, hv]

/-- DUMP_FETCH, with no host dump area. -/
theorem exec_dumpFetch_noArea (f : Bool) (hc : r.code = 4) (hv : s.rb 0x220 44 = true) (ha : s.flt.dump.area = none) :
    exec (.dumpFetch f) s = .next (s.respond r 2 []) := by
  simp [exec, execDumpFetch, mboxReq_running hb hs hr, hc, hv, ha]

theorem exec_dumpFetch_area {x : Nat × Nat} (f : Bool) (hc : r.code = 4) (hv : s.rb 0x220 44 = true)
    (ha : s.flt.dump.area = some x) :
    exec (.dumpFetch f) s = .next (if f || s.board.perst then s.respond r 4 []
      else (s.emit (.hostWords x.1 s.flt.dump.flash)).respond r 0 [toWord s.flt.dump.flash.length]) := by
  simp [exec, execDumpFetch, mboxReq_running hb hs hr, hc, hv, ha]

theorem exec_dumpErase (hc : r.code = 5) : exec .dumpErase s = .next
    ({ s.setRf 0x220 44 44 0 with flt := { s.flt with dump := { s.flt.dump with flash := [] } } }.respond r 0 []) := by
  simp [exec, execDumpErase, mboxReq_running hb hs hr, hc]

theorem exec_retireLog (hc : r.code = 6) : exec .retireLog s = .next
    (if s.flt.log.drop (fld (nth r.args 0 0) 9 0) = [] then s.respond r 3 []
    else s.respond r 0 (takePad 15 0 ((s.flt.log.drop (fld (nth r.args 0 0) 9 0)).map retireWord))) := by
  simp only [exec, execRetireLog, mboxReq_running hb hs hr, hc, beq_self_eq_true, if_true, List.isEmpty_iff]

end Mailbox

/-- Settles O31: each request has its row, which answers it by its argument and by what stands in the device. -/
theorem mailboxRequestsAreAnswered : Obligations.MailboxRequestsAreAnswered := by
  intro s r hb hs hr i l
  refine ⟨exec_health hb hs hr, exec_health_unknown hb hs hr, fun hc => ?sensor, fun hc h w => ?eye,
    fun hc hv => ⟨fun ha f => exec_dumpFetch_noArea hb hs hr f hc hv ha, fun x ha => ?fetch⟩,
    fun hc hv f => exec_dumpFetch_none hb hs hr f hc hv, exec_dumpErase hb hs hr, fun hc => ?log⟩
  case sensor =>
    rw [exec_sensor hb hs hr hc]
    refine ⟨fun h => ?_, fun h => ?_, fun h1 h2 => ?_⟩
    · rw [if_pos h]
    · rw [if_neg (by omega), if_pos (inRange_iff.mpr h)]
    · rw [if_neg (by omega), if_neg (by rw [inRange_iff]; omega)]
  case eye =>
    rw [exec_eye hb hs hr h w hc]
    exact ⟨fun h => by rw [if_pos h], fun h => by rw [if_neg (by omega)]⟩
  case fetch =>
    exact ⟨fun hp => by rw [exec_dumpFetch_area hb hs hr false hc hv ha, hp]; rfl,
      by rw [exec_dumpFetch_area hb hs hr true hc hv ha]; rfl⟩
  case log =>
    rw [exec_retireLog hb hs hr hc]
    exact ⟨fun h => by rw [if_neg h], fun h => by rw [if_pos h]⟩

end Sys2Proof.Machine

/-! The statements of the command chapter (spec/03_command_isa.md): what the words of a command say, how commands end, and what
the commands of tables, staging, messages, scans and snapshots come to. -/

namespace Sys2Proof.Machine

/-! ### The words of a command (R64, Table 3.1) -/

/-- A field above all others of a word adds its value at its place. -/
theorem toNat_mkWord_cons {lo v : Nat} {fs : List (Nat × Nat)} (hf : (mkWord fs).toNat < 2 ^ lo) (hv : v * 2 ^ lo < 2 ^ 48) :
    (mkWord ((lo, v) :: fs)).toNat = v * 2 ^ lo + (mkWord fs).toNat := by
  rw [mkWord, BitVec.toNat_or, BitVec.toNat_ofNat, Nat.mod_eq_of_lt hv, Nat.mul_comm, Nat.two_pow_add_eq_or_of_lt hf]

theorem b2n_le (b : Bool) : b2n b ≤ 1 := by cases b <;> decide

theorem b2n_inj : ∀ {a b : Bool}, b2n a = b2n b → a = b := by decide

/-- The header is the sum of its fields at their places. -/
theorem header_toNat {c : Cmd} {op : Nat} (hw : c.wf = true) (ho : op < 64) :
    (c.header op).toNat = op * 2 ^ 42 + (c.ops.length * 2 ^ 36 +
      (b2n c.silent * 2 ^ 35 + (b2n c.irq * 2 ^ 34 + (c.opflags.toNat * 2 ^ 32 + c.args.toNat)))) := by
  have hn : c.ops.length ≤ 63 := Nat.le_of_ble_eq_true hw
  have hs := b2n_le c.silent
  have hi := b2n_le c.irq
  have hf := c.opflags.isLt
  have ha := c.args.isLt
  have h0 : (mkWord [(0, c.args.toNat)]).toNat = c.args.toNat := by
    rw [toNat_mkWord_cons (by decide) (by omega)]
    simp [mkWord]
  have h1 := toNat_mkWord_cons (lo := 32) (v := c.opflags.toNat) (fs := [(0, c.args.toNat)]) (by omega) (by omega)
  rw [h0] at h1
  have h2 := toNat_mkWord_cons (lo := 34) (v := b2n c.irq) (by rw [h1]; omega) (by omega)
  rw [h1] at h2
  have h3 := toNat_mkWord_cons (lo := 35) (v := b2n c.silent) (by rw [h2]; omega) (by omega)
  rw [h2] at h3
  have h4 := toNat_mkWord_cons (lo := 36) (v := c.ops.length) (by rw [h3]; omega) (by omega)
  rw [h3] at h4
  have h5 := toNat_mkWord_cons (lo := 42) (v := op) (by rw [h4]; omega) (by omega)
  rw [h4] at h5
  rw [Cmd.header, Nat.mod_eq_of_lt ho, Nat.mod_eq_of_lt (by omega : c.ops.length < 64), h5]

/-- Every field can be read back from the header. -/
theorem header_inj {c c' : Cmd} {op op' : Nat} (hw : c.wf = true) (hw' : c'.wf = true) (ho : op < 64) (ho' : op' < 64)
    (h : c.header op = c'.header op') :
    op = op' ∧ c.ops.length = c'.ops.length ∧ c.silent = c'.silent ∧ c.irq = c'.irq ∧ c.opflags = c'.opflags ∧
      c.args = c'.args := by
  have hn : c.ops.length ≤ 63 := Nat.le_of_ble_eq_true hw
  have hn' : c'.ops.length ≤ 63 := Nat.le_of_ble_eq_true hw'
  have := b2n_le c.silent
  have := b2n_le c'.silent
  have := b2n_le c.irq
  have := b2n_le c'.irq
  have := c.opflags.isLt
  have := c'.opflags.isLt
  have := c.args.isLt
  have := c'.args.isLt
  have hsum := congrArg BitVec.toNat h
  rw [header_toNat hw ho, header_toNat hw' ho'] at hsum
  exact ⟨by omega, by omega, b2n_inj (by omega), b2n_inj (by omega), BitVec.eq_of_toNat_eq (by omega),
    BitVec.eq_of_toNat_eq (by omega)⟩

/-- Settles O57: the header gives every field and the number of operands, and that number parts the operands from the rest. -/
theorem commandWordsNameOneCommand : Obligations.CommandWordsNameOneCommand := by
  intro c c' op op' r r' hp hw hw' ho ho' h
  obtain ⟨hh, ht⟩ := List.cons.inj h
  obtain ⟨hop, hlen, hs, hi, hf, ha⟩ := header_inj hw hw' ho ho' hh
  obtain ⟨hops, hr⟩ := List.append_inj ht hlen
  refine ⟨?_, hop, hr⟩
  obtain ⟨port, silent, irq, opflags, args, ops⟩ := c
  simp only at hp hs hi hf ha hops
  rw [hp, hs, hi, hf, ha, hops]

/-! ### Violations (R86, R545) -/

/-- Words stored as a run are read back as they were stored. -/
theorem map_raw_setRegs (s : State) (a : Nat) (ws : List Word) :
    (List.range ws.length).map (fun i => (s.setRegs a ws).raw (a + i)) = ws := by
  refine List.ext_getElem (by simp) fun i hi _ => ?_
  have hi : i < ws.length := by simpa using hi
  simp [raw_setRegs, hi]

/-- The monitor event, the freeze record and the alarm of a violation of queue `q`. -/
def State.violationNoted (s : State) (q : Nat) (record : List Word) : State :=
  ((s.monEv 1 q 3 1).setRegs (0x400 + 8 * q) record).alarm 5 0x041 q 0

/-- They change words, the monitor and the event unit alone; the record stands in its words, and the violations counted
before stand. -/
theorem violationNoted_only (s : State) {q : Nat} {record : List Word} (hq : q < 64) (hr : record.length = 8) :
    (∃ r m e, s.violationNoted q record = { s with regs := r, mon := m, evt := e }) ∧
      (List.range 8).map (fun i => (s.violationNoted q record).raw (0x400 + 8 * q + i)) = record ∧
      (s.violationNoted q record).raw 0x11002 = s.raw 0x11002 := by
  obtain ⟨⟨r, m, hmon⟩, hmonRaw⟩ := monEv_only s 1 q 3 1 (by decide)
  obtain ⟨⟨r', m', e', halarm⟩, halarmRaw⟩ := alarm_only ((s.monEv 1 q 3 1).setRegs (0x400 + 8 * q) record) 5 0x041 q 0
    (by simp only [alarmWord]; split <;> omega)
  refine ⟨⟨r', m', e', ?eq⟩, ?record, ?count⟩
  case eq => rw [State.violationNoted, halarm, hmon]; rfl
  case record =>
    have hkept : ∀ i ∈ List.range 8, (s.violationNoted q record).raw (0x400 + 8 * q + i) =
        ((s.monEv 1 q 3 1).setRegs (0x400 + 8 * q) record).raw (0x400 + 8 * q + i) := fun i hi =>
      halarmRaw _ (by have := List.mem_range.mp hi; omega)
    rw [List.map_congr_left hkept, ← hr, map_raw_setRegs]
  case count =>
    rw [State.violationNoted, halarmRaw _ (by decide), raw_setRegs, if_neg (by omega), hmonRaw _ (by decide)]

/-- A violation of a queue other than queue 0 notes it, freezes the queue and releases the key-unit lock. -/
theorem violate_queue {s : State} {q : BitVec 6} {header : Word} {seq stage reason : Nat} {operand object : Word}
    (hq : q ≠ 0) (hreason : reason ≠ 0x0D) (hreset : (s.queue q.toNat).resetDue = false) :
    s.violate (.queue q) header seq stage reason operand object =
      let n := s.violationNoted q.toNat (freezeRecord stage reason seq header operand object s.tick48)
      (((n.setQueue q.toNat { s.queue q.toNat with
        exec := none, violating := some (seq, header), resetDue := false, keepDown := false }).setQstate q.toNat 2).bump
          0x11002 1).dropLock q.toNat := by
  have hlt : q.toNat < 64 := q.isLt
  have hne : q.toNat ≠ 64 := by omega
  have h0 : q.toNat ≠ 0 := fun h => hq (BitVec.eq_of_toNat_eq h)
  obtain ⟨⟨r, m, hmon⟩, -⟩ := monEv_only s 1 q.toNat 3 1 (by decide)
  have htick : (s.monEv 1 q.toNat 3 1).tick48 = s.tick48 := by rw [hmon]; rfl
  obtain ⟨⟨r, m, e, hn⟩, -, -⟩ := violationNoted_only s (q := q.toNat)
    (record := freezeRecord stage reason seq header operand object s.tick48) hlt rfl
  have hu : (s.violationNoted q.toNat (freezeRecord stage reason seq header operand object s.tick48)).queue q.toNat =
      s.queue q.toNat := by rw [hn]; rfl
  simp only [State.violationNoted] at hu
  simp only [State.violate, Port.num, hlt, hne, h0, hreason, if_true, if_false, htick, hu, hreset, Bool.false_eq_true,
    State.violationNoted]

/-- Settles O5: the violation is noted, and freezing its queue leaves the words of the record as they are. -/
theorem violationFreezesItsQueue : Obligations.ViolationFreezesItsQueue := by
  intro s q header seq stage reason operand object hq hreason hreset t
  obtain ⟨⟨r, m, e, hn⟩, hrecord, hcount⟩ := violationNoted_only s (q := q.toNat)
    (record := freezeRecord stage reason seq header operand object s.tick48) q.isLt rfl
  have ht : t = _ := violate_queue hq hreason hreset
  have hlt : q.toNat < 64 := q.isLt
  rw [ht]
  generalize s.violationNoted q.toNat _ = n at hn hrecord hcount ⊢
  have hkept : ∀ a, a < 0x10000 → ∀ u,
      ((((n.setQueue q.toNat u).setQstate q.toNat 2).bump 0x11002 1).dropLock q.toNat).raw a = n.raw a := by
    intro a ha u
    rw [dropLock_raw, raw_bump, if_neg (by omega), State.setQstate, raw_setReg_ne _ _ (by unfold adQueue; omega), raw_setQueue]
  refine ⟨?state, ?violating, ?exec, ?record, ?count, ?tbl, ?slots, ?trees, ?cat, ?dsq, ?mode⟩
  case state =>
    have hpage : adQueue q.toNat 9 ≠ 0x11002 := by unfold adQueue; omega
    simp [State.qstate, State.rf, raw_bump, hpage, State.setQstate, fld, bitsOf]
  case violating => simp
  case exec => simp
  case record =>
    rw [← hrecord]
    exact List.map_congr_left fun i hi => hkept _ (by have := List.mem_range.mp hi; omega) _
  case count =>
    have hpage : 0x11002 ≠ adQueue q.toNat 9 := by unfold adQueue; omega
    simp [raw_bump, State.setQstate, raw_setReg_ne _ _ hpage, hcount]
  all_goals simp [hn]

/-! ### Completion (R73 to R78) -/

/-- The counting and the lease of a key command put nothing outside, and touch no queue. -/
theorem keyRetired_only (s : State) (q : Nat) (header : Word) :
    ∃ r k, s.keyRetired q header = { s with regs := r, key := { s.key with lock := k } } := by
  unfold State.keyRetired
  dsimp only
  obtain ⟨r, hr⟩ : ∃ r, (if hdrOpcode header = 0x12 then s.bump 0x70010 1 else s) = { s with regs := r } := by
    split
    · exact ⟨_, rfl⟩
    · exact ⟨s.regs, rfl⟩
  rw [hr]
  split
  · split
    · split
      · exact ⟨r, _, rfl⟩
      · exact ⟨r, s.key.lock, rfl⟩
    · exact ⟨r, s.key.lock, rfl⟩
  · exact ⟨r, s.key.lock, rfl⟩

/-- Closing a command writes its queue, CMD_LAST_SEQ and CMD_QSTATE. -/
theorem closeCmd_only (s : State) (q seq : Nat) :
    ∃ r, s.closeCmd q seq = { s.setQueue q { s.queue q with exec := none, retiredAt := some s.now } with regs := r } := by
  unfold State.closeCmd
  dsimp only
  split <;> exact ⟨_, rfl⟩

/-- CMD_LAST_SEQ names the command that was closed (R74). -/
theorem closeCmd_lastSeq (s : State) (q seq : Nat) : (s.closeCmd q seq).raw (adQueue q 8) = toWord seq := by
  have hne : adQueue q 8 ≠ adQueue q 9 := by unfold adQueue; omega
  unfold State.closeCmd
  dsimp only
  split
  · rw [State.setQstate, raw_setReg_ne _ _ hne, raw_setReg_same]
  · rw [raw_setReg_same]

/-- Retirement opens the queue for the next command in a later tick, names the command, and puts nothing outside (R73, R74). -/
theorem retireCmd_leaves (s : State) (q : Nat) (header : Word) (seq : Nat) :
    (s.retireCmd q header seq).out = s.out ∧
      (s.retireCmd q header seq).queue q = { s.queue q with exec := none, retiredAt := some s.now } ∧
      (s.retireCmd q header seq).raw (adQueue q 8) = toWord seq ∧ (s.retireCmd q header seq).now = s.now := by
  obtain ⟨r, k, hk⟩ := keyRetired_only s q header
  obtain ⟨r', hc⟩ := closeCmd_only (s.keyRetired q header) q seq
  refine ⟨?out, ?queue, closeCmd_lastSeq _ _ _, ?now⟩
  case out => rw [State.retireCmd, hc, hk]; rfl
  case queue =>
    have hq : ((s.keyRetired q header).closeCmd q seq).queue q =
        ((s.keyRetired q header).setQueue q { (s.keyRetired q header).queue q with
          exec := none, retiredAt := some (s.keyRetired q header).now }).queue q := by rw [hc]; rfl
    rw [State.retireCmd, hq, queue_setQueue_same, hk]
    rfl
  case now => rw [State.retireCmd, hc, hk]; rfl

section Finish

variable {s : State} {q : BitVec 6} {header : Word} {seq status progress result : Nat}
  (hreset : (s.queue q.toNat).resetDue = false) (hasks : hdrSilent header = false ∨ status ≠ stDone)
include hreset hasks

/-- A command that ends with room for its record writes it and retires. -/
theorem finish_record (hirq : hdrIrq header = false) (hroom : s.cplRoom q.toNat = true) :
    s.finish (.queue q) header seq status progress result =
      (s.writeCpl q.toNat header seq status progress result).retireCmd q.toNat header seq := by
  have hport : q.toNat ≠ 64 := by have := q.isLt; omega
  have hloud : ¬ (hdrSilent header = true ∧ status = stDone) := by simpa [imp_iff_not_or, or_comm] using hasks
  simp [State.finish, State.finishCmd, Port.num, hport, hreset, hloud, hroom, hirq]

/-- On a full ring it stays in execution (R78). -/
theorem finish_waits (hroom : s.cplRoom q.toNat = false) :
    s.finish (.queue q) header seq status progress result =
      s.setExec q.toNat
        { header := header, seq := seq, progress := progress, wait := .room status progress result,
          since := ((s.queue q.toNat).exec.map (·.since)).getD s.now } := by
  have hport : q.toNat ≠ 64 := by have := q.isLt; omega
  have hloud : ¬ (hdrSilent header = true ∧ status = stDone) := by simpa [imp_iff_not_or, or_comm] using hasks
  simp [State.finish, State.finishCmd, Port.num, hport, hreset, hloud, hroom, State.setExec]

end Finish

/-- Settles O6: the record is written and the command retires, or it waits for room. -/
theorem completionRecordIsWritten : Obligations.CompletionRecordIsWritten := by
  refine ⟨?record, fun s q header seq status progress result hreset hasks hroom => finish_waits hreset hasks hroom⟩
  intro s q header seq status progress result hreset hasks hirq hroom t r
  have ht : t = _ := finish_record hreset hasks hirq hroom
  obtain ⟨_, _, _, _, _, hframe⟩ := finish_cmdOnly s q header seq status progress result hreset
  obtain ⟨hout, hqueue, hlast, hnow⟩ :=
    retireCmd_leaves (s.writeCpl q.toNat header seq status progress result) q.toNat header seq
  have hwritten : (s.writeCpl q.toNat header seq status progress result).queue q.toNat = _ := queue_setQueue_same _ _ _
  rw [← ht] at hout hqueue hlast hnow
  rw [hwritten] at hqueue
  refine ⟨hout, ?_, ?_, ?_, hlast, ?_⟩
  · rw [hqueue]
  · rw [hqueue]
  · rw [hqueue]; rfl
  · simp only [t, hframe, and_self]

/-! ### Accepted commands, by their row -/

section Accepted

variable {i : Instr} {s x : State} {c : Cmd} {o : Option CmdRule} {r : CmdRule} {pr : Nat}

/-- The row of an accepted command that its execution ends. -/
theorem exec_ends {st re : Nat} (hi : hostRow i = some (c, fun _ => o)) (ho : o = some r) (ha : s.accepts c r)
    (hr : r.run (s.taken c r) ((s.taken c r).atStart.privOf c.port) ((s.taken c r).seqOf c.port) = .fin st pr re x) :
    exec i s = .next (s.ends c r st pr re x) := by
  rw [exec_command hi ho, command_ends ha rfl hr]

/-- The row of an accepted command that goes on. -/
theorem exec_goesOn {w : Wait} (hi : hostRow i = some (c, fun _ => o)) (ho : o = some r) (ha : s.accepts c r)
    (hr : r.run (s.taken c r) ((s.taken c r).atStart.privOf c.port) ((s.taken c r).seqOf c.port) = .wait pr w x) :
    exec i s = .next (s.goesOn c r pr w x) := by
  rw [exec_command hi ho, command_goesOn ha rfl hr]

/-- The row of an accepted command whose execution meets a violation. -/
theorem exec_violates {n : Nat} {u v : Word} (hi : hostRow i = some (c, fun _ => o)) (ho : o = some r) (ha : s.accepts c r)
    (hr : r.run (s.taken c r) ((s.taken c r).atStart.privOf c.port) ((s.taken c r).seqOf c.port) = .viol n u v x) :
    exec i s = .next (s.violates c r 3 n u v x) := by
  rw [exec_command hi ho, command_violates ha rfl hr]

end Accepted

/-! ### MSG_SEND (R110 to R112) -/

/-- What R112 asks of a message: its entry in use, a lane in service, and room on each. -/
theorem msgRefused_none {a : State} {c : Cmd} (hu : msgType c = 1 ∨ a.onuUsed (onuArg c) = true) (hl : a.msgLanes c ≠ [])
    (hroom : ∀ l ∈ a.msgLanes c, (a.lane (a.msgTree c) l).msgs.length < 64) : a.msgRefused c = none := by
  have hused : (decide (msgType c ≠ 1) && !a.onuUsed (onuArg c)) = false := by
    rcases hu with hu | hu <;> simp [hu]
  have hlanes : (a.msgLanes c).isEmpty = false := by simpa using hl
  have hfull : (a.msgLanes c).any (fun l => Nat.ble 64 (a.lane (a.msgTree c) l).msgs.length) = false := by
    simpa using hroom
  simp only [State.msgRefused, hused, hlanes, hfull, Bool.false_eq_true, if_false]

/-- A message that is not refused joins its queues. -/
theorem msgRule_run {a : State} {c : Cmd} (bs : State → List Byte) (ok : Bool) (p : Priv) (n : Nat)
    (h : a.atStart.msgRefused c = none) : (msgRule c bs ok).run a p n = a.msgQueued c (bs a) := by
  simp only [msgRule, h]

/-- A PLOAM message, to one ONU or to all. -/
theorem ploamRow_run {ty : Nat} {a : State} {c : Cmd} {r : CmdRule} (hr : ploamRow ty c = some r)
    (h : a.atStart.msgRefused c = none) (p : Priv) (n : Nat) : r.run a p n = a.msgQueued c (a.ploamOctets c) := by
  unfold ploamRow at hr
  split at hr
  · obtain rfl := Option.some.inj hr
    exact msgRule_run _ _ _ _ h
  · cases hr

/-- An OMCI message whose octets come in the admission tick. -/
theorem omciRow_run_now {a : State} {c : Cmd} {io : HostIo} {r : CmdRule} (hr : omciRow c io = some r) (ht : io.took = 0)
    (p : Priv) (n : Nat) : r.run a p n = (omciRule c io.octets).run a p n := by
  unfold omciRow at hr
  dsimp only at hr
  split at hr
  · obtain rfl := Option.some.inj hr
    simp only [ht, beq_self_eq_true, Bool.true_or, if_true]
  · cases hr

/-- One whose octets come over the ticks that the transfer takes. -/
theorem omciRow_run_waits {a : State} {c : Cmd} {io : HostIo} {r : CmdRule} (hr : omciRow c io = some r) (ht : io.took ≠ 0)
    (h : a.atStart.msgRefused c = none) (p : Priv) (n : Nat) :
    r.run a p n = .wait 0 (.work 0 (.omci c io.octets io.took)) a := by
  unfold omciRow at hr
  dsimp only at hr
  split at hr
  · obtain rfl := Option.some.inj hr
    simp only [beq_eq_false_iff_ne.mpr ht, h, Option.isSome_none, Bool.or_self, Bool.false_eq_true, if_false]
  · cases hr

/-- Settles O17: the message of each form is not refused, and joins its queues or comes over later ticks. -/
theorem messagesAreQueuedOnTheirLanes : Obligations.MessagesAreQueuedOnTheirLanes := by
  refine ⟨?queued, fun s c io r hr ha ht hn => exec_goesOn (i := .omci c io) rfl hr ha (omciRow_run_waits hr ht hn _ _)⟩
  intro s c io i bs r a t ls hform ha hu hl hroom m x
  have hnone : a.atStart.msgRefused c = none := msgRefused_none hu hl hroom
  obtain ⟨o, hi, ho, hrun⟩ :
      ∃ o, hostRow i = some (c, fun _ => o) ∧ o = some r ∧ ∀ p n, r.run a p n = a.msgQueued c bs := by
    rcases hform with ⟨rfl, hr, rfl⟩ | ⟨rfl, hr, rfl⟩ | ⟨rfl, -, hr, ht, rfl⟩
    · exact ⟨_, rfl, hr, ploamRow_run hr hnone⟩
    · exact ⟨_, rfl, hr, ploamRow_run hr hnone⟩
    · exact ⟨_, rfl, hr, fun p n => (omciRow_run_now hr ht p n).trans (msgRule_run _ _ p n hnone)⟩
  exact exec_goesOn hi ho ha (hrun _ _)

/-! ### KEY_LOCK (R113) -/

section KeyLock

variable {a : State} {c : Cmd} (p : Priv) (n : Nat)

/-- KEY_LOCK of a free lock. -/
theorem keyLock_free (hf : c.flag0 = true) (hl : a.atStart.key.lock = none) : (keyLockRule c).run a p n =
    .fin stDone 0 (64 + c.port.num) { a with key := { a.key with lock := some (c.port.num, a.now) } } := by
  simp only [keyLockRule, hf, hl, if_true, Ran.done]

/-- KEY_LOCK of a lock that is held. -/
theorem keyLock_held {h e : Nat} (hf : c.flag0 = true) (hl : a.atStart.key.lock = some (h, e)) :
    (keyLockRule c).run a p n =
      if h = c.port.num then .fin stDone 0 (64 + c.port.num) a else .fin stRejectBusy 0 (64 + h) a := by
  simp only [keyLockRule, hf, hl, if_true, Ran.done]

/-- A release by the holder. -/
theorem keyLock_release {e : Nat} (hf : c.flag0 = false) (hl : a.atStart.key.lock = some (c.port.num, e)) :
    (keyLockRule c).run a p n = .fin stDone 0 0 { a with key := { a.key with lock := none } } := by
  simp only [keyLockRule, hf, hl, Bool.false_eq_true, if_false, if_true, Ran.done]

/-- A release by any other queue. -/
theorem keyLock_wrongRelease (hf : c.flag0 = false) (hl : ∀ e, a.atStart.key.lock ≠ some (c.port.num, e)) :
    (keyLockRule c).run a p n = .viol 0x0A 0 0 a := by
  simp only [keyLockRule, hf, Bool.false_eq_true, if_false]
  split
  · next h e heq =>
    have hne : h ≠ c.port.num := fun hh => hl e (hh ▸ heq)
    rw [if_neg hne]
  · rfl

end KeyLock

/-- Settles O18: by what stands in the lock at the start of the tick. -/
theorem keyLockFollowsItsHolder : Obligations.KeyLockFollowsItsHolder := by
  intro s c ha a me
  refine ⟨fun hf hl => exec_ends rfl rfl ha (keyLock_free _ _ hf hl), fun e hf hl => ?own, fun h e hf hl hne => ?other,
    fun e hf hl => exec_ends rfl rfl ha (keyLock_release _ _ hf hl),
    fun hf hl => exec_violates rfl rfl ha (keyLock_wrongRelease _ _ hf hl)⟩
  case own => exact exec_ends rfl rfl ha ((keyLock_held _ _ hf hl).trans (if_pos rfl))
  case other => exact exec_ends rfl rfl ha ((keyLock_held _ _ hf hl).trans (if_neg hne))

/-! ### Words that go to the host (R90, R94) -/

section GiveWords

variable {a : State} {io : HostIo} (addr : Nat) (ws : List Word) (result : Nat)

theorem giveWords_now (ht : io.took = 0) : a.giveWords io addr ws result =
    .fin stDone ws.length result (if ws.isEmpty then a else a.emit (.hostWords addr ws)) := by
  simp only [State.giveWords, ht, if_true]

theorem giveWords_later (ht : io.took ≠ 0) : a.giveWords io addr ws result =
    .wait 0 (.work 0 (.give addr ws result io.took io.took)) a := by
  simp only [State.giveWords, ht, if_false]

end GiveWords

/-! ### NOP, READ, FENCE and THAW (R88, R89, R94, R96) -/

/-- Words that no error strikes are all read. -/
theorem readable_unstruck {a : State} {l : List Nat} (h : ∀ x ∈ l, a.struck (.reg x) = false) :
    a.readable l = l.map a.atStart.view := by
  rw [State.readable, List.takeWhile_eq_self_iff.mpr fun x hx => by simp [h x hx]]

/-- The words that a READ asks for. -/
def readWords (a : State) (c : Cmd) : List Word :=
  (List.range (readCount c)).map (fun i => a.atStart.view (c.arg 24 0 + i))

theorem readWords_ne_nil (a : State) (c : Cmd) : (readWords a c).isEmpty = false := by
  simp [readWords, readCount]

theorem readRule_run {a : State} {c : Cmd} (io : HostIo) (p : Priv) (n : Nat)
    (h : ∀ i, i < readCount c → a.struck (.reg (c.arg 24 0 + i)) = false) :
    (readRule c io).run a p n =
      if c.ops.isEmpty then .done a 1 (a.atStart.view (c.arg 24 0)).toNat
      else a.giveWords io (hostAddr (c.op 0)) (readWords a c) (a.atStart.view (c.arg 24 0)).toNat := by
  have hread : a.readable ((List.range (readCount c)).map (c.arg 24 0 + ·)) = readWords a c := by
    rw [readable_unstruck (by simpa using h), List.map_map]
    rfl
  have hall : ¬ (readWords a c).length < readCount c := by simp [readWords]
  simp only [readRule, hread, hall, if_false]

/-- Without a buffer an accepted READ asks for one word. -/
theorem readCount_one {s : State} {c : Cmd} {io : HostIo} (ha : s.accepts c (readRule c io)) (ho : c.ops = []) :
    readCount c = 1 := by
  obtain ⟨-, -, -, -, -, -, hargs⟩ := ha
  simp only [readRule, ho, List.isEmpty_nil, Bool.and_eq_true] at hargs
  simpa using hargs.1

theorem fenceRule_run (a : State) (c : Cmd) (p : Priv) (n : Nat) :
    let pipe := if c.flag0 then some a.now else none
    let others := if c.flag1 then (a.execs.filter (fun x => x.1 != 64)).map (fun x => (x.1, x.2.seq)) else []
    (fenceRule c).run a p n =
      if a.fenceWaits pipe others then .wait 0 (.fence pipe others) a else .fin stDone 0 0 a := rfl

/-- Settles O8: each command runs on the state in which it is taken, a READ on words that stand. -/
theorem nopReadFenceThawComplete : Obligations.NopReadFenceThawComplete := by
  refine ⟨fun s c ha => exec_ends rfl rfl ha rfl, fun s c io ha ho => ?word, fun s c io w ha ho => ?words,
    fun s c ha => ?fence, fun s c ha => exec_ends rfl rfl ha rfl⟩
  case word =>
    intro a hs
    have hone : ∀ i, i < readCount c → a.struck (.reg (c.arg 24 0 + i)) = false := by
      simpa [readCount_one ha ho] using hs
    exact exec_ends rfl rfl ha ((readRule_run io _ _ hone).trans (by simp [ho, Ran.done, a]))
  case words =>
    intro a ws r hs
    have hrun : ∀ p n, (readRule c io).run a p n = a.giveWords io (hostAddr w) ws r := fun p n => by
      rw [readRule_run io p n hs, ho, List.isEmpty_cons, if_neg Bool.false_ne_true, Cmd.op, ho]
      rfl
    have hlen : ws.length = readCount c := by simp [ws]
    have hne : ws.isEmpty = false := readWords_ne_nil a c
    refine ⟨fun ht => exec_ends rfl rfl ha ?_,
      fun ht => exec_goesOn rfl rfl ha ((hrun _ _).trans (giveWords_later _ _ _ ht))⟩
    rw [hrun, giveWords_now _ _ _ ht, hlen, hne]
    rfl
  case fence =>
    intro a pipe others
    split
    · next h => exact exec_goesOn rfl rfl ha ((fenceRule_run _ _ _ _).trans (if_pos h))
    · next h => exact exec_ends rfl rfl ha ((fenceRule_run _ _ _ _).trans (if_neg h))

/-! ### CRC_SCAN, CTR_SNAP and DUMP_CFG (R115, R116, R503 to R506, R516, R524, R550) -/

theorem length_octetsBE (n v : Nat) : (octetsBE n v).length = n := by
  induction n with
  | zero => rfl
  | succ n ih => simp [octetsBE, ih]

/-- A word is 6 octets of a scan (R115). -/
theorem length_wordsOctets_single (w : Word) : (wordsOctets [w]).length = 6 := by
  simp [wordsOctets, wordOctets, length_octetsBE]

theorem crcScanRule_busy {a : State} {c : Cmd} (io : HostIo) (p : Priv) (n : Nat) (hb : a.crcBusy (c.arg 1 0) = true) :
    (crcScanRule c io).run a p n = .fin stRejectBusy 0 0 a := by
  simp only [crcScanRule, hb, if_true]

theorem crcScanRule_free {a : State} {c : Cmd} (io : HostIo) (p : Priv) (n : Nat) (hb : a.crcBusy (c.arg 1 0) = false) :
    (crcScanRule c io).run a p n = .wait 0
      (.work 0 (if c.flag0 then .scanHost (c.arg 1 0) (takePad (c.op 1).toNat 0 io.octets)
        else .scanWords (c.arg 1 0) (c.op 0).toNat (c.op 1).toNat)) (a.crcScan (c.arg 1 0) c.flag1 []) := by
  simp only [crcScanRule, hb, Bool.false_eq_true, if_false]
  split <;> rfl

/-- A tick of a scan of device words scans the 6 octets of one, while words are left. -/
theorem scanWordTick_eq (s : State) (n w prog : Nat) {left : Nat} (h : 0 < left) :
    let t := (s.crcScan n true (wordsOctets [s.atStart.view w])).monEv 4 n 1 6
    s.scanWordTick n w left prog =
      if left ≤ 1 then .done t (prog + 6) (t.crcVal n 9 % 2 ^ 48)
      else .wait (prog + 6) (.work 0 (.scanWords n (w + 1) (left - 1))) t := by
  have h0 : left ≠ 0 := by omega
  simp only [State.scanWordTick, h0, if_false, length_wordsOctets_single]

theorem dumpCfgRow_rule {c : Cmd} {fatal : Bool} (h : decide (dumpKind c = 1) = fatal) :
    dumpCfgRow fatal c = some (dumpCfgRule c) := by
  simp only [dumpCfgRow, h, if_true]

theorem dumpCfgRule_counter {a : State} {c : Cmd} (p : Priv) (n : Nat) (hk : dumpKind c = 0) :
    (dumpCfgRule c).run a p n =
      .fin stDone 0 0 (a.setDumpArea (hostAddr (c.op 0)) ((c.op 1).toNat * 1024) (c.op 2).toNat) := by
  simp only [dumpCfgRule, hk, if_true, Ran.done]

theorem dumpCfgRule_fatal {a : State} {c : Cmd} (p : Priv) (n : Nat) (hk : dumpKind c = 1) :
    (dumpCfgRule c).run a p n = .fin stDone 0 0
      { a with flt := { a.flt with dump := { a.flt.dump with
          area := if (c.op 1).toNat = 0 then none else some (hostAddr (c.op 0), (c.op 1).toNat) } } } := by
  simp only [dumpCfgRule, hk, Nat.one_ne_zero, if_false, Ran.done]

/-- Settles O21: the scan begins and takes its share of each tick, the group goes to the host, and the areas are set. -/
theorem scanSnapAndDumpConfigComplete : Obligations.ScanSnapAndDumpConfigComplete := by
  refine ⟨fun s c io ha => ⟨fun hb => ?busy, fun hb hf => ?host, fun hb hf => ?device⟩,
    fun s p n prog bs => ⟨fun h => if_pos h, fun h => if_neg (Nat.not_le.mpr h)⟩,
    fun s p n w left prog h => ⟨fun h1 => ?last, fun h1 => ?next⟩,
    fun s c io ha => ⟨fun ht => ?now, fun ht => ?later⟩, fun s c ha hk => ?counter, fun s c ha hk => ?fatal⟩
  case busy => exact exec_ends rfl rfl ha (crcScanRule_busy io _ _ hb)
  case host => exact exec_goesOn rfl rfl ha ((crcScanRule_free io _ _ hb).trans (by rw [if_pos hf]))
  case device =>
    exact exec_goesOn rfl rfl ha ((crcScanRule_free io _ _ hb).trans (by rw [if_neg (Bool.eq_false_iff.mp hf)]))
  case last => exact (scanWordTick_eq s n w prog h).trans (if_pos (by omega))
  case next => exact (scanWordTick_eq s n w prog h).trans (if_neg (by omega))
  case now => exact exec_ends rfl rfl ha (giveWords_now _ _ _ ht)
  case later => exact exec_goesOn rfl rfl ha (giveWords_later _ _ _ ht)
  case counter => exact exec_ends rfl (dumpCfgRow_rule (by simp [hk])) ha (dumpCfgRule_counter _ _ hk)
  case fatal => exact exec_ends rfl (dumpCfgRow_rule (by simp [hk])) ha (dumpCfgRule_fatal _ _ hk)

/-! ### Failed transfers (R80, R82, R519, R599) -/

section Transfers

variable {s : State} (hr : s.running = true) (hp : s.board.perst = false)
include hr hp

theorem exec_hostTransferRetry (q : BitVec 6) (k : BitVec 2) :
    exec (.hostTransferRetry q k) s = .next (s.transferFails q.toNat k.toNat) := by
  simp [exec, execHostTransferRetry, hr, hp]

theorem exec_ringWriteRetry {r : Nat} (h : r < ringDump) : exec (.ringWriteRetry r) s = .next (s.ringFails r) := by
  have hb : Nat.blt ringDump r = false := by rw [← Bool.not_eq_true, Nat.blt_eq]; omega
  simp [exec, execRingWriteRetry, hr, hp, hb, Nat.ne_of_lt h]

theorem exec_ringWriteRetry_dump : exec (.ringWriteRetry ringDump) s = .next s.dumpFails := by
  have hb : Nat.blt ringDump ringDump = false := rfl
  simp [exec, execRingWriteRetry, hr, hp, hb]

end Transfers

theorem exec_vfReset {s : State} {v : BitVec 6} (hr : s.running = true) (hv : v ≠ 0) : exec (.vfReset v) s = .next
    (((List.range 56).map (8 + ·)).foldl (fun s q => if s.qbind q = v.toNat then s.vfQueue q else s) s) := by
  have hgo : (!s.running || decide (v = 0)) = false := by rw [hr, decide_eq_false hv]; rfl
  simp only [exec, execVfReset, hgo, Bool.false_eq_true, if_false]

/-- What a row leaves by whether a budget lasts, said for each case. -/
theorem exec_byBudget {i : Instr} {s x y : State} {b : Bool} (h : exec i s = .next (if b = true then x else y)) :
    (b = true → exec i s = .next x) ∧ (b = false → exec i s = .next y) := by
  cases b
  · exact ⟨fun hb => absurd hb Bool.false_ne_true, fun _ => h⟩
  · exact ⟨fun _ => h, fun hb => absurd hb.symm Bool.false_ne_true⟩

/-- A fetch fails in the tick in which the queue may fetch again. -/
theorem transferFails_fetch {s : State} {q : Nat} (hf : (s.waitUntil (s.queue q).fetchAt).fetches q = true)
    (hn : (s.waitUntil (s.queue q).fetchAt).fetchable q ≠ 0) :
    let u := s.waitUntil (s.queue q).fetchAt
    s.transferFails q 0 =
      if u.queueBudget q then (u.queueCharge q).setQueue q { (u.queueCharge q).queue q with fetchAt := u.now + 10000 }
      else u.disableQueue q := by
  simp [State.transferFails, hf, hn, State.fetchFails]

/-- A completion write fails. -/
theorem transferFails_cpl {s : State} {q : Nat} {x : LastCpl} (hx : (s.queue q).lastCpl = some x) :
    s.transferFails q 1 =
      if s.queueBudget q then (s.queueCharge q).rewriteCpl q x else (s.unwriteCpl q x).disableQueue q := by
  simp only [State.transferFails, State.cplFails, hx, Nat.one_ne_zero, if_true, if_false]

/-- A data transfer of the command in execution fails. -/
theorem transferFails_data {s : State} {q k hold : Nat} {e : Exec} {w : Work} (hk : 2 ≤ k)
    (he : (s.queue q).exec = some e) (hw : e.wait = .work hold w) (ht : w.transfers = true) :
    s.transferFails q k =
      if s.queueBudget q then (s.queueCharge q).setExec q { e with wait := .work (max hold s.now + 10000) w }
      else s.endExec q stErrMem e.progress (s.stopResult e.wait) := by
  have h0 : k ≠ 0 := by omega
  have h1 : k ≠ 1 := by omega
  simp only [State.transferFails, State.dataFails, h0, h1, he, hw, ht, Bool.not_true, Bool.false_eq_true, if_false]

theorem ringFails_last {s : State} {r : Nat} {x : RingRec} (hx : (s.ring r).last = some x) :
    let t := s.ringUnwrite r x
    s.ringFails r =
      if s.ringBudget r then (t.ringCharge r).setRing r { (t.ringCharge r).ring r with
        waiting := x :: ((t.ringCharge r).ring r).waiting, retryAt := s.now + 10000 }
      else t.bump (ringDrop r) 1 := by
  simp only [State.ringFails, hx]

theorem dumpFails_running {s : State} (hd : s.mon.dump.run ≠ none) :
    s.dumpFails =
      if s.ringBudget ringDump then
        (let t := s.ringCharge ringDump
         { t with mon := { t.mon with dump := { t.mon.dump with holdTill := t.now + 10000 } } })
      else s.abandonDump := by
  have hn : s.mon.dump.run.isNone = false := Option.isNone_eq_false_iff.mpr (Option.isSome_iff_ne_none.mpr hd)
  simp only [State.dumpFails, hn, Bool.false_eq_true, if_false]

/-- Settles O30: each failure is charged while the budget lasts, and else given up. -/
theorem transferFailuresAreRetriedOrEnd : Obligations.TransferFailuresAreRetriedOrEnd := by
  refine ⟨fun s q k hr hp => ⟨?fetch, fun x hk hx => ?cpl, fun e hold w hk he hw ht => ?data⟩,
    fun s r x hr hp hlt hx => ?ring, fun s hr hp hd => ?dump, fun s v hr hv => exec_vfReset hr hv⟩
  case fetch =>
    rintro rfl hf hn
    exact exec_byBudget ((exec_hostTransferRetry hr hp q 0).trans (congrArg _ (transferFails_fetch hf hn)))
  case cpl =>
    subst hk
    exact exec_byBudget ((exec_hostTransferRetry hr hp q 1).trans (congrArg _ (transferFails_cpl hx)))
  case data => exact exec_byBudget ((exec_hostTransferRetry hr hp q k).trans (congrArg _ (transferFails_data hk he hw ht)))
  case ring => exact exec_byBudget ((exec_ringWriteRetry hr hp hlt).trans (congrArg _ (ringFails_last hx)))
  case dump => exact exec_byBudget ((exec_ringWriteRetry_dump hr hp).trans (congrArg _ (dumpFails_running hd)))

/-! ### RULE_STAGE and GEN_SWAP (R105, R106) -/

section RuleStage

variable {a : State} {c : Cmd} (io : HostIo) (p : Priv) (n : Nat)

/-- The words of a RULE_STAGE that wait for their turn or for their transfer. -/
def stageWaits (c : Cmd) (io : HostIo) : Wait :=
  .work 0 (.stage (tcTable c) (rsIndex c) (if tcTable c = 0x22 then rsFirst c else 0) c.ops io.took io.took)

/-- While a copy retires nothing is staged. -/
theorem ruleStageRule_retiring (hr : a.atStart.retiring = true) :
    (ruleStageRule c io).run a p n = .fin stRejectBusy 0 0 a := by
  simp only [ruleStageRule, hr, if_true]

variable (hr : a.atStart.retiring = false)
include hr

/-- Behind a command that changes the same table it waits. -/
theorem ruleStageRule_taken (ht : a.tableTaken (tcTable c) a.now = true) :
    (ruleStageRule c io).run a p n = .wait 0 (stageWaits c io) a := by
  simp only [ruleStageRule, hr, ht, Bool.false_eq_true, if_false, if_true, stageWaits]

variable (ht : a.tableTaken (tcTable c) a.now = false)
include ht

theorem ruleStageRule_invalidate (hf : c.flag0 = true) :
    (ruleStageRule c io).run a p n = .fin stDone 1 0 (a.stageWords (tcTable c) (rsIndex c) 0 []) := by
  simp only [ruleStageRule, hr, ht, hf, Bool.false_eq_true, if_false, if_true, Ran.done]

/-- Words are staged in the admission tick, or wait for the ticks that their writing takes. -/
theorem ruleStageRule_words (hf : c.flag0 = false) :
    (ruleStageRule c io).run a p n =
      if io.took = 0 then .fin stDone c.ops.length 0
        (a.stageWords (tcTable c) (rsIndex c) (if tcTable c = 0x22 then rsFirst c else 0) c.ops)
      else .wait 0 (stageWaits c io) a := by
  simp only [ruleStageRule, hr, ht, hf, Bool.false_eq_true, if_false, Ran.done, stageWaits]

end RuleStage

theorem genSwapRule_run {a : State} {c : Cmd} (p : Priv) (n : Nat) (hr : a.atStart.retiring = false)
    (hh : a.swapHeld = false) : (genSwapRule c).run a p n = .wait 0 .genSwap (a.swapGenerations c.flag0) := by
  simp only [genSwapRule, hr, hh, Bool.or_self, Bool.false_eq_true, if_false]

/-- The bit of a swap register that names the active copy. -/
theorem bitOf_swapWord (b : Bool) {n : Nat} (hn : n < 2 ^ 16) : bitOf (mkWord [(17, 1), (16, b2n b), (0, n)]) 16 = b := by
  have h0 : (BitVec.ofNat 48 n).getLsbD 16 = false := by
    rw [BitVec.getLsbD_ofNat, Nat.testBit_lt_two_pow hn, Bool.and_false]
  simp only [bitOf, mkWord, BitVec.getLsbD_or, Nat.pow_zero, Nat.mul_one, h0]
  cases b <;> rfl

/-- The swap register behind a swap. -/
theorem raw_swapGenerations (a : State) (copy : Bool) :
    (a.swapGenerations copy).raw 0x1400408 =
      mkWord [(17, 1), (16, b2n (!a.activeCopy)), (0, (a.rf 0x1400408 15 0 + 1) % 2 ^ 16)] := by
  have hregs : ∀ (u : State) (x : ClsUnit), ({ u with cls := x } : State).raw 0x1400408 = u.raw 0x1400408 := fun _ _ => rfl
  rw [State.swapGenerations, hregs, raw_setReg_ne _ _ (by decide), raw_setReg_same]

/-- The staging copy becomes active. -/
theorem activeCopy_swapGenerations (a : State) (copy : Bool) : (a.swapGenerations copy).activeCopy = !a.activeCopy := by
  rw [State.activeCopy, State.rb, raw_swapGenerations, bitOf_swapWord _ (Nat.mod_lt _ (by decide))]

/-! ### SLUICE_LOAD and SLUICE_SWAP (R107, R108) -/

theorem length_takePad {α : Type} (n : Nat) (d : α) (l : List α) : (takePad n d l).length = n := by
  simp [takePad]

section SluiceLoad

variable {a : State} {c : Cmd} (p : Priv) (n : Nat)
  (hd : a.swapDue (c.arg 6 0) = false) (hc : (a.commitPending && a.sluMasked (c.arg 6 0)) = false)
include hd hc

/-- The words of a SLUICE_LOAD come over the ticks that the transfer takes. -/
theorem sluiceLoadRule_later {io : HostIo} (ht : io.took ≠ 0) :
    (sluiceLoadRule c io).run a p n =
      .wait 0 (.work 0 (.load (c.arg 6 0) (fld (c.op 1) 11 0) (takePad (sluiceCount c) 0 (io.slots.map wordOf)) c.flag0
        io.took io.took)) (a.setBankValid (c.arg 6 0) (1 - a.bankActive (c.arg 6 0)) false) := by
  simp only [sluiceLoadRule, hd, hc, Bool.or_self, Bool.false_eq_true, if_false, ht]

/-- Or within the admission tick, at whose end the bank is parsed with LAST. -/
theorem sluiceLoadRule_now {io : HostIo} (ht : io.took = 0) :
    let v := a.setBankValid (c.arg 6 0) (1 - a.bankActive (c.arg 6 0)) false
    (sluiceLoadRule c io).run a p n =
      (v.setRegs (adBank (c.arg 6 0) (1 - v.bankActive (c.arg 6 0)) (fld (c.op 1) 11 0))
        (takePad (sluiceCount c) 0 (io.slots.map wordOf))).loadEnd (c.arg 6 0) (sluiceCount c) c.flag0 := by
  simp only [sluiceLoadRule, hd, hc, Bool.or_self, Bool.false_eq_true, if_false, ht, if_true, State.loadTick, sharesOf,
    Nat.le_refl, Nat.add_zero, List.drop_zero, length_takePad, List.take_of_length_le (Nat.le_of_eq (length_takePad _ _ _))]

theorem sluiceSwapRule_run (hv : a.bankValid (c.arg 6 0) (1 - a.bankActive (c.arg 6 0)) = true) :
    (sluiceSwapRule c).run a p n = .wait 0 (.sluiceSwap (c.arg 6 0)) a := by
  simp only [sluiceSwapRule, hd, hc, hv, Bool.or_self, Bool.not_true, Bool.false_eq_true, if_false]

end SluiceLoad

section LoadEnd

variable (s : State) (t n : Nat)

theorem loadEnd_more : s.loadEnd t n false = .fin stDone n 0 s := rfl

/-- A bank that is well formed becomes valid. -/
theorem loadEnd_valid (h : sluBadWord (fun i => s.raw (adBank t (1 - s.bankActive t) i)) = none) :
    s.loadEnd t n true = .fin stDone n 0 (s.setBankValid t (1 - s.bankActive t) true) := by
  simp only [State.loadEnd, h, Bool.not_true, Bool.false_eq_true, if_false, Ran.done]

/-- One that is not is a violation. -/
theorem loadEnd_bad {w : Nat} (h : sluBadWord (fun i => s.raw (adBank t (1 - s.bankActive t) i)) = some w) :
    s.loadEnd t n true = .viol 0x0B (toWord w) (toWord t) s := by
  simp only [State.loadEnd, h, Bool.not_true, Bool.false_eq_true, if_false]

end LoadEnd

/-- Settles O15: each staging command runs on the state in which it is taken. -/
theorem stagingCommandsComplete : Obligations.StagingCommandsComplete := by
  refine ⟨fun s c io ha => ?stage, fun s c ha hr hh => ⟨?swap, activeCopy_swapGenerations _ _⟩,
    fun s c io ha => ?load, fun s c ha => ?sluiceSwap⟩
  case stage =>
    intro a t first waits
    refine ⟨fun hr => exec_ends rfl rfl ha (ruleStageRule_retiring io _ _ hr),
      fun hr ht => exec_goesOn rfl rfl ha (ruleStageRule_taken io _ _ hr ht), fun hr ht =>
        ⟨fun hf => exec_ends rfl rfl ha (ruleStageRule_invalidate io _ _ hr ht hf), fun hf h0 => ?_, fun hf h0 => ?_⟩⟩
    · exact exec_ends rfl rfl ha ((ruleStageRule_words io _ _ hr ht hf).trans (if_pos h0))
    · exact exec_goesOn rfl rfl ha ((ruleStageRule_words io _ _ hr ht hf).trans (if_neg h0))
  case swap => exact exec_goesOn rfl rfl ha (genSwapRule_run _ _ hr hh)
  case load =>
    intro a t b start n ws v x hd hc
    refine ⟨fun h0 => exec_goesOn rfl rfl ha (sluiceLoadRule_later _ _ hd hc h0), fun h0 hl => ?_, fun h0 hl hw => ?_,
      fun w h0 hl hw => ?_⟩
    · exact exec_ends rfl rfl ha ((sluiceLoadRule_now _ _ hd hc h0).trans (by rw [hl]; exact loadEnd_more _ _ _))
    · exact exec_ends rfl rfl ha ((sluiceLoadRule_now _ _ hd hc h0).trans (by rw [hl]; exact loadEnd_valid _ _ _ hw))
    · exact exec_violates rfl rfl ha ((sluiceLoadRule_now _ _ hd hc h0).trans (by rw [hl]; exact loadEnd_bad _ _ _ hw))
  case sluiceSwap => exact fun hd hc hv => exec_goesOn rfl rfl ha (sluiceSwapRule_run _ _ hd hc hv)

/-! ### Words that are corrected on the way (R378, R543) -/

/-- A table command that meets corrected words runs on the state that has counted them. -/
theorem meets_run (r : CmdRule) (k : Nat) (a : State) (p : Priv) (n : Nat) :
    (r.meets k).run a p n = r.run (a.wordsFixed k) p n := rfl

theorem reads_run (r : CmdRule) (a : State) (p : Priv) (n : Nat) : r.reads.run a p n = r.run a.someFixed p n := rfl

/-! ### TBL_NEXT and TBL_FLUSH_PORT (R101 to R103, R374, R375) -/

/-- A TBL_NEXT without a context ends. -/
theorem tblNextRule_none {a : State} {c : Cmd} {st : Nat} (p : Priv) (n : Nat) (h : a.walkFor (tcTable c) (c.op 1) = .inl st) :
    (tblNextRule c).run a p n = .fin st 0 0 a := by
  simp only [tblNextRule, h]

/-- With one it goes on. -/
theorem tblNextRule_walks {a : State} {c : Cmd} {x : Nat} {w : Walk} (p : Priv) (n : Nat)
    (h : a.walkFor (tcTable c) (c.op 1) = .inr (x, w)) :
    (tblNextRule c).run a p n = .wait 0 (.work 0 (.walk x (c.arg 11 0 + 1) (hostAddr (c.op 0)) 0))
      ((if c.op 1 = 0 then a.drew else a).setWalk x (some { w with used := a.now })) := by
  simp only [tblNextRule, h]

/-- A tick of a walk ends it, or its command, or leaves both for the next tick. -/
theorem walkTick_eq {s : State} {p : Priv} {x want addr n : Nat} {w : Walk} (hw : s.walk x = some w) :
    let r := s.walkTake p w want
    let ws := r.1.flatMap Found.record
    let b := if ws.isEmpty then s else s.emit (.hostWords addr ws)
    let k := n + r.1.length
    s.walkTick p x want addr n =
      if r.2.complete then .fin stDone k 0 (b.setWalk x none)
      else if want = r.1.length ∨ r.2.slot = r.2.stop then .fin stDone k w.cursor.toNat (b.setWalk x (some r.2))
      else .wait k (.work 0 (.walk x (want - r.1.length) (addr + 8 * ws.length) k)) (b.setWalk x (some r.2)) := by
  simp only [State.walkTick, hw, Ran.done]

/-- Settles O14: the walk and the flush begin, and each tick does its 4 slots. -/
theorem walksAndFlushesComplete : Obligations.WalksAndFlushesComplete := by
  refine ⟨fun s c n ha => ⟨fun st h => exec_ends rfl rfl ha ((meets_run ..).trans (tblNextRule_none _ _ h)),
      fun x w h => exec_goesOn rfl rfl ha ((meets_run ..).trans (tblNextRule_walks _ _ h))⟩,
    fun s p x want addr n w hw => ?walk, fun s c n ha => exec_goesOn rfl rfl ha rfl,
    fun s p port slot removed prog all => ⟨fun h => if_pos h, fun h => if_neg (Nat.not_le.mpr h)⟩⟩
  intro r ws b k
  have htick : s.workTick p (.walk x want addr n) n = _ := walkTick_eq hw
  refine ⟨fun hc => htick.trans (if_pos hc), fun hc h => ?_, fun hc hwant hslot => ?_⟩
  · exact htick.trans ((if_neg (Bool.eq_false_iff.mp hc)).trans (if_pos h))
  · exact htick.trans ((if_neg (Bool.eq_false_iff.mp hc)).trans (if_neg (not_or.mpr ⟨hwant, hslot⟩)))

/-! ### TBL_INSERT (R97 to R100, R370 to R372) -/

/-- While a digest reads the table nothing is inserted (R491). -/
theorem tblInsertRule_busy {a : State} {c : Cmd} (p : Priv) (n : Nat) (hd : a.digestHolds (tcTable c) = true) :
    (tblInsertRule c).run a p n = .fin stRejectBusy 0 0 a := by
  simp only [tblInsertRule, hd, if_true]

section Insert

variable {a : State} {c : Cmd} (p : Priv) (n : Nat) (hd : a.digestHolds (tcTable c) = false)
include hd

theorem tblInsertRule_indexed (hk : tblKeyed (tcTable c) = false) :
    (tblInsertRule c).run a p n = a.insertIndexed (tcTable c) (tcIndex c) c.ops := by
  simp only [tblInsertRule, hd, hk, Bool.false_eq_true, if_false]

theorem tblInsertRule_taken (hk : tblKeyed (tcTable c) = true) (ht : a.tableTaken (tcTable c) a.now = true) :
    (tblInsertRule c).run a p n = .wait 0 (.work 0 (.insert (Insertion.fresh (tcTable c) c.ops) c.flag0)) a := by
  simp only [tblInsertRule, hd, hk, ht, Bool.false_eq_true, if_false, if_true]

theorem tblInsertRule_keyed (hk : tblKeyed (tcTable c) = true) (ht : a.tableTaken (tcTable c) a.now = false) :
    (tblInsertRule c).run a p n = a.insertTick p (Insertion.fresh (tcTable c) c.ops) c.flag0 := by
  simp only [tblInsertRule, hd, hk, ht, Bool.false_eq_true, if_false, if_true]

end Insert

theorem insertIndexed_meter (a : State) (i : Nat) (ws : List Word) : a.insertIndexed 0x10 i ws =
    .fin stDone 0 i (((a.setEntry 0x10 i ws).putBucket (ndMeter i) 0 none).putBucket (ndMeter i) 1 none) := rfl

theorem insertIndexed_plain {a : State} {t : Nat} (i : Nat) (ws : List Word) (h : t = 0x12 ∨ t = 0x13) :
    a.insertIndexed t i ws = .fin stDone 0 i (a.setEntry t i ws) := by
  rcases h with rfl | rfl <;> rfl

/-- A queue that is not valid is written as a new one (R314). -/
theorem insertIndexed_queue {a : State} {i : Nat} (ws : List Word) (hv : a.dqValid i = false)
    (hw : a.atStart.dqValid i = false) :
    a.insertIndexed 0x11 i ws = .fin stDone 0 i ((a.setEntry 0x11 i ws).freshQueue i) := by
  simp only [State.insertIndexed, State.writeQueue, hv, hw, Bool.false_and, Bool.false_eq_true, if_false, if_true, Ran.done]

/-- The first tick of an insertion whose key is present. -/
theorem insertTick_present {a : State} {p : Priv} {t slot : Nat} {ws old : List Word} (replace : Bool)
    (hf : (a.stepsOn t).findEntry t (entryKey t ws) = some (slot, old)) (ho : foundOwned p t old = true) :
    a.insertTick p (Insertion.fresh t ws) replace =
      if replace then .fin stDone 0 slot ((a.stepsOn t).replaceEntry t old ws) else .fin stRejectArg 0 slot (a.stepsOn t) := by
  simp only [State.insertTick, Insertion.fresh, hf, ho, Bool.not_true, Bool.false_eq_true, if_false, Ran.done]

section InsertNew

variable {a : State} {t : Nat} {ws : List Word} (p : Priv) (replace : Bool)
  (hf : (a.stepsOn t).findEntry t (entryKey t ws) = none) (hok : (a.stepsOn t).filterOk t ws = true)
include hf hok

/-- A new key for which a candidate slot is free. -/
theorem insertTick_room {slot : Nat} (h : (a.stepsOn t).insertStep (Insertion.fresh t ws) (fun _ => false) = .room slot) :
    a.insertTick p (Insertion.fresh t ws) replace = .fin stDone 0 slot ((a.stepsOn t).insertAt t slot ws) := by
  simp only [Insertion.fresh] at h
  simp [State.insertTick, Insertion.fresh, hf, hok, h, Ran.done]

/-- One for which room is sought in the ticks that follow. -/
theorem insertTick_more {j : Insertion} {u : State}
    (h : (a.stepsOn t).insertStep (Insertion.fresh t ws) (fun _ => false) = .more j u) :
    a.insertTick p (Insertion.fresh t ws) replace = .wait j.moves (.work 0 (.insert j replace)) u := by
  simp only [Insertion.fresh] at h
  simp [State.insertTick, Insertion.fresh, hf, hok, h]

end InsertNew

/-! ### TBL_DELETE and TBL_SEARCH (R97, R100, R376, R377) -/

theorem tblDeleteRule_busy {a : State} {c : Cmd} (p : Priv) (n : Nat) (hd : a.digestHolds (tcTable c) = true) :
    (tblDeleteRule c).run a p n = .fin stRejectBusy 0 0 a := by
  simp only [tblDeleteRule, hd, if_true]

section Delete

variable {a : State} {c : Cmd} (p : Priv) (n : Nat) (hd : a.digestHolds (tcTable c) = false)
include hd

theorem tblDeleteRule_indexed (hk : tblKeyed (tcTable c) = false) :
    (tblDeleteRule c).run a p n = a.deleteIndexed (tcTable c) (tcIndex c) := by
  simp only [tblDeleteRule, hd, hk, Bool.false_eq_true, if_false]

theorem tblDeleteRule_taken (hk : tblKeyed (tcTable c) = true) (ht : a.tableTaken (tcTable c) a.now = true) :
    (tblDeleteRule c).run a p n = .wait 0 (.work 0 (.delete (tcTable c) c.ops)) a := by
  simp only [tblDeleteRule, hd, hk, ht, Bool.false_eq_true, if_false, if_true]

theorem tblDeleteRule_keyed (hk : tblKeyed (tcTable c) = true) (ht : a.tableTaken (tcTable c) a.now = false) :
    (tblDeleteRule c).run a p n = a.deleteTick p (tcTable c) c.ops := by
  simp only [tblDeleteRule, hd, hk, ht, Bool.false_eq_true, if_false, if_true]

end Delete

/-- The end of a TBL_DELETE of an indexed entry, by what stands at the start of the tick. -/
theorem deleteIndexed_eq (a : State) (t i : Nat) :
    a.deleteIndexed t i =
      if bitOf (nth (a.atStart.entry t i) (entryWords t - 1) 0) 47 = false then .fin stDone 0 i a
      else .fin stDone 1 i ((if t = 0x11 then a.emptyQueue (.set dqDeleted) i else a).setEntry t i
        (updAt (a.entry t i) (entryWords t - 1) (fun w => w &&& ~~~(maskOf 47 47)))) := by
  simp only [State.deleteIndexed, Bool.not_eq_true', Ran.done]

theorem deleteTick_none {a : State} {t : Nat} {key : List Word} (p : Priv) (h : (a.stepsOn t).findEntry t key = none) :
    a.deleteTick p t key = .fin stNotFound 0 0 (a.stepsOn t) := by
  simp only [State.deleteTick, h]

theorem deleteTick_found {a : State} {t slot : Nat} {p : Priv} {key ws : List Word}
    (h : (a.stepsOn t).findEntry t key = some (slot, ws)) (ho : foundOwned p t ws = true) :
    a.deleteTick p t key = .fin stDone 1 slot ((a.stepsOn t).removeKey t key) := by
  simp only [State.deleteTick, h, ho, if_true, Ran.done]

section Search

variable {a : State} {c : Cmd} (io : HostIo) (p : Priv) (n : Nat)

theorem tblSearchRule_keyed_none (hk : tblKeyed (tcTable c) = true) (h : a.foundEntry (tcTable c) (c.ops.drop 1) = none) :
    (tblSearchRule c io).run a p n = .fin stNotFound 0 0 a := by
  simp only [tblSearchRule, hk, h, if_true]

theorem tblSearchRule_indexed_none (hk : tblKeyed (tcTable c) = false)
    (h : entryValid (tcTable c) (a.atStart.entry (tcTable c) (tcIndex c)) = false) :
    (tblSearchRule c io).run a p n = .fin stNotFound 0 0 a := by
  simp only [tblSearchRule, hk, h, Bool.not_false, Bool.false_eq_true, if_false, if_true]

/-- The entry that a TBL_SEARCH shows: by its key where it belongs to the privilege, or by its index where it is valid and no
error strikes it. -/
def searched (a : State) (c : Cmd) (p : Priv) (slot : Nat) (ws : List Word) : Prop :=
  if tblKeyed (tcTable c) then
    a.foundEntry (tcTable c) (c.ops.drop 1) = some (slot, ws) ∧ foundOwned p (tcTable c) ws = true
  else entryValid (tcTable c) (a.atStart.entry (tcTable c) (tcIndex c)) = true ∧ slot = tcIndex c ∧
    ws = a.atStart.entry (tcTable c) (tcIndex c) ∧ a.struck (.indexed (tcTable c * 2 ^ 24 + slot)) = false

theorem tblSearchRule_found {slot : Nat} {ws : List Word} (h : searched a c p slot ws) :
    (tblSearchRule c io).run a p n = a.giveWords io (hostAddr (c.op 0)) ws slot := by
  unfold searched at h
  split at h
  · next hk =>
    obtain ⟨hf, ho⟩ := h
    simp only [tblSearchRule, hk, hf, ho, if_true]
  · next hk =>
    obtain ⟨hv, rfl, rfl, hs⟩ := h
    simp only [tblSearchRule, hk, hv, hs, Bool.not_true, Bool.false_eq_true, if_false]

end Search

/-- Settles O13: each form of the three commands, by its table and by what stands there. -/
theorem tableCommandsComplete : Obligations.TableCommandsComplete := by
  refine ⟨fun s c n ha => ?insert, fun s c ha => ?delete, fun s c io ha => ?search⟩
  case insert =>
    intro a t p i
    have hends : ∀ {st pr re x}, (∀ m, (tblInsertRule c).run a p m = .fin st pr re x) → exec (.tblInsert c n) s = .next
        (s.ends c ((tblInsertRule c).meets n) st pr re x) := fun h => exec_ends rfl rfl ha ((meets_run ..).trans (h _))
    have hgoes : ∀ {pr w x}, (∀ m, (tblInsertRule c).run a p m = .wait pr w x) → exec (.tblInsert c n) s = .next
        (s.goesOn c ((tblInsertRule c).meets n) pr w x) := fun h => exec_goesOn rfl rfl ha ((meets_run ..).trans (h _))
    refine ⟨fun hd => hends fun m => tblInsertRule_busy p m hd, fun hd ht => ?meter, fun hd ht => ?plain,
      fun hd ht hv hw => ?queue, fun hd hk ht => hgoes fun m => tblInsertRule_taken p m hd hk ht, fun hd hk ht => ?keyed⟩
    case meter =>
      have hk : tblKeyed t = false := by rw [ht]; rfl
      have hrun : a.insertIndexed t (tcIndex c) c.ops = _ := ht ▸ insertIndexed_meter a (tcIndex c) c.ops
      exact hends fun m => (tblInsertRule_indexed p m hd hk).trans hrun
    case plain =>
      have hk : tblKeyed t = false := by rcases ht with ht | ht <;> rw [ht] <;> rfl
      exact hends fun m => (tblInsertRule_indexed p m hd hk).trans (insertIndexed_plain _ _ ht)
    case queue =>
      have hk : tblKeyed t = false := by rw [ht]; rfl
      have hrun : a.insertIndexed t (tcIndex c) c.ops = _ := ht ▸ insertIndexed_queue c.ops hv hw
      exact hends fun m => (tblInsertRule_indexed p m hd hk).trans hrun
    case keyed =>
      have hrun := fun m => tblInsertRule_keyed p m hd hk ht
      refine ⟨fun slot old hf ho => ⟨fun hr => hends fun m => ?refused, fun hr _ => hends fun m => ?replaced⟩,
        fun hf hok => ⟨fun slot h => hends fun m => (hrun m).trans (insertTick_room p _ hf hok h),
          fun j u h => hgoes fun m => (hrun m).trans (insertTick_more p _ hf hok h)⟩⟩
      case refused => rw [hrun, insertTick_present _ hf ho, hr, if_neg Bool.false_ne_true]
      case replaced => rw [hrun, insertTick_present _ hf ho, hr, if_pos rfl]
  case delete =>
    intro a t n ws
    have hends : ∀ {st pr re x}, (∀ m, (tblDeleteRule c).run a (a.atStart.privOf c.port) m = .fin st pr re x) →
        exec (.tblDelete c) s = .next (s.ends c (tblDeleteRule c).reads st pr re x) :=
      fun h => exec_ends rfl rfl ha ((reads_run ..).trans (h _))
    refine ⟨fun hd => hends fun m => tblDeleteRule_busy _ m hd,
      fun hd hk => ⟨fun hv => hends fun m => ?clear, fun hv => hends fun m => ?valid⟩, fun hd hk =>
        ⟨fun ht => exec_goesOn rfl rfl ha ((reads_run ..).trans (tblDeleteRule_taken _ _ hd hk ht)),
          fun ht hf => hends fun m => (tblDeleteRule_keyed _ m hd hk ht).trans (deleteTick_none _ hf),
          fun slot ws ht hf ho => hends fun m => (tblDeleteRule_keyed _ m hd hk ht).trans (deleteTick_found hf ho)⟩⟩
    case clear => exact (tblDeleteRule_indexed _ m hd hk).trans ((deleteIndexed_eq _ _ _).trans (if_pos hv))
    case valid =>
      exact (tblDeleteRule_indexed _ m hd hk).trans ((deleteIndexed_eq _ _ _).trans (if_neg (by rw [hv]; decide)))
  case search =>
    intro a t ws
    have hends : ∀ {st pr re x}, (∀ m, (tblSearchRule c io).run a (a.atStart.privOf c.port) m = .fin st pr re x) →
        exec (.tblSearch c io) s = .next (s.ends c (tblSearchRule c io).reads st pr re x) :=
      fun h => exec_ends rfl rfl ha ((reads_run ..).trans (h _))
    refine ⟨fun hk h => hends fun m => tblSearchRule_keyed_none io _ m hk h,
      fun hk h => hends fun m => tblSearchRule_indexed_none io _ m hk h, fun slot xs h hne => ?shown⟩
    have hsearched : searched a c (a.atStart.privOf c.port) slot xs := h
    have hwords : xs.isEmpty = false := by simpa using hne
    refine ⟨fun ht => hends fun m => ?now, fun ht => exec_goesOn rfl rfl ha ((reads_run ..).trans
      ((tblSearchRule_found io _ _ hsearched).trans (giveWords_later _ _ _ ht)))⟩
    rw [tblSearchRule_found io _ m hsearched, giveWords_now _ _ _ ht, hwords, if_neg Bool.false_ne_true]

end Sys2Proof.Machine

/-! The statements of the chapter of operating modes (spec/04_operating_modes.md): what the units' operations leave as it is, the
change of mode and the fatal stop, the MODE commands, and frame boundaries with what follows on a lane. -/

namespace Sys2Proof.Machine

/-! ### What the units' operations leave as it is

The modes, the queue of rows, the clock, the start of the tick, the service processor, the board and the image unit: one lemma for
each operation that a change of mode can bring. -/

/-- The mode, the mode before it, and the tick of its entry. -/
def State.modes (s : State) : Mode × Mode × Nat := (s.mode, s.prevMode, s.modeTick)

/-- What no operation of a queue, tree, lane, packet, key or counter changes, beside the modes. -/
def State.base (s : State) : List Instr × Device × Nat × Sp × Board × ImgUnit :=
  (s.pending, s.start, s.now, s.sp, s.board, s.img)

/-- What no operation of a queue, tree, lane, packet, key or counter changes. -/
def State.frame (s : State) : (Mode × Mode × Nat) × List Instr × Device × Nat × Sp × Board × ImgUnit := (s.modes, s.base)

theorem modes_of_frame {s t : State} (h : t.frame = s.frame) : t.modes = s.modes := congrArg Prod.fst h

theorem base_of_frame {s t : State} (h : t.frame = s.frame) : t.base = s.base := congrArg Prod.snd h

theorem mode_of_frame {s t : State} (h : t.frame = s.frame) : t.mode = s.mode := congrArg Prod.fst (modes_of_frame h)

theorem start_of_base {s t : State} (h : t.base = s.base) : t.start = s.start := congrArg (·.2.1) h

theorem now_of_base {s t : State} (h : t.base = s.base) : t.now = s.now := congrArg (·.2.2.1) h

theorem sp_of_base {s t : State} (h : t.base = s.base) : t.sp = s.sp := congrArg (·.2.2.2.1) h

theorem now_of_frame {s t : State} (h : t.frame = s.frame) : t.now = s.now := now_of_base (base_of_frame h)

/-! ### Updates of one unit -/

@[simp] theorem frame_mon (s : State) (x : MonUnit) : ({ s with mon := x } : State).frame = s.frame := rfl
@[simp] theorem frame_evt (s : State) (x : EvtUnit) : ({ s with evt := x } : State).frame = s.frame := rfl
@[simp] theorem frame_cat (s : State) (x : Catchment) : ({ s with cat := x } : State).frame = s.frame := rfl
@[simp] theorem frame_tbl (s : State) (x : Tables) : ({ s with tbl := x } : State).frame = s.frame := rfl
@[simp] theorem frame_ohm (s : State) (x : Ohm) : ({ s with ohm := x } : State).frame = s.frame := rfl

@[simp] theorem setReg_frame (s : State) (a : Nat) (w : Word) : (s.setReg a w).frame = s.frame := rfl
@[simp] theorem setRf_frame (s : State) (a hi lo v : Nat) : (s.setRf a hi lo v).frame = s.frame := rfl
@[simp] theorem bump_frame (s : State) (a n : Nat) : (s.bump a n).frame = s.frame := rfl
@[simp] theorem emit_frame (s : State) (o : Out) : (s.emit o).frame = s.frame := rfl
@[simp] theorem drew_frame (s : State) : s.drew.frame = s.frame := rfl
@[simp] theorem setTree_frame (s : State) (t : Nat) (u : Tree) : (s.setTree t u).frame = s.frame := rfl
@[simp] theorem setLane_frame (s : State) (t l : Nat) (v : Lane) : (s.setLane t l v).frame = s.frame := rfl
@[simp] theorem setQueue_frame (s : State) (q : Nat) (u : CmdQueue) : (s.setQueue q u).frame = s.frame := rfl
@[simp] theorem setQstate_frame (s : State) (q v : Nat) : (s.setQstate q v).frame = s.frame := rfl
@[simp] theorem setDq_frame (s : State) (h : Nat) (q : DsQueue) : (s.setDq h q).frame = s.frame := rfl
@[simp] theorem setPkt_frame (s : State) (i : Nat) (p : Option Packet) : (s.setPkt i p).frame = s.frame := rfl
@[simp] theorem setPage_frame (s : State) (p : Nat) (g : Option Page) : (s.setPage p g).frame = s.frame := rfl
@[simp] theorem setTrace_frame (s : State) (i : Nat) (t : Option TraceSlot) : (s.setTrace i t).frame = s.frame := rfl
@[simp] theorem setRole_frame (s : State) (t : Nat) (b : Bool) : (s.setRole t b).frame = s.frame := rfl
@[simp] theorem bumpSet_frame (s : State) (f n w k : Nat) : (s.bumpSet f n w k).frame = s.frame := rfl
@[simp] theorem xtsPages_frame (s : State) (t e : Nat) (up : Bool) : (s.xtsPages t e up).frame = s.frame := rfl
@[simp] theorem alarm_frame (s : State) (i code src d : Nat) : (s.alarm i code src d).frame = s.frame := rfl
@[simp] theorem wipeSlot_frame (s : State) (n : Nat) : (s.wipeSlot n).frame = s.frame := rfl
@[simp] theorem emitPtxdis_frame (s : State) (t l : Nat) : (s.emitPtxdis t l).frame = s.frame := rfl
@[simp] theorem settleDeficits_frame (s : State) (t : Nat) : (s.settleDeficits t).frame = s.frame := rfl
@[simp] theorem treeStarts_frame (s : State) (t : Nat) : (s.treeStarts t).frame = s.frame := rfl
@[simp] theorem mapArr_frame (s : State) (f : Arrival → Arrival) : (s.mapArr f).frame = s.frame := rfl
@[simp] theorem freeCells_frame (s : State) (p : Nat) (l : List Nat) : (s.freeCells p l).frame = s.frame := rfl
@[simp] theorem unwriteCpl_frame (s : State) (q : Nat) (l : LastCpl) : (s.unwriteCpl q l).frame = s.frame := rfl

/-! ### Branches and repetitions -/

/-- Both branches of a choice. -/
@[simp] theorem ite_frame {c : Prop} [Decidable c] (s t : State) :
    (if c then s else t).frame = if c then s.frame else t.frame := apply_ite _ _ _ _

/-- Steps that keep the frame, one after another. -/
theorem foldl_frame {β : Type} {f : State → β → State} (h : ∀ s b, (f s b).frame = s.frame) (l : List β) (s : State) :
    (l.foldl f s).frame = s.frame :=
  foldl_keeps (P := fun t => t.frame = s.frame) (fun t b ht => (h t b).trans ht) l s rfl

theorem CmdOnly.frame {s t : State} (h : CmdOnly s t) : t.frame = s.frame := by
  obtain ⟨_, _, _, _, _, rfl⟩ := h
  rfl

/-! ### Monitor, events and alarms -/

@[simp] theorem monEv_frame (s : State) (u inst ev n : Nat) : (s.monEv u inst ev n).frame = s.frame := by
  have hone : ∀ (t : State) (k : Nat), (t.monOne u inst ev n k).frame = t.frame := fun t k => by
    simp only [State.monOne, frame_mon, setReg_frame, ite_frame, ite_self]
  simp [State.monEv, foldl_frame hone]

@[simp] theorem event_frame (s : State) (cls code : Nat) (arg : Word) : (s.event cls code arg).frame = s.frame := by
  have hstage : ∀ r, (s.stage r).frame = s.frame := fun r => by
    unfold State.stage
    simp only
    split <;> simp
  simp [State.event, hstage]

@[simp] theorem notice_frame (s : State) (code src d : Nat) : (s.notice code src d).frame = s.frame := event_frame ..
@[simp] theorem fault_frame (s : State) (code src d : Nat) : (s.fault code src d).frame = s.frame := event_frame ..
@[simp] theorem msix_frame (s : State) (f v : Nat) : (s.msix f v).frame = s.frame := (msix_cmdOnly s f v).frame
@[simp] theorem alarmClear_frame (s : State) (i code n : Nat) : (s.alarmClear i code n).frame = s.frame := by
  simp only [State.alarmClear, frame_evt, setReg_frame, ite_frame, ite_self]

/-! ### Commands in execution -/

@[simp] theorem resetQueue_frame (s : State) (q : Nat) : (s.resetQueue q).frame = s.frame := by simp [State.resetQueue]

@[simp] theorem finishCmd_frame (s : State) (q : Nat) (header : Word) (seq st pr re : Nat) :
    (s.finishCmd q header seq st pr re).frame = s.frame := by
  simp [State.finishCmd, (retireCmd_cmdOnly _ _ _ _).frame, (writeCpl_cmdOnly _ _ _ _ _ _ _).frame, (irqQueue_cmdOnly _ _).frame]

@[simp] theorem endExec_frame (s : State) (q st pr re : Nat) : (s.endExec q st pr re).frame = s.frame := by
  unfold State.endExec
  split <;> simp

@[simp] theorem stopExec_frame (s : State) (q : Nat) : (s.stopExec q).frame = s.frame := by
  unfold State.stopExec
  split <;> simp

@[simp] theorem stopIllegal_frame (s : State) : s.stopIllegal.frame = s.frame :=
  foldl_frame (fun t x => by simp) _ _

@[simp] theorem abortTx_frame (s : State) (sel : Nat → Nat → Bool) : (s.abortTx sel).frame = s.frame := by
  refine foldl_frame (fun t x => ?_) _ _
  unfold State.abortTxOf
  split <;> simp

@[simp] theorem endMsg_frame (s : State) (id : Nat) (b : Bool) : (s.endMsg id b).frame = s.frame := by
  unfold State.endMsg
  split <;> simp

@[simp] theorem discardMsgs_frame (s : State) (t l : Nat) (b : Bool) (p : Msg → Bool) :
    (s.discardMsgs t l b p).frame = s.frame := by
  simp [State.discardMsgs, foldl_frame]

/-! ### Packets -/

@[simp] theorem traceEnds_frame (s : State) (i : Option Nat) (d b o : Bool) : (s.traceEnds i d b o).frame = s.frame := by
  unfold State.traceEnds
  split
  · rfl
  · split <;> simp

@[simp] theorem modPkt_frame (s : State) (i : Nat) (f : Packet → Packet) : (s.modPkt i f).frame = s.frame := by
  unfold State.modPkt
  split <;> simp

@[simp] theorem sweepPkt_frame (s : State) (i : Nat) : (s.sweepPkt i).frame = s.frame := by
  unfold State.sweepPkt
  split <;> simp

@[simp] theorem unref_frame (s : State) (i : Nat) : (s.unref i).frame = s.frame := by
  unfold State.unref
  split <;> simp

@[simp] theorem freePage_frame (s : State) (p : Nat) : (s.freePage p).frame = s.frame := by
  unfold State.freePage
  split
  · rfl
  · simp only [frame_cat, emit_frame, drew_frame, setRf_frame, setDq_frame, setPage_frame, xtsPages_frame, monEv_frame,
      ite_frame, ite_self]

@[simp] theorem leavePage_frame (s : State) (i p : Nat) : (s.leavePage i p).frame = s.frame := by
  unfold State.leavePage
  split <;> simp

@[simp] theorem releaseEntry_frame (s : State) (e : QEntry) : (s.releaseEntry e).frame = s.frame := by
  simp [State.releaseEntry, foldl_frame]

@[simp] theorem discardEntry_frame (s : State) (h : Nat) (how : Counted) (e : QEntry) :
    (s.discardEntry h how e).frame = s.frame := by
  cases how <;> simp [State.discardEntry, State.countAs]

@[simp] theorem discardQueue_frame (s : State) (how : Counted) (h : Nat) : (s.discardQueue how h).frame = s.frame := by
  simp [State.discardQueue, foldl_frame]

@[simp] theorem makeBad_frame (s : State) (g : Nat) (cut : Bool) : (s.makeBad g cut).frame = s.frame :=
  foldl_frame (fun t i => by simp) _ _

@[simp] theorem endSdus_frame (s : State) (t : Nat) (p : Sdu → Bool) : (s.endSdus t p).frame = s.frame :=
  foldl_frame (fun s d => by simp [State.endSdu, State.badArrival, foldl_frame]) _ _

/-! ### Lanes and trees -/

@[simp] theorem drivePin_frame (s : State) (t l k n : Nat) (b : Bool) : (s.drivePin t l k n b).frame = s.frame := by
  simp [State.drivePin]

@[simp] theorem pinsLow_frame (s : State) (t l : Nat) : (s.pinsLow t l).frame = s.frame :=
  foldl_frame (fun s k => by simp [State.drivePins, foldl_frame]) _ _

@[simp] theorem laneStops_frame (s : State) (t l : Nat) : (s.laneStops t l).frame = s.frame := by
  simp [State.laneStops, foldl_frame]

@[simp] theorem invalidateKeys_frame (s : State) (t : Nat) : (s.invalidateKeys t).frame = s.frame := by
  simp [State.invalidateKeys, foldl_frame wipeSlot_frame]

@[simp] theorem gridReturn_frame (s : State) (t : Nat) : (s.gridReturn t).frame = s.frame := by
  simp [State.gridReturn, State.regrid, State.regridded]

@[simp] theorem treeStops_frame (s : State) (t : Nat) : (s.treeStops t).frame = s.frame := by
  simp [State.treeStops, foldl_frame]

@[simp] theorem sendOhm_frame (s : State) (ws : List Word) (m : Nat) : (s.sendOhm ws m).frame = s.frame := by
  have hsize : ∀ (t : State) (w n : Nat), (t.countSize m w n).frame = t.frame := fun t w n => by
    unfold State.countSize
    split <;> simp
  have hbw : ∀ (t : State) (b n : Nat), (t.bwAdd b n).frame = t.frame := fun t b n => by
    simp only [State.bwAdd, frame_mon, ite_frame, ite_self]
  simp [State.sendOhm, State.countGood, hsize, hbw]

@[simp] theorem sendLoss_frame (s : State) (t : Nat) : (s.sendLoss t).frame = s.frame := by
  simp [State.sendLoss, State.sendMirror, foldl_frame]

@[simp] theorem reserviceLane_frame (was : State) (t : Nat) (s : State) (l : Nat) :
    (State.reserviceLane was t s l).frame = s.frame := by
  simp [State.reserviceLane]

@[simp] theorem reservice_frame (s was : State) (t : Nat) : (s.reservice was t).frame = s.frame := by
  simp [State.reservice]

@[simp] theorem reserviceAll_frame (s was : State) : (s.reserviceAll was).frame = s.frame :=
  foldl_frame (fun t n => by simp) _ _

@[simp] theorem eachTree_frame (s : State) (f : Tree → Tree) : (s.eachTree f).frame = s.frame :=
  foldl_frame (fun t x => by simp) _ _

@[simp] theorem ageSync_frame (s : State) : s.ageSync.frame = s.frame := by simp [State.ageSync, State.ageSkip]

/-! ### Fields of a word -/

/-- The mask of a field has the field's bits. -/
theorem getLsbD_maskOf {hi lo i : Nat} (h : lo ≤ hi + 1) (hi48 : i < 48) :
    (maskOf hi lo).getLsbD i = decide (lo ≤ i ∧ i ≤ hi) := by
  have hsplit : 2 ^ (hi + 1) - 2 ^ lo = 2 ^ lo * (2 ^ (hi + 1 - lo) - 1) := by
    rw [Nat.mul_sub, Nat.mul_one, ← Nat.pow_add, Nat.add_sub_cancel' h]
  rw [maskOf, BitVec.getLsbD_ofNat, hsplit, Nat.testBit_two_pow_mul, Nat.testBit_two_pow_sub_one, decide_eq_true hi48,
    Bool.true_and, Bool.decide_and]
  by_cases hle : lo ≤ i
  · rw [decide_eq_true hle, Bool.true_and, decide_eq_decide.mpr (show i - lo < hi + 1 - lo ↔ i ≤ hi by omega), Bool.true_and]
  · simp [hle]

/-- A bit of a word with a field stored is that of the value in the field, and as it was beside it. -/
theorem getLsbD_setFld (w : Word) {hi lo i : Nat} (v : Nat) (h : lo ≤ hi + 1) (hi48 : i < 48) :
    (setFld w hi lo v).getLsbD i = if lo ≤ i ∧ i ≤ hi then v.testBit (i - lo) else w.getLsbD i := by
  rw [setFld, getLsbD_merge _ _ _ hi48, getLsbD_maskOf h hi48]
  by_cases hin : lo ≤ i ∧ i ≤ hi
  · have hlt : i - lo < hi + 1 - lo := by omega
    rw [decide_eq_true hin, if_pos rfl, if_pos hin, BitVec.getLsbD_ofNat, Nat.testBit_mul_two_pow, Nat.testBit_mod_two_pow]
    simp only [hi48, hin.1, hlt, decide_true, Bool.true_and]
  · simp only [hin, decide_false, Bool.false_eq_true, if_false]

/-- The bits of a field. -/
theorem testBit_fld (w : Word) (hi lo i : Nat) :
    (fld w hi lo).testBit i = (decide (i < hi + 1 - lo) && w.getLsbD (lo + i)) := by
  rw [fld, bitsOf, Nat.testBit_mod_two_pow, Nat.testBit_div_two_pow, BitVec.getLsbD, Nat.add_comm i lo]

/-- A field just stored reads as the value, cut to its width. -/
theorem fld_setFld_same (w : Word) {hi lo : Nat} (v : Nat) (h : lo ≤ hi + 1) (h48 : hi < 48) :
    fld (setFld w hi lo v) hi lo = v % 2 ^ (hi + 1 - lo) := by
  refine Nat.eq_of_testBit_eq fun i => ?_
  rw [testBit_fld, Nat.testBit_mod_two_pow]
  by_cases hi' : i < hi + 1 - lo
  · have hin : lo ≤ lo + i ∧ lo + i ≤ hi := by omega
    rw [getLsbD_setFld w v h (by omega), if_pos hin, Nat.add_sub_cancel_left]
  · simp [hi']

/-- A field stored leaves every field above it. -/
theorem fld_setFld_above (w : Word) {hi lo hi' lo' : Nat} (v : Nat) (h : lo ≤ hi + 1) (ha : hi < lo') (h48 : hi' < 48) :
    fld (setFld w hi lo v) hi' lo' = fld w hi' lo' := by
  refine Nat.eq_of_testBit_eq fun i => ?_
  rw [testBit_fld, testBit_fld]
  by_cases hi' : i < hi' + 1 - lo'
  · rw [getLsbD_setFld w v h (by omega), if_neg (by omega)]
  · simp [hi']

/-! ### Entering a mode (R132) -/

/-- `t` is `s` but for what the frame does not hold, and for words from the event unit's counters on. -/
structure EvtFrame (s t : State) : Prop where
  frame : t.frame = s.frame
  raw : ∀ a < 0x2000F, t.raw a = s.raw a

theorem EvtFrame.refl (s : State) : EvtFrame s s := ⟨rfl, fun _ _ => rfl⟩

theorem EvtFrame.trans {s t u : State} (h : EvtFrame s t) (g : EvtFrame t u) : EvtFrame s u :=
  ⟨g.frame.trans h.frame, fun a ha => (g.raw a ha).trans (h.raw a ha)⟩

theorem EvtFrame.ite {c : Prop} [Decidable c] {s t u : State} (h : EvtFrame s t) (g : EvtFrame s u) :
    EvtFrame s (if c then t else u) := by
  split
  · exact h
  · exact g

theorem EvtOnly.evtFrame {s t : State} (h : EvtOnly s t) : EvtFrame s t := by
  obtain ⟨⟨_, _, _, rfl⟩, hraw⟩ := h
  exact ⟨rfl, fun a ha => hraw a (.inl ha)⟩

theorem emit_evtFrame (s : State) (o : Out) : EvtFrame s (s.emit o) := ⟨rfl, fun _ _ => rfl⟩

theorem msix_evtFrame (s : State) (f v : Nat) : EvtFrame s (s.msix f v) := by
  obtain ⟨_, _, _, -, hraw⟩ := msix_only s f v
  exact ⟨msix_frame s f v, fun a ha => hraw a (by omega)⟩

/-- Pins that are driven, one after another. -/
theorem emits_evtFrame {β : Type} (o : State → β → Out) (l : List β) (s : State) :
    EvtFrame s (l.foldl (fun t b => t.emit (o t b)) s) :=
  foldl_keeps (fun t b h => h.trans (emit_evtFrame t (o t b))) l s (EvtFrame.refl s)

/-- To enter a mode is a record and the levels of two pins, and then the mode. -/
theorem enterMode_eq (s : State) (m : Mode) (g : Nat) :
    ∃ u, EvtFrame s u ∧ s.enterMode m g = { u with mode := m, prevMode := u.mode, modeTick := u.now + 1 } := by
  have hpin : ∀ (x : State) (c : Bool) (o : Out), EvtFrame x (if c then x else x.emit o) :=
    fun x _ o => .ite (.refl x) (emit_evtFrame x o)
  refine ⟨_, ?_, rfl⟩
  exact ((notice_only s 0x000 0 _).evtFrame.trans (hpin _ _ _)).trans (hpin _ _ _)

theorem enterMode_modes (s : State) (m : Mode) (g : Nat) : (s.enterMode m g).modes = (m, s.mode, s.now + 1) := by
  obtain ⟨u, ⟨hframe, -⟩, hu⟩ := enterMode_eq s m g
  rw [hu, ← mode_of_frame hframe, ← now_of_frame hframe]
  rfl

theorem enterMode_base (s : State) (m : Mode) (g : Nat) : (s.enterMode m g).base = s.base := by
  obtain ⟨u, ⟨hframe, -⟩, hu⟩ := enterMode_eq s m g
  rw [hu, ← base_of_frame hframe]
  rfl

theorem enterMode_raw (s : State) (m : Mode) (g : Nat) {a : Nat} (ha : a < 0x2000F) : (s.enterMode m g).raw a = s.raw a := by
  obtain ⟨u, ⟨-, hraw⟩, hu⟩ := enterMode_eq s m g
  rw [hu, ← hraw a ha]
  rfl

/-! ### A change of mode (R132) -/

theorem ite_modes {c : Prop} [Decidable c] (s t : State) :
    (if c then s else t).modes = if c then s.modes else t.modes := apply_ite _ _ _ _

theorem foldl_modes {β : Type} {f : State → β → State} (h : ∀ s b, (f s b).frame = s.frame) (l : List β) (s : State) :
    (l.foldl f s).modes = s.modes := modes_of_frame (foldl_frame h l s)

theorem modes_tbl (s : State) (x : Tables) : ({ s with tbl := x } : State).modes = s.modes := rfl

theorem modes_drain (s : State) (d : Option Drain) (b : Bool) :
    ({ s with drain := d, drainLimited := b } : State).modes = s.modes := rfl

/-- A change of mode: the new mode, the old one, and the tick of entry (R132). -/
theorem changeMode_modes (s : State) (m : Mode) (g : Nat) : (s.changeMode m g).modes = (m, s.mode, s.now + 1) := by
  have heach : ∀ (x : State) (f : Tree → Tree), (x.eachTree f).modes = x.modes := fun x f => modes_of_frame (eachTree_frame x f)
  have hstop : ∀ x : State, x.stopIllegal.modes = x.modes := fun x => modes_of_frame (stopIllegal_frame x)
  have hserve : ∀ x was : State, (x.reserviceAll was).modes = x.modes := fun x was => modes_of_frame (reserviceAll_frame x was)
  have hfault : ∀ (x : State) (t : Nat), (if x.treeUp t && !x.bankValid t (x.bankActive t) then x.fault 0x281 t 0 else x).frame =
      x.frame := fun x t => by rw [ite_frame, fault_frame, ite_self]
  have hentered : (s.ageSync.enterMode m g).modes = (m, s.mode, s.now + 1) := by
    rw [enterMode_modes, mode_of_frame (ageSync_frame s), now_of_frame (ageSync_frame s)]
  rw [← hentered]
  simp only [State.changeMode, ite_modes, foldl_modes hfault, hserve, hstop, heach, modes_drain, modes_tbl, ite_self]

/-! ### The fatal stop (R149, R478, R548) -/

@[simp] theorem putBack_frame (t u : State) (p : Place) : (t.putBack u p).frame = t.frame := by
  cases p <;> rfl

theorem unretired_frame (s : State) : s.unretired.frame = s.frame := by
  refine foldl_frame (fun t x => ?_) _ _
  unfold State.unretire
  simp only
  split
  · split <;> simp
  · rfl

/-- The state in which a fatal cause is recorded: nothing of levels 6 to 11 of its tick has taken effect, no command has retired
in it, and the record of an automatic change of mode is withdrawn. -/
def State.cleared (s : State) : State := s.withdrawNotice.unretired.undone

theorem undone_modes (s : State) : s.undone.modes = (s.start.mode, s.start.prevMode, s.start.modeTick) := by
  simp only [State.undone]
  rw [foldl_modes fun t (x : Place × Nat) => putBack_frame t s x.1]
  rfl

theorem undone_base (s : State) : s.undone.base = s.base := by
  simp only [State.undone]
  rw [base_of_frame (foldl_frame (fun t (x : Place × Nat) => putBack_frame t s x.1) _ _)]
  rfl

theorem cleared_base (s : State) : s.cleared.base = s.base := by
  rw [State.cleared, undone_base, base_of_frame (unretired_frame _)]
  rfl

theorem cleared_mode (s : State) : s.cleared.mode = s.start.mode := by
  have hstart : s.withdrawNotice.unretired.start = s.start := start_of_base (base_of_frame (unretired_frame s.withdrawNotice))
  have hmode : s.cleared.mode = s.withdrawNotice.unretired.start.mode := congrArg Prod.fst (undone_modes _)
  rw [hmode, hstart]

/-- The state with a fatal cause recorded with its tick (Table 17.14, R548). -/
def State.causeNoted (s : State) (cause src detail : Nat) : State :=
  let t := s.cleared.setReg 0x221 (mkWord [(40, cause), (24, src % 2 ^ 16), (0, detail % 2 ^ 24)])
  (t.setReg 0x222 (toWord t.tick48)).alarm 0 0x001 0 0

/-- The state in DRY, with the lanes that were lit dark and the host told. -/
def State.dried (s : State) (cause src detail : Nat) : State :=
  (s.litLanes.foldl (fun t i => t.emit (.pin 0 i true t.now)) ((s.causeNoted cause src detail).enterMode .dry
    (if cause ≤ 2 then 0 else if cause = 4 then 5 else 4))).msix 0 12

/-- GLB_DUMP tells of the dump: not written where the service processor is held, else being written, and one more begun
(Table 17.14). -/
def State.stopNoted (s : State) : State :=
  if s.sp.held then s.setRf 0x220 47 45 5 else (s.setRf 0x220 47 45 1).setRf 0x220 31 0 (s.rf 0x220 31 0 + 1)

/-- The fatal dump is due, and no operation of the flash goes on. -/
def State.fatalDumpDue (s : State) : State :=
  { s with
    flt := { s.flt with dump :=
      { s.flt.dump with fatal := true, further := 0, toFlash := s.flt.dump.area.isNone || s.board.perst } },
    img := { s.img with op := none } }

theorem stopNoted_frame (s : State) : s.stopNoted.frame = s.frame := by
  rw [State.stopNoted, ite_frame, setRf_frame, setRf_frame, setRf_frame, ite_self]

theorem stopNoted_raw (s : State) {a : Nat} (ha : a ≠ 0x220) : s.stopNoted.raw a = s.raw a := by
  unfold State.stopNoted
  split
  · rw [raw_setRf_ne _ _ _ _ ha]
  · rw [raw_setRf_ne _ _ _ _ ha, raw_setRf_ne _ _ _ _ ha]

/-- The state in GLB_DUMP stands when its count is stored. -/
theorem stopNoted_state {s : State} (h : s.sp.held = false) : s.stopNoted.rf 0x220 47 45 = 1 := by
  rw [State.stopNoted, h, if_neg Bool.false_ne_true, State.rf, State.setRf, raw_setReg_same,
    fld_setFld_above _ _ (by decide) (by decide) (by decide), State.setRf, raw_setReg_same]
  exact fld_setFld_same _ 1 (by decide) (by decide)

section Fatal

variable (s : State) (cause src detail : Nat)

theorem cleared_now : s.cleared.now = s.now := now_of_base (cleared_base s)

theorem causeNoted_frame : (s.causeNoted cause src detail).frame = s.cleared.frame := by
  rw [State.causeNoted, alarm_frame, setReg_frame, setReg_frame]

theorem causeNoted_raw {a : Nat} (ha : a < 0x2000F) : (s.causeNoted cause src detail).raw a =
    if a = 0x222 then toWord s.tick48
    else if a = 0x221 then mkWord [(40, cause), (24, src % 2 ^ 16), (0, detail % 2 ^ 24)] else s.cleared.raw a := by
  rw [State.causeNoted, (alarm_only _ 0 0x001 0 0 (by decide)).evtFrame.raw a ha, raw_setReg, raw_setReg, State.tick48, setReg_now,
    cleared_now, State.tick48]

theorem dried_after : EvtFrame ((s.causeNoted cause src detail).enterMode .dry
    (if cause ≤ 2 then 0 else if cause = 4 then 5 else 4)) (s.dried cause src detail) :=
  (emits_evtFrame (fun t i => .pin 0 i true t.now) _ _).trans (msix_evtFrame _ 0 12)

theorem dried_modes : (s.dried cause src detail).modes = (.dry, s.start.mode, s.now + 1) := by
  rw [modes_of_frame (dried_after s cause src detail).frame, enterMode_modes, mode_of_frame (causeNoted_frame ..),
    now_of_frame (causeNoted_frame ..), cleared_mode, cleared_now]

theorem dried_base : (s.dried cause src detail).base = s.base := by
  rw [base_of_frame (dried_after s cause src detail).frame, enterMode_base, base_of_frame (causeNoted_frame ..), cleared_base]

theorem dried_raw {a : Nat} (ha : a < 0x2000F) :
    (s.dried cause src detail).raw a = (s.causeNoted cause src detail).raw a := by
  rw [(dried_after s cause src detail).raw a ha, enterMode_raw _ _ _ ha]

/-- A fatal cause outside DRY. -/
theorem fatal_eq (hr : s.board.inReset = false) (hm : s.mode ≠ .dry) :
    s.fatal cause src detail = (s.dried cause src detail).stopNoted.fatalDumpDue := by
  rw [State.fatal, hr, if_neg Bool.false_ne_true, if_neg hm]
  rfl

end Fatal

/-- Settles O12: the modes behind each operation, and the words of the record, which nothing of the stop writes after it. -/
theorem modeChangeEntersMode : Obligations.ModeChangeEntersMode := by
  refine ⟨fun s m g => ?change, fun s cause src detail hr hm hh => ?fatal⟩
  case change => simpa only [State.modes, Prod.mk.injEq] using changeMode_modes s m g
  case fatal =>
    have hbase := dried_base s cause src detail
    have hmodes : (s.dried cause src detail).stopNoted.modes = (.dry, s.start.mode, s.now + 1) :=
      (modes_of_frame (stopNoted_frame _)).trans (dried_modes s cause src detail)
    have hnow : (s.dried cause src detail).stopNoted.now = s.now :=
      (now_of_frame (stopNoted_frame _)).trans (now_of_base hbase)
    have hheld : (s.dried cause src detail).sp.held = false := by rw [sp_of_base hbase, hh]
    have hraw := fun a (ha : a < 0x2000F) => (dried_raw s cause src detail ha).trans (causeNoted_raw s cause src detail ha)
    have hcause := (stopNoted_raw _ (by decide)).trans (hraw 0x221 (by decide))
    have hstamp := (stopNoted_raw _ (by decide)).trans (hraw 0x222 (by decide))
    have hstate := stopNoted_state hheld
    rw [fatal_eq s cause src detail hr hm]
    generalize (s.dried cause src detail).stopNoted = t at *
    simp only [State.modes, Prod.mk.injEq] at hmodes
    obtain ⟨hmode, hprev, htick⟩ := hmodes
    exact ⟨hmode, hprev, htick, hnow, hcause, hstamp, hstate, rfl, rfl⟩

/-! ### MODE (R127 to R131) -/

/-- The rows of the MODE commands, each with the targets that it takes. -/
theorem hostRow_mode {i : Instr} {c : Cmd}
    (h : (modeTarget c, i) ∈ [(1, Instr.modeStill c), (2, Instr.modeFlow c), (3, Instr.modeWeir c), (4, Instr.modeDrain c),
      (5, Instr.modeDry c)]) :
    ∃ l, hostRow i = some (c, fun _ => modeRow c l) ∧ l.contains (modeTarget c) = true := by
  simp only [List.mem_cons, Prod.mk.injEq, List.not_mem_nil, or_false] at h
  rcases h with ⟨ht, rfl⟩ | ⟨ht, rfl⟩ | ⟨ht, rfl⟩ | ⟨ht, rfl⟩ | ⟨ht, rfl⟩ <;> exact ⟨_, rfl, by rw [ht]; rfl⟩

section ModeRule

variable {a : State} {c : Cmd} (p : Priv) (n : Nat)

/-- To the present mode (R127). -/
theorem modeRule_present (h : modeTarget c = a.start.mode.code) :
    (modeRule c).run a p n = .fin stDone 0 (a.start.mode.code * 8 + a.start.mode.code) a := by
  simp only [modeRule, h, if_true, Ran.done]

variable (h : modeTarget c ≠ a.start.mode.code)
include h

/-- Out of WEIR under an EPOCH_COMMIT (R131). -/
theorem modeRule_committing (hm : a.start.mode = .weir) (hp : a.commitPending = true) :
    (modeRule c).run a p n = .fin stRejectBusy 0 0 a := by
  have hb : (a.start.mode == .weir && a.commitPending) = true := by simp [hm, hp]
  simp only [modeRule, if_neg h, hb, if_true]

variable (hp : a.start.mode = .weir → a.commitPending = false)
include hp

/-- To a mode other than DRY. -/
theorem modeRule_enters {x : Mode} (hx : modeOfCode (modeTarget c) = some x) (hd : x ≠ .dry) :
    (modeRule c).run a p n = .fin stDone 0 (a.start.mode.code * 8 + modeTarget c) (a.changeMode x 0) := by
  have hb : (a.start.mode == .weir && a.commitPending) = false := by simpa using hp
  simp only [modeRule, if_neg h, hb, hx, Bool.false_eq_true, if_false, Ran.done]

/-- To DRY (R149). -/
theorem modeRule_dry (ht : modeTarget c = 5) :
    (modeRule c).run a p n = .fin stDone 0 (a.start.mode.code * 8 + 5)
      (a.fatal (if c.port = .sp then 2 else 1) (if c.port = .sp then 64 else 0) 0) := by
  have hb : (a.start.mode == .weir && a.commitPending) = false := by simpa using hp
  have hx : modeOfCode (modeTarget c) = some .dry := by rw [ht]; rfl
  simp only [modeRule, if_neg h, hb, hx, Bool.false_eq_true, if_false, Ran.done, beq_iff_eq]

end ModeRule

/-- Settles O11: the row is the rule of MODE, by its target and by the mode at the start of the tick. -/
theorem modeCommandsChangeMode : Obligations.ModeCommandsChangeMode := by
  intro s c i ha hi a m k
  obtain ⟨l, hrow, hl⟩ := hostRow_mode hi
  have hends : ∀ {st re x}, (modeRule c).run a (a.atStart.privOf c.port) (a.seqOf c.port) = .fin st 0 re x →
      exec i s = .next (s.ends c (modeRule c) st 0 re x) := exec_ends hrow (if_pos hl) ha
  refine ⟨fun h => hends (modeRule_present _ _ h), fun h hm hp => hends (modeRule_committing _ _ h hm hp),
    fun h hp => ⟨fun x hx => hends ?enters, fun ht => hends (modeRule_dry _ _ h hp ht)⟩⟩
  have hmode : modeOfCode k = some x ∧ x ≠ .dry := by
    simp only [List.mem_cons, Prod.mk.injEq, List.not_mem_nil, or_false] at hx
    rcases hx with ⟨hk, rfl⟩ | ⟨hk, rfl⟩ | ⟨hk, rfl⟩ | ⟨hk, rfl⟩ <;> rw [hk] <;> decide
  exact modeRule_enters _ _ h hp hmode.1 hmode.2

/-! ### Frame boundaries (R136, R138, R159, R178, R180) -/

/-- Where the device runs behind a wait, the boundary acts. -/
theorem ifRuns_running {s : State} (f : State → State) (h : s.running = true) : s.ifRuns f = f s := by
  rw [State.ifRuns, if_pos h]

section Boundary

variable {s : State} {t : BitVec 7} (hs : s.running = true)
include hs

theorem exec_frameBoundary (hm : s.mode ≠ .spring) (hb : (s.toBoundary t.toNat).running = true) :
    exec (.frameBoundary t) s = .next ((s.toBoundary t.toNat).boundary t.toNat) := by
  have hm' : (s.mode != .spring) = true := by simpa using hm
  simp only [exec, execFrameBoundary, hs, hm', Bool.and_self, if_true, ifRuns_running _ hb]

theorem exec_stoppingBoundary (hu : s.treeUp t.toNat = true)
    (hd : (s.tree t.toNat).stopping = true ∨ ∃ d, s.drain = some d ∧ d.done.isSome = true)
    (hb : (s.toBoundary t.toNat).running = true) :
    exec (.stoppingBoundary t) s = .next ((s.toBoundary t.toNat).stopBoundary t.toNat) := by
  have hd' : ((s.tree t.toNat).stopping || s.drain.any fun d => d.done.isSome) = true := by
    rw [Bool.or_eq_true, Option.any_eq_true]
    exact hd
  simp only [exec, execStoppingBoundary, hs, hu, hd', Bool.and_self, if_true, ifRuns_running _ hb]

theorem exec_treeFirstFrame {n : Nat} {u : State} (ht : s.treeUp t.toNat = true) (hn : (s.tree t.toNat).since = some n)
    (hu : s.waitUntil (max (s.nextBoundaryTick t.toNat) (s.boundaryFrom t.toNat (max s.now (n + 20000)))) = u)
    (hb : u.running = true) : exec (.treeFirstFrame t) s = .next (u.boundary t.toNat) := by
  simp only [exec, execTreeFirstFrame, hn, hs, ht, Bool.and_self, if_true, hu, ifRuns_running _ hb]

theorem exec_laneReturn {l : Bool} {n : Nat} {u : State} (hn : (s.lane t.toNat (b2n l)).returnAt = some n)
    (hu : s.waitUntil (max (s.nextBoundaryTick t.toNat) (s.boundaryFrom t.toNat (max s.now (n + 20000)))) = u)
    (hb : u.running = true) : exec (.laneReturnToService t l) s = .next (u.laneBoundary t.toNat (b2n l)) := by
  simp only [exec, execLaneReturnToService, hn, hs, if_true, hu, ifRuns_running _ hb]

/-! ### Messages, pulses and SET_TX (R112, R283 to R285, R438) -/

theorem exec_msgSendFramed {l : Bool} (hl : s.laneUp t.toNat (b2n l) = true) (ht : (s.tree t.toNat).sending = true) :
    exec (.msgSendFramed t l) s = .next (s.frameMsg t.toNat (b2n l)) := by
  simp only [exec, execMsgSendFramed, hs, hl, ht, Bool.and_self, if_true]

/-- The edge that comes first when no delimiter can move it any more is driven. -/
theorem exec_burstResetPulse {l : Bool} {k k' e f : Nat} {u : State} (he : s.firstEdge t.toNat (b2n l) = some (k, e))
    (hu : s.waitUntil (e + s.pinLag t.toNat (b2n l)) = u) (hb : u.running = true)
    (hf : u.firstEdge t.toNat (b2n l) = some (k', f)) (hlag : f + u.pinLag t.toNat (b2n l) ≤ u.now) :
    exec (.burstResetPulse t l) s = .next (u.drivePin t.toNat (b2n l) k' f (u.pinLevel t.toNat (b2n l) k' f)) := by
  simp only [exec, execBurstResetPulse, hs, he, hu, hb, hf, hlag, if_true]

end Boundary

/-- A pin whose level changes shows it. -/
theorem drivePin_out {s : State} {t l k n : Nat} {high : Bool} (h : ((s.lane t l).pin k).high ≠ high) :
    (s.drivePin t l k n high).out = .pin k (2 * t + l) high n :: s.out := by
  have h' : (((s.lane t l).pin k).high == high) = false := by simpa using h
  simp only [State.drivePin, h', Bool.false_eq_true, if_false]
  rfl

theorem exec_setTxSwitch {s u : State} {q n d q' n' : Nat} (hn : s.nextTx = some (q, n, d)) (hu : s.waitUntil d = u)
    (hb : u.running = true) (hn' : u.nextTx = some (q', n', u.now)) : exec .setTxSwitch s = .next (u.switchTx q' n') := by
  simp only [exec, execSetTxSwitch, hn, hu, hn', hb, beq_self_eq_true, Bool.and_self, if_true]

/-- Settles O38: each row waits for its boundary or edge, and acts where the device still runs. -/
theorem boundariesAndLaneEvents : Obligations.BoundariesAndLaneEvents := by
  refine ⟨⟨fun s t hs hm hb => exec_frameBoundary hs hm hb, fun s t hs hu hd hb => exec_stoppingBoundary hs hu hd hb,
      fun s t n hs ht hn => exec_treeFirstFrame hs ht hn rfl, fun s t l n hs hn => exec_laneReturn hs hn rfl⟩,
    fun s t l hs hl ht => exec_msgSendFramed hs hl ht, fun s t l k k' e f hs he hb hf hlag =>
      ⟨exec_burstResetPulse hs he rfl hb hf hlag, drivePin_out⟩,
    fun s q n d q' n' hn hb hn' => exec_setTxSwitch hn rfl hb hn'⟩

end Sys2Proof.Machine

/-! The statement of the chapter of trees, lanes and uplinks (spec/05_trees_lanes_uplinks.md): the one-word writes of a tree's
window. -/

namespace Sys2Proof.Machine

/-! ### The writes of a tree's window (R178, R179, R181, R183, R185, R472, R473) -/

/-- The words at offset `o` of a tree's window. -/
theorem treeOff_eq_some_iff {a o : Nat} : treeOff a = some o ↔
    0x100000 ≤ a ∧ a < 0x900000 ∧ (a - 0x100000) % 0x10000 = o := by
  unfold treeOff treeOfWord adTree
  split
  · simp only [Option.map_some, Option.some.injEq]
    omega
  · simp only [Option.map_none, reduceCtorEq, false_iff]
    omega

/-- What the write of a word of a tree's window brings. -/
theorem wordHook_tree {x was : State} {w : WordWrite} (h₁ : 0x100000 ≤ w.addr) (h₂ : w.addr < 0x900000) :
    x.wordHook was w = x.hookTree was w := by
  have hlow : ∀ n, n ≤ 0x100000 → ¬ w.addr < n := fun n hn => by omega
  simp [State.wordHook, hlow, h₂]

section TreeWord

variable {x was : State} {w : WordWrite}

theorem wordHook_treCtrl (h : treeOff w.addr = some 0) :
    x.wordHook was w = x.hookCtrl was ((w.addr - 0x100000) / 0x10000) := by
  obtain ⟨h₁, h₂, ho⟩ := treeOff_eq_some_iff.mp h
  simp [wordHook_tree h₁ h₂, State.hookTree, ho]

theorem wordHook_trePonid (h : treeOff w.addr = some 2 ∨ treeOff w.addr = some 3) : x.wordHook was w = x := by
  rcases h with h | h <;> obtain ⟨h₁, h₂, ho⟩ := treeOff_eq_some_iff.mp h <;>
    simp [wordHook_tree h₁ h₂, State.hookTree, ho]

theorem wordHook_trePinctl (h : treeOff w.addr = some 0x10 ∨ treeOff w.addr = some 0x11) :
    x.wordHook was w = (x.pinsFollow was ((w.addr - 0x100000) / 0x10000) ((w.addr - 0x100000) % 0x10000 - 0x10)).reservice
      was ((w.addr - 0x100000) / 0x10000) := by
  rcases h with h | h <;> obtain ⟨h₁, h₂, ho⟩ := treeOff_eq_some_iff.mp h <;>
    simp [wordHook_tree h₁ h₂, State.hookTree, ho]

theorem wordHook_treFtime (h : treeOff w.addr = some 0x20) : x.wordHook was w =
    if !changes was x w.addr 16 0 then x else x.regridded was ((w.addr - 0x100000) / 0x10000) := by
  obtain ⟨h₁, h₂, ho⟩ := treeOff_eq_some_iff.mp h
  cases hc : changes was x w.addr 16 0 <;> simp [wordHook_tree h₁ h₂, State.hookTree, ho, hc]

end TreeWord

/-- The three rows of TRE_CTRL write the first word of a tree's window. -/
theorem treeOff_of_treCtrlRow {w : RegWrite} {s : State}
    (h : rowEnableSet w s = true ∨ rowEnableClear w s = true ∨ rowLineMode w s = true) : treeOff w.addr.toNat = some 0 := by
  simp only [rowEnableSet, rowEnableClear, rowLineMode, Bool.and_eq_true, beq_iff_eq] at h
  rcases h with ⟨ho, -⟩ | ⟨ho, -⟩ | ⟨ho, -⟩ <;> exact ho

theorem treeOff_of_rowTxdisForce {w : RegWrite} {s : State} (h : rowTxdisForce w s = true) :
    treeOff w.addr.toNat = some 0x10 ∨ treeOff w.addr.toNat = some 0x11 := by
  simp only [rowTxdisForce, Bool.and_eq_true, Bool.or_eq_true, beq_iff_eq] at h
  exact h.1

theorem treeOff_of_rowTrePonid {w : RegWrite} {s : State} (h : rowTrePonid w s = true) :
    treeOff w.addr.toNat = some 2 ∨ treeOff w.addr.toNat = some 3 := by
  simpa only [rowTrePonid, Bool.or_eq_true, beq_iff_eq] using h

theorem treeOff_of_rowFphase {w : RegWrite} {s : State} (h : rowFphase w s = true) : treeOff w.addr.toNat = some 0x20 := by
  simp only [rowFphase, Bool.and_eq_true, beq_iff_eq] at h
  exact h.1

/-- An accepted write of one of those three rows ends with what follows from TRE_CTRL. -/
theorem exec_treCtrlRow {s : State} {w : RegWrite} {i : Instr} {isRow : State → Bool}
    (hi : hostRow i = some (w.cmd, ownRow w isRow)) (hrow : isRow (s.reach w.cmd.port) = true)
    (ho : treeOff w.addr.toNat = some 0) (ha : s.acceptsWrite w) :
    exec i s = .next (s.writeEnds w
      ((s.stored w).hookCtrl (s.taken w.cmd (ruleOf w)) ((w.addr.toNat - 0x100000) / 0x10000))) := by
  rw [exec_ownRow hi hrow ha, wordHook_treCtrl (w := w.word) ho]
  rfl

/-! ### A change of TRE_CTRL, case by case (R178, R179, R185) -/

/-- LINE_MODE, or STD_LANE, of the tree differs from what it was. -/
def lineModeMoved (was s : State) (t : Nat) : Bool :=
  changes was s (adTree t 0) 9 8 || changes was s (adTree t 0) 11 11

/-- What ENABLE of the tree brings: the stop begins, or the tree is to start anew behind a stop that is not yet done (the model's
entry 35). -/
def State.enableFollows (s was : State) (t : Nat) : State :=
  if was.treeEnable t && !s.treeEnable t && was.treeUp t then s.setTree t { s.tree t with stopping := true }
  else if !was.treeEnable t && s.treeEnable t && (s.tree t).stopping then s.setTree t { s.tree t with since := some s.now }
  else s

section HookCtrl

variable {s was : State} {t : Nat}

theorem hookCtrl_kept (h : lineModeMoved was s t = false) : s.hookCtrl was t = (s.enableFollows was t).reservice was t := by
  unfold lineModeMoved at h
  simp [State.hookCtrl, State.enableFollows, h]

theorem hookCtrl_moved (h : lineModeMoved was s t = true) :
    s.hookCtrl was t = (((s.dropEqds t).clearDskAll t).enableFollows was t).reservice was t := by
  unfold lineModeMoved at h
  simp only [State.hookCtrl, State.enableFollows, h, if_true]

theorem enableFollows_set (hw : was.treeEnable t = false) (hs : s.treeEnable t = true) (hu : (s.tree t).stopping = false) :
    s.enableFollows was t = s := by
  simp [State.enableFollows, hw, hs, hu]

theorem enableFollows_setStopping (hw : was.treeEnable t = false) (hs : s.treeEnable t = true)
    (hu : (s.tree t).stopping = true) : s.enableFollows was t = s.setTree t { s.tree t with since := some s.now } := by
  simp [State.enableFollows, hw, hs, hu]

theorem enableFollows_cleared (hw : was.treeEnable t = true) (hs : s.treeEnable t = false) (hu : was.treeUp t = true) :
    s.enableFollows was t = s.setTree t { s.tree t with stopping := true } := by
  simp [State.enableFollows, hw, hs, hu]

theorem enableFollows_off (hw : was.treeEnable t = false) (hs : s.treeEnable t = false) : s.enableFollows was t = s := by
  simp [State.enableFollows, hw, hs]

end HookCtrl

/-- Settles O25: each row stores its word, and what the write of that word brings is read off its place in the tree's window. -/
theorem treeWritesTakeEffect : Obligations.TreeWritesTakeEffect := by
  refine ⟨fun s w i hi ha => ?ctrl, fun s was t => ⟨fun hm hw hs hu => ?set, fun hm hw hs hu => ?setStopping,
    fun hm hw hs hu => ?cleared, fun hm hw hs => ?moved⟩, fun s w hrow ha => ?txdis, fun s w hrow ha => ?ponid,
    fun s w hrow ha => ?fphase⟩
  case ctrl =>
    rcases hi with ⟨rfl, hrow⟩ | ⟨rfl, hrow⟩ | ⟨rfl, hrow⟩
    · exact exec_treCtrlRow rfl hrow (treeOff_of_treCtrlRow (.inl hrow)) ha
    · exact exec_treCtrlRow rfl hrow (treeOff_of_treCtrlRow (.inr (.inl hrow))) ha
    · exact exec_treCtrlRow rfl hrow (treeOff_of_treCtrlRow (.inr (.inr hrow))) ha
  case set => rw [hookCtrl_kept hm, enableFollows_set hw hs hu]
  case setStopping => rw [hookCtrl_kept hm, enableFollows_setStopping hw hs hu]
  case cleared => rw [hookCtrl_kept hm, enableFollows_cleared hw hs hu]
  case moved => rw [hookCtrl_moved hm, enableFollows_off hw hs]
  case txdis =>
    rw [exec_ownRow (i := .txdisForce w) rfl hrow ha, wordHook_trePinctl (w := w.word) (treeOff_of_rowTxdisForce hrow)]
    rfl
  case ponid =>
    rw [exec_ownRow (i := .trePonid w) rfl hrow ha, wordHook_trePonid (w := w.word) (treeOff_of_rowTrePonid hrow)]
  case fphase =>
    rw [exec_ownRow (i := .fphase w) rfl hrow ha, wordHook_treFtime (w := w.word) (treeOff_of_rowFphase hrow)]
    rfl

end Sys2Proof.Machine

/-! The statements of the chapter of Sluice programs (spec/06_sluice_programs.md): the steps that move the run, place items or
branch. -/

namespace Sys2Proof.Machine

/-! ### One step of a run (R199)

Each row of an instruction is its effect `f`, taken where the run's next step falls; a clause then says what `f` makes of the
header, the operand words and the run behind the instruction. -/

/-- At an instruction of its opcode, a row that is a step of the run leaves the state and the run of its effect. -/
theorem exec_sluStep {s x u : State} {t op : Nat} {i : Instr} {r r' : Run}
    {f : Word → Word → Word → State → Run → State × Run} (h : x.atRun t op r)
    (hi : exec i s = .next (x.sluStep t op f))
    (hf : f (x.raw (adBank t r.bank r.pc)) (x.raw (adBank t r.bank (r.pc + 1))) (x.raw (adBank t r.bank (r.pc + 2)))
      (x.monEv 11 t 1 1) (r.past op) = (u, r')) :
    exec i s = .next (u.putRun t r') := by
  rw [hi, sluStep_at f h]
  simp only [hf]

/-! ### Steps that move the run (R226, R228 to R231) -/

/-- Settles O39: each row is one step at its place; LOOP splits by its count, ENDLOOP by the iterations left. -/
theorem runStepsMoveTheRun : Obligations.RunStepsMoveTheRun := by
  intro s t r
  refine ⟨fun h => exec_sluStep h rfl rfl, fun h => exec_sluStep h rfl rfl, fun h => exec_sluStep h rfl rfl,
    fun h => exec_sluStep h rfl rfl, fun h => exec_sluStep h rfl ?loop,
    fun h body left i rest hl => exec_sluStep h rfl ?endloop⟩
  case loop =>
    dsimp only
    split <;> rfl
  case endloop =>
    have hl' : (r.past 0x29).loops = (body, left, i) :: rest := hl
    simp only [hl']
    split <;> rfl

/-! ### Steps that place items (R220 to R224, R232 to R235) -/

/-- ALIGN begins with the steps that its row counts taken back, and an ALIGN that does not end stays the present
instruction. -/
theorem past_align (r : Run) : (r.past 0x25).steps - 1 = r.steps ∧ (r.past 0x25).pc - 3 = r.pc := by
  simp [Run.past, sluOps]

/-- Settles O40: each row is one step at its place, with the operand words behind the header; ALIGN waits for the last instant
that it examines. -/
theorem runStepsPlaceItems : Obligations.RunStepsPlaceItems := by
  intro s t r
  refine ⟨fun h => exec_sluStep h rfl rfl, fun h => exec_sluStep h rfl rfl, fun h => exec_sluStep h rfl rfl,
    fun h => exec_sluStep h rfl rfl, fun h => exec_sluStep h rfl rfl, fun h => exec_sluStep h rfl ?align⟩
  obtain ⟨hsteps, hpc⟩ := past_align r
  simp only [hsteps, hpc]
  rfl

/-! ### Steps that branch (R225, R227) -/

/-- A run behind an instruction that skips goes on behind the words skipped, and one that does not at the next instruction. -/
theorem past_skip {r : Run} {op n : Nat} {c : Bool} {p : Prop} [Decidable p] (hc : c = true ↔ p) :
    (r.past op).skip c n =
      { r with steps := r.steps + 1, pc := r.pc + 1 + sluOps op + (if p then n else 0) } := by
  by_cases hp : p
  · rw [Run.skip, if_pos (hc.2 hp), if_pos hp]
    rfl
  · rw [Run.skip, if_neg (mt hc.1 hp), if_neg hp]
    rfl

/-- Settles O41: each skip is one step at its place, whose test is the comparison of the statement. -/
theorem runStepsBranch : Obligations.RunStepsBranch := by
  intro s t r
  refine ⟨fun h => exec_sluStep h rfl (congrArg (Prod.mk _) (past_skip ?lt)),
    fun h => exec_sluStep h rfl (congrArg (Prod.mk _) (past_skip ?ge)),
    fun h => exec_sluStep h rfl (congrArg (Prod.mk _) (past_skip ?cr)), fun h => exec_sluStep h rfl rfl⟩
  case lt => exact iff_of_eq Nat.blt_eq
  case ge => exact iff_of_eq Nat.ble_eq
  case cr => split <;> exact decide_eq_true_iff

end Sys2Proof.Machine

/-! The statements of the chapter of ranging and discovery (spec/07_ranging_discovery.md), with those of its family: bursts
accepted and lost, responses and ranging windows, SDUs and the deskew buffer, and the writes of rings and of the ring unit. -/

namespace Sys2Proof.Machine

/-! ### Delimiter candidates (R263, R287 to R292) -/

section Candidate

variable {s : State} {t l : Nat} {e : Expect} {p : Nat} {h1 h2 : BitVec 64}

theorem candidate_unread (hr : (s.monEv 13 (2 * t + l) 1 1).readHdr t h1 h2 = none) :
    s.candidate t l e p h1 h2 =
      let w := ((s.monEv 13 (2 * t + l) 1 1).setExpect t l e (fun e => { e with rejected := e.rejected + 1 })).bump
        (adBrx t l 0x43) 1
      if e.kind = 1 then w.snBad t else w := by
  simp only [State.candidate, hr]

variable {h : BurstHdr} (hr : (s.monEv 13 (2 * t + l) 1 1).readHdr t h1 h2 = some h)
include hr

theorem candidate_quiet (hk : e.kind = 1) :
    s.candidate t l e p h1 h2 = (s.monEv 13 (2 * t + l) 1 1).acceptQuiet t l e p h := by
  simp only [State.candidate, hr, hk, if_true]

variable {x : State} (hx : (s.monEv 13 (2 * t + l) 1 1).noteDelim t l e p = x)
include hx

theorem candidate_unexpected (hk : e.kind ≠ 1) (ho : x.hdrOk t l e h = false) :
    s.candidate t l e p h1 h2 = x.loseBurst t l e 0x44 := by
  simp only [State.candidate, hr, hk, hx, ho, if_false, Bool.not_false, if_true]

/-- A ranging response that ends beyond its window is lost (R263, entry 127). -/
theorem candidate_outside (ho : x.hdrOk t l e h = true) (hk2 : e.kind = 2) (hf : x.fitsWindow t l e p = false) :
    s.candidate t l e p h1 h2 = x.overWindow t l e := by
  simp [State.candidate, hr, hx, ho, hk2, hf]

theorem candidate_accepted (hk : e.kind ≠ 1) (ho : x.hdrOk t l e h = true)
    (hf : e.kind = 0 ∨ x.fitsWindow t l e p = true) :
    s.candidate t l e p h1 h2 = x.acceptBurst t l e p h := by
  have hin : (decide (e.kind = 2) && !x.fitsWindow t l e p) = false := by rcases hf with hf | hf <;> simp [hf]
  simp only [State.candidate, hr, hk, hx, ho, hin, if_false, Bool.not_true, Bool.false_eq_true]

end Candidate

/-- A candidate is judged in the tick of its header check, where its search is still open then. The wait stands as a function of
its own, so that the kernel does not compute it when it checks the row. -/
theorem exec_burstAccepted {s u : State} {wait : Nat → State} {t : BitVec 7} {l : Bool} {c : Candidate} {e e' : Expect}
    (hw : s.waitUntil = wait) (he : s.candidateFor t.toNat (b2n l) c = some e)
    (hu : wait (s.headerTick t.toNat (b2n l) e.rate c.pos) = u)
    (he' : u.candidateFor t.toNat (b2n l) c = some e') :
    exec (.burstAccepted t l c.pos c.symbols (c.h1, c.h2)) s = .next (u.candidate t.toNat (b2n l) e' c.pos c.h1 c.h2) := by
  rw [exec, execBurstAccepted, hw]
  simp only [he, hu, he']

/-! ### Lost bursts (R24, R298, R299) -/

section Lost

variable {s : State} {t : BitVec 7} {l : Bool} {e : Expect} (hs : s.running = true)
  (hl : s.laneUp t.toNat (b2n l) = true)
include hs hl

/-- Nothing is lost before the tick by which every candidate of the burst has been judged (entry 103). -/
theorem exec_burstLost_unanswered {u : State} {e' : Expect} (he : s.unanswered t.toNat (b2n l) = some e)
    (hu : s.waitUntil (s.closeTick t.toNat (b2n l) e) = u) (hr : u.running = true)
    (he' : u.unanswered t.toNat (b2n l) = some e') (hb : e'.base = e.base) (hi : e'.items = e.items) :
    exec (.burstLost t l false e.first) s = .next (u.loseUnanswered t.toNat (b2n l) e') := by
  simp [exec, execBurstLost, Option.filter, hs, hl, he, hu, hr, he', hb, hi]

theorem exec_burstLost_fifo (he : s.receiving t.toNat (b2n l) = some e) :
    exec (.burstLost t l true e.first) s = .next
      ((s.loseBurst t.toNat (b2n l) e 0x45).fault 0x340 (2 * t.toNat + b2n l) 0) := by
  simp [exec, execBurstLost, State.fifoLost, hs, hl, he]

end Lost

theorem exec_burstsLost {s : State} {h : BitVec 16} {l : Bool} (hs : s.running = true)
    (hn : 2 ^ 17 ≤ s.lossCount h.toNat (b2n l)) :
    exec (.burstsLost h l) s = .next
      ((s.setLoss h.toNat (b2n l) (s.lossCount h.toNat (b2n l) - 2 ^ 16)).notice 0x342 h.toNat (b2n l * 2 ^ 23)) := by
  simp only [exec, execBurstsLost, hs, Nat.ble_eq_true_of_le hn, Bool.and_self, if_true]

/-- Settles O43: a candidate is judged by its header, kind and window, and each loss is taken at its place. -/
theorem burstsAreAcceptedOrLost : Obligations.BurstsAreAcceptedOrLost := by
  refine ⟨fun s t l c e e' he he' => ?candidate, fun s t l e e' hs hl he hr he' hb hi => ?unanswered,
    fun s t l e hs hl he => exec_burstLost_fifo hs hl he, fun s h l hs hn => exec_burstsLost hs hn, fun s l e => rfl⟩
  case candidate =>
    rw [exec_burstAccepted rfl he rfl he']
    refine ⟨fun hr => ?unread, fun h hr => ⟨fun hk => ?quiet, fun hk =>
      ⟨fun ho hf => ?accepted, fun ho hk2 hf => ?outside, fun ho => ?unexpected⟩⟩⟩
    case unread => rw [candidate_unread hr]
    case quiet => rw [candidate_quiet hr hk]
    case accepted => rw [candidate_accepted hr rfl hk ho hf]
    case outside => rw [candidate_outside hr rfl ho hk2 hf]
    case unexpected => rw [candidate_unexpected hr rfl hk ho]
  case unanswered =>
    rw [exec_burstLost_unanswered hs hl he rfl hr he' hb hi, State.loseUnanswered]
    simp only [Bool.or_eq_true, decide_eq_true_eq, beq_iff_eq]

/-! ### Responses and ranging windows (R260, R261, R268) -/

/-- The oldest decoded response is measured in the tick of its message; the wait stands as a function here too. -/
theorem exec_serialNumberResponse {s u v w : State} {wait : Nat → State} {t : BitVec 7} {l : Bool} {m m' : PloamIn}
    (hw : s.waitUntil = wait) (hs : s.running = true)
    (hm : s.takePloam t.toNat (b2n l) (fun x => x.kind == 1) = some (m, v)) (hu : wait (ploamTick m.at_ m.rate) = u)
    (hr : u.running = true) (hm' : u.takePloam t.toNat (b2n l) (fun x => x.kind == 1) = some (m', w)) :
    exec (.serialNumberResponse t l m.at_ m.msg) s =
      .next (w.snMeasured t.toNat (b2n l) m' (ploamTick m.at_ m.rate)) := by
  rw [exec, execSerialNumberResponse, hw]
  simp [Option.filter, hs, hm, hu, hr, hm']

section Ranging

variable {s u : State} {t : BitVec 7} {l : Bool} {e e' : Expect} (he : s.rangeOpen t.toNat (b2n l) = some e)
  (he' : u.rangeOpen t.toNat (b2n l) = some e')
include he he'

/-- A window whose response has been decoded gives its record in the tick of the response. -/
theorem exec_rangingResult_found {v w : State} {m m' : PloamIn} (hm : s.takeRanging t.toNat (b2n l) e = some (m, v))
    (hu : s.waitUntil (ploamTick m.at_ m.rate) = u) (hm' : u.takeRanging t.toNat (b2n l) e' = some (m', w)) :
    exec (.rangingResult t l (some m.msg)) s = .next (w.rangeFound t.toNat (b2n l) e' m') := by
  simp [exec, execRangingResult, he, hm, hu, he', hm']

/-- A window in which no burst was accepted gives its record in the tick of its end (entry 97). -/
theorem exec_rangingResult_empty (hn : e.state ≠ 1) (hu : s.waitUntil (s.rangeEnd t.toNat (b2n l) e) = u)
    (hn' : e'.state ≠ 1) : exec (.rangingResult t l none) s = .next (u.rangeEmpty t.toNat (b2n l) e') := by
  have hm : s.takeRanging t.toNat (b2n l) e = none := if_neg hn
  simp [exec, execRangingResult, he, hm, hn, hu, he', hn']

end Ranging

/-! ### SDUs and the deskew buffer (R300, R304 to R306) -/

section Deskew

variable {s : State} {t : BitVec 7} (hs : s.running = true)
include hs

theorem exec_sduTimeout {u : State} {d : Sdu} (hd : s.oldestSdu t.toNat = some d) (hu : s.waitUntil (d.at_ + 250000) = u)
    (hr : u.running = true) (hc : (u.tree t.toNat).sdus.contains d = true) :
    exec (.sduTimeout t) s = .next (u.endSdu t.toNat d) := by
  simp only [exec, execSduTimeout, hs, hd, hu, hr, hc, Bool.and_self, if_true]

theorem exec_deskewEntry {l : Bool} {x : Nat × Bool × DskFrame} {rest : List (Nat × Bool × DskFrame)}
    (hx : (s.lane t.toNat (b2n l)).toDeskew = x :: rest) :
    exec (.deskewEntry t l) s = .next
      ((s.setLane t.toNat (b2n l) { s.lane t.toNat (b2n l) with toDeskew := rest }).deskewIn t.toNat x) := by
  simp only [exec, execDeskewEntry, State.deskewNext, hs, hx, if_true]

theorem exec_deskewHoldExpiry {u : State} {n : Nat} (hn : s.firstExpiry t.toNat = some n) (hu : s.waitUntil n = u)
    (hr : u.running = true) : exec (.deskewHoldExpiry t) s = .next
      (((u.tree t.toNat).dsk.map (·.1)).foldl (fun s p => s.expireDsk t.toNat p) u) := by
  simp only [exec, execDeskewHoldExpiry, hs, hn, hu, hr, if_true]

end Deskew

/-- Settles O45: each row waits for its tick, and what it finds there is recorded, ended or moved on. -/
theorem responsesAndDeskewComplete : Obligations.ResponsesAndDeskewComplete :=
  ⟨fun _ _ _ _ _ _ _ hs hm hr hm' => exec_serialNumberResponse rfl hs hm rfl hr hm',
    fun _ _ _ _ _ _ _ _ _ he hm he' hm' => exec_rangingResult_found he he' hm rfl hm',
    fun _ _ _ _ _ he hn he' hn' => exec_rangingResult_empty he he' hn rfl hn',
    fun _ _ _ hs hd hr hc => exec_sduTimeout hs hd rfl hr hc, fun _ _ _ _ _ _ _ hs hx => exec_deskewEntry hs hx,
    fun _ _ _ hs hn hr => exec_deskewHoldExpiry hs hn rfl hr⟩

/-! ### The writes of the device's rings (R270, R531) -/

/-- The words of BASE and SIZE: of the event, trace, timestamp and message rings, and of the punt ring. -/
theorem isRingWord_cases {a : Nat} (h : isRingWord a = true) :
    (a = 0x20000 ∨ a = 0x20001) ∨ (a = 0x40018 ∨ a = 0x40019) ∨ (a = 0x80020 ∨ a = 0x80021) ∨
      (treeOff a = some 0x4008 ∨ treeOff a = some 0x4009) ∨ (a = 0x1D00204 ∨ a = 0x1D00205) := by
  simp only [isRingWord, List.contains_eq_mem, List.mem_cons, List.not_mem_nil, or_false, Bool.or_eq_true,
    decide_eq_true_eq, beq_iff_eq] at h
  tauto

/-- What BASE or SIZE of a ring brings: the ring whose word it is starts again. -/
theorem wordHook_ringWord {x was : State} {w : WordWrite} (h : isRingWord w.addr = true) :
    x.wordHook was w =
      if w.addr < 0x20002 then x.evtRingReset
      else if w.addr < 0x80000 then x.ringReset ringTrace
      else if w.addr < 0x90000 then x.ringReset ringTs
      else if w.addr < 0x900000 then x.ringReset ((w.addr - 0x100000) / 0x10000)
      else x.puntRingReset := by
  rcases isRingWord_cases h with h | h | h | h | h
  case inl => rcases h with h | h <;> simp [State.wordHook, State.hookEvt, h]
  case inr.inl => rcases h with h | h <;> simp [State.wordHook, State.hookMon, h]
  case inr.inr.inl => rcases h with h | h <;> simp [State.wordHook, State.hookTim, h]
  case inr.inr.inr.inl =>
    rcases h with h | h <;>
    · obtain ⟨h₁, h₂, ho⟩ := treeOff_eq_some_iff.mp h
      have hlow : ∀ n, n ≤ 0x100000 → ¬ w.addr < n := fun n hn => by omega
      simp [wordHook_tree h₁ h₂, State.hookTree, ho, hlow, h₂]
  case inr.inr.inr.inr => rcases h with h | h <;> simp [State.wordHook, State.hookMem, h]

/-- No ring counts what it discards in its HEAD or TAIL. -/
theorem ringDrop_ne {r : Nat} (hr : r < 131) : ringDrop r ≠ ringBase r + 2 ∧ ringDrop r ≠ ringBase r + 3 := by
  unfold ringDrop ringBase adTree
  split_ifs <;> omega

theorem ring_setRing (s : State) (r : Nat) (u : RingUnit) : (s.setRing r u).ring r = u := smGet_smSet_same ..

theorem raw_setRing (s : State) (r : Nat) (u : RingUnit) (a : Nat) : (s.setRing r u).raw a = s.raw a := rfl

/-- The words of a ring that starts again: HEAD and TAIL are zero, and its waiting records are counted. -/
theorem raw_ringReset (s : State) (r a : Nat) : (s.ringReset r).raw a =
    let z := (s.setReg (ringBase r + 2) 0).setReg (ringBase r + 3) 0
    if a = ringDrop r then z.raw (ringDrop r) + toWord (s.ring r).waiting.length else z.raw a := by
  simp only [State.ringReset, State.ringFlush, raw_setRing, raw_bump]
  rfl

/-- The ring beside its words: nothing waits, nothing can be taken back, and PHASE is 1. -/
theorem ring_ringReset (s : State) (r : Nat) :
    (s.ringReset r).ring r = { s.ring r with waiting := [], last := none, low := false } := by
  simp only [State.ringReset, State.ringFlush, ring_setRing]
  rfl

/-- A ring whose HEAD and TAIL are zero holds no record. -/
theorem ringLevel_zero {s : State} {r : Nat} (hh : s.raw (ringBase r + 2) = 0) (ht : s.raw (ringBase r + 3) = 0) :
    s.ringLevel r = 0 := by
  simp [State.ringLevel, hh, ht]

/-! ### The writes of the ring unit (R490, R493, R498) -/

/-- What the write of a word of the ring unit brings. -/
theorem wordHook_ohm {x was : State} {w : WordWrite} (h₁ : 0x90000 ≤ w.addr) (h₂ : w.addr < 0xA0000) :
    x.wordHook was w = x.hookOhm was w := by
  have hlow : ∀ n, n ≤ 0x90000 → ¬ w.addr < n := fun n hn => by omega
  simp [State.wordHook, hlow, h₂]

theorem rowRecompute_iff {w : RegWrite} {s : State} : rowRecompute w s = true ↔
    w.addr.toNat = 0x90018 ∧ bitOf w.word.trig 0 = true := by
  simp [rowRecompute]

theorem wordHook_recompute {x was : State} {w : WordWrite} (ha : w.addr = 0x90018) (ht : bitOf w.trig 0 = true) :
    x.wordHook was w = x.startDigest := by
  simp [State.wordHook, State.hookOhm, ha, ht]

theorem wordHook_committed {x was : State} {w : WordWrite} (ha : w.addr = 0x90010) : x.wordHook was w = x := by
  simp [State.wordHook, State.hookOhm, ha]

theorem rowRingSwitch_iff {w : RegWrite} {s : State} : rowRingSwitch w s = true ↔
    0x90100 ≤ w.addr.toNat ∧ w.addr.toNat < 0x90200 ∧ w.addr.toNat % 2 = 0 ∧ bitOf w.word.trig 25 = true := by
  simp [rowRingSwitch, and_assoc]

/-- A tree's word of the ring unit, with SWITCH: a tree that is newly standby counts its silence from the next tick. -/
theorem wordHook_ringSwitch {x was : State} {w : WordWrite} {t : Nat} (h₁ : 0x90100 ≤ w.addr) (h₂ : w.addr < 0x90200)
    (he : w.addr % 2 = 0) (ht : bitOf w.trig 25 = true) (hn : (w.addr - 0x90100) / 2 = t) :
    x.wordHook was w =
      ((if x.standby t && !was.standby t then
        { x with ohm := { x.ohm with silent := smSet (fun _ => 0) x.ohm.silent t (x.now + 1) } }
        else x).reservice was t).askHandover t := by
  have hen : w.addr ≠ 0x90000 := by omega
  have hdig : w.addr ≠ 0x90018 := by omega
  rw [wordHook_ohm (by omega) (by omega)]
  simp only [State.hookOhm, hen, hdig, h₁, h₂, he, ht, hn, and_self, if_true, if_false]

/-- Settles O27: each row stores its word, whose write starts the ring again, the digest or the request for the tree. -/
theorem ringWritesTakeEffect : Obligations.RingWritesTakeEffect := by
  refine ⟨fun s w hrow ha => ?reset, fun s r hr => ?indices, fun s w hrow ha => ?recompute, fun s w hrow ha => ?committed,
    fun s w hrow ha => ?switch⟩
  case reset => rw [exec_ownRow (i := .ringReset w) rfl hrow ha, wordHook_ringWord (w := w.word) hrow]; rfl
  case indices =>
    obtain ⟨hd2, hd3⟩ := ringDrop_ne hr
    have hhead : (s.ringReset r).raw (ringBase r + 2) = 0 := by simp [raw_ringReset, hd2.symm, raw_setReg]
    have htail : (s.ringReset r).raw (ringBase r + 3) = 0 := by simp [raw_ringReset, hd3.symm]
    have hdrop : (s.ringReset r).raw (ringDrop r) = s.raw (ringDrop r) + toWord (s.ring r).waiting.length := by
      simp [raw_ringReset, raw_setReg, hd2, hd3]
    exact ⟨hhead, htail, by simp [State.ringPhase, ring_ringReset], ringLevel_zero hhead htail,
      by simp [ring_ringReset], hdrop⟩
  case recompute =>
    obtain ⟨haddr, htrig⟩ := rowRecompute_iff.mp hrow
    rw [exec_ownRow (i := .recompute w) rfl hrow ha, wordHook_recompute haddr htrig]
  case committed =>
    have haddr : w.addr.toNat = 0x90010 := by
      simp only [rowCommitted, Bool.and_eq_true, beq_iff_eq] at hrow
      exact hrow.1
    rw [exec_ownRow (i := .committed w) rfl hrow ha, wordHook_committed haddr]
  case switch =>
    obtain ⟨h₁, h₂, he, ht⟩ := rowRingSwitch_iff.mp hrow
    intro a x t y
    rw [exec_ownRow (i := .ringSwitch w) rfl hrow ha, wordHook_ringSwitch (w := w.word) h₁ h₂ he ht rfl]
    rfl

end Sys2Proof.Machine

/-! The statements of the chapter of burst reception (spec/08_burst_reception.md): what an accepted burst brings leaves the
decoder, and its reports, messages and frames act in their ticks. -/

namespace Sys2Proof.Machine

/-! ### What leaves the decoder (R277 to R282, R293, R294) -/

/-- What is next in line order, of the kind and at the position that the row names, leaves the decoder in its tick. -/
theorem exec_codewordDecoded {s u : State} {t : BitVec 7} {l : Bool} {k : BitVec 2} {x y : NextOut} (rx : List Byte)
    (bad : Bool) (f : List Nat) (hs : s.running = true) (hx : s.nextOut t.toNat (b2n l) = some x) (hk : k.toNat = x.kind)
    (hu : s.waitUntil x.tick = u) (hr : u.running = true) (hy : u.nextOut t.toNat (b2n l) = some y) (hd : y.tick ≤ u.now) :
    exec (.codewordDecoded t l k x.pos rx bad f) s =
      .next (u.decode t.toNat (b2n l) rx (if bad then none else some f) y) := by
  simp [exec, execCodewordDecoded, Option.filter, hs, hx, hk, hu, hr, hy, hd]

/-- An uncorrectable data codeword gives delineation no octets; its element is done with all the same (R294). -/
theorem elementOut_data_uncorrectable {s : State} {t l : Nat} {e : Expect} {x : Element} {p : Nat} {rx : List Byte}
    (hx : x.what = 2) :
    s.elementOut t l e x p rx none =
      (s.setExpect t l e (fun e => { e with next := e.next + 1 })).dataOut t l e x p none := by
  have hreport : x.what ≠ 0 := by omega
  have hploam : x.what ≠ 1 := by omega
  rw [State.elementOut, if_neg hreport, if_neg hploam]

/-! ### Reports, messages and frames (R30, R204, R267, R296, R300 to R304) -/

section Parts

variable {s u : State} {t : BitVec 7} {l : Bool} (hs : s.running = true) (hr : u.running = true)
include hs hr

/-- The oldest decoded report becomes its allocation's bucket in the tick of its stamp. -/
theorem exec_reportReceived {r r' : ReportIn} {k k' : List ReportIn} (hx : (s.lane t.toNat (b2n l)).reports = r :: k)
    (hu : s.waitUntil (stampTick r.out) = u) (hx' : (u.lane t.toNat (b2n l)).reports = r' :: k') :
    exec (.reportReceived t l r.alloc r.occ) s = .next
      (((u.setLane t.toNat (b2n l) { u.lane t.toNat (b2n l) with reports := k' }).report t.toNat (b2n l) r'.alloc
        r'.occ).traceStage r'.trace 4) := by
  simp [exec, execReportReceived, Option.filter, hs, hx, hu, hr, hx']

/-- The oldest decoded message of a granted burst leaves the lane in its tick (`ploamTick`, entries 32 and 122), and becomes a
record where its entry is in use. The wait stands as a function of its own, so that the kernel does not compute it. -/
theorem exec_ploamReceived {v w : State} {wait : Nat → State} {m m' : PloamIn} (hw : s.waitUntil = wait)
    (hm : s.takePloam t.toNat (b2n l) (fun x => x.kind == 0) = some (m, v)) (hu : wait (ploamTick m.at_ m.rate) = u)
    (hm' : u.takePloam t.toNat (b2n l) (fun x => x.kind == 0) = some (m', w)) :
    exec (.ploamReceived t l m.onu m.msg) s = .next
      (if w.onuUsed m'.onu then
        (w.bump (adLaneStat t.toNat (b2n l) 9) 1).ringMsg t.toNat 0 (b2n l) (m'.onu % 512) false false 0
          (ploamTick m.at_ m.rate) m'.msg
      else w) := by
  rw [exec, execPloamReceived, hw]
  simp [Option.filter, hs, hm, hu, hr, hm']

/-- The oldest released frame comes into the core in the tick of its crossing. -/
theorem exec_xgemRelease {x x' : XgemIn} {k k' : List XgemIn} (n : BitVec 14)
    (hx : (s.lane t.toNat (b2n l)).released = x :: k) (hu : s.waitUntil (releaseTick x) = u)
    (hx' : (u.lane t.toNat (b2n l)).released = x' :: k') :
    exec (.xgemRelease t l x.port n) s = .next
      ((u.setLane t.toNat (b2n l) { u.lane t.toNat (b2n l) with released := k' }).takeXgem t.toNat (b2n l) x' n.toNat) := by
  simp [exec, execXgemRelease, Option.filter, hs, hx, hu, hr, hx']

end Parts

/-- Settles O44: each row waits for its tick, and what is first there leaves the decoder or its queue. -/
theorem acceptedBurstsGiveTheirParts : Obligations.AcceptedBurstsGiveTheirParts := by
  refine ⟨fun s t l rx bad f x y hs hx hr hy hd k hk => ?decoded,
    fun s t l e x p rx hx => elementOut_data_uncorrectable hx,
    fun s t l r r' k k' hs hx hr hx' => exec_reportReceived hs hr hx rfl hx',
    fun s v w t l m m' hs hm hr hm' => ?message,
    fun s t l n x x' k k' hs hx hr hx' => exec_xgemRelease hs hr n hx rfl hx'⟩
  case decoded =>
    rw [exec_codewordDecoded rx bad f hs hx hk rfl hr hy hd]
    cases y with
    | element e z p => rfl
    | answer z => rfl
  case message =>
    rw [exec_ploamReceived hs hr rfl hm rfl hm']
    exact ⟨fun hused => by rw [if_pos hused], fun hfree => by simp only [hfree, Bool.false_eq_true, if_false]⟩

end Sys2Proof.Machine

/-! The statements of the chapter of downstream scheduling (spec/09_downstream_scheduling.md), with the writes of its family: the
one-word writes of the gates, the tenants' epochs, the counters and the alarms, the queues and their pages, and the frames and the
punt ring that packets leave by. -/

namespace Sys2Proof.Machine

/-! ### The writes of a MAC's gates (R335) -/

theorem rowGateChange_iff {w : RegWrite} {s : State} : rowGateChange w s = true ↔
    0x1200000 ≤ w.addr.toNat ∧ w.addr.toNat < 0x1220000 ∧ (w.addr.toNat - 0x1200000) % 0x1000 < 0x100 ∧
      (w.addr.toNat - 0x1200000) % 0x1000 % 16 = 1 ∧ bitOf w.word.trig 47 = true := by
  simp [rowGateChange, and_assoc]

/-- The control word of a MAC's gates is no word of a scheduling node. -/
theorem nodeOfWord_gate {a : Nat} (h : 0x1200000 ≤ a) (ho : (a - 0x1200000) % 0x1000 < 0x100)
    (hg : (a - 0x1200000) % 0x1000 % 16 = 1) : nodeOfWord a = none := by
  have hlow : ∀ n, n ≤ 0x1200000 → ¬ a < n := fun n hn => by omega
  simp [nodeOfWord, hlow, ho, hg]

theorem wordHook_gateChange {x was : State} {w : WordWrite} (h₁ : 0x1200000 ≤ w.addr) (h₂ : w.addr < 0x1220000)
    (ho : (w.addr - 0x1200000) % 0x1000 < 0x100) (hg : (w.addr - 0x1200000) % 0x1000 % 16 = 1)
    (ht : bitOf w.trig 47 = true) :
    x.wordHook was w = x.askChange (8 * ((w.addr - 0x1200000) / 0x1000) + (w.addr - 0x1200000) % 0x1000 / 16) := by
  have hlow : ∀ n, n ≤ 0x1200000 → ¬ w.addr < n := fun n hn => by omega
  have hhigh : w.addr < 0x1400000 := by omega
  simp [State.wordHook, hlow, hhigh, State.hookDsq, nodeOfWord_gate h₁ ho hg, h₁, ho, hg, ht]

/-- CHANGE leaves the time of the change with the MAC's gates. -/
theorem pending_askChange (s : State) (m : Nat) : ((s.askChange m).gates m).pending = some (s.changeTime m) :=
  congrArg Gates.pending (smGet_smSet_same ..)

theorem gates_ne_nil_of_pending {s : State} {m c : Nat} (h : (s.gates m).pending = some c) : s.dsq.gates ≠ [] := by
  intro hnil
  simp [State.gates, hnil, smGet, smFind] at h

/-! ### The writes of the key, monitor and event units (R445, R508, R514, R520, R529) -/

theorem rowRekey_iff {w : RegWrite} {s : State} : rowRekey w s = true ↔
    0x70100 ≤ w.addr.toNat ∧ w.addr.toNat < 0x70200 ∧ w.addr.toNat % 4 = 0 ∧ bitOf w.word.trig 47 = true := by
  simp [rowRekey, and_assoc]

theorem wordHook_rekey {x was : State} {w : WordWrite} (h₁ : 0x70100 ≤ w.addr) (h₂ : w.addr < 0x70200)
    (he : w.addr % 4 = 0) (ht : bitOf w.trig 47 = true) : x.wordHook was w = x.switchXts ((w.addr - 0x70100) / 4) := by
  have hlow : ∀ n, n ≤ 0x70100 → ¬ w.addr < n := fun n hn => by omega
  have hhigh : ∀ n, 0x70200 ≤ n → w.addr < n := fun n hn => by omega
  simp [State.wordHook, hlow, hhigh, State.hookTim, h₁, he, ht]

theorem rowBandwidthReset_iff {w : RegWrite} {s : State} : rowBandwidthReset w s = true ↔
    w.addr.toNat = 0x40020 ∧ bitOf w.word.trig 46 = true := by
  simp [rowBandwidthReset]

theorem wordHook_bandwidthReset {x was : State} {w : WordWrite} (ha : w.addr = 0x40020) (ht : bitOf w.trig 46 = true) :
    x.wordHook was w =
      if x.bwReset.rb 0x40020 47 && (!was.rb 0x40020 47 || changes was x.bwReset 0x40020 29 0) then x.bwReset.bwStart
      else x.bwReset := by
  simp [State.wordHook, State.hookMon, ha, ht]

/-- A key that the filter refuses with every value is not found. -/
theorem smFind_filter_none {α : Type} (f : Nat × α → Bool) {m : SMap α} {k : Nat} (h : ∀ v, f (k, v) = false) :
    smFind (m.filter f) k = none := by
  induction m with
  | nil => rfl
  | cons x m ih =>
    obtain ⟨j, v⟩ := x
    by_cases hf : f (j, v) = true
    · have hj : j ≠ k := by
        rintro rfl
        simp [h v] at hf
      simp [hf, smFind, hj, ih]
    · simp [hf, ih]

/-- RESET leaves the words of every bandwidth point at their factory defaults. -/
theorem raw_bwReset {s : State} {a : Nat} (h₁ : 0x4C000 ≤ a) (h₂ : a < 0x4D000) : s.bwReset.raw a = regFactory a := by
  have hnone : smFind s.bwReset.regs a = none := smFind_filter_none _ (fun v => by simp [Bool.eq_false_iff, h₁, h₂])
  rw [State.raw, smGet, hnone, Option.getD_none]

theorem rowMonRun_addr {w : RegWrite} {s : State} (h : rowMonRun w s = true) : w.addr.toNat = 0x40000 := by
  simp only [rowMonRun, Bool.and_eq_true, beq_iff_eq] at h
  exact h.1

theorem wordHook_monRun {x was : State} {w : WordWrite} (ha : w.addr = 0x40000) : x.wordHook was w =
    if changes was x 0x40000 47 47 then { x with mon := { x.mon with runAt := some x.now } } else x := by
  simp [State.wordHook, State.hookMon, ha]

theorem rowTagSeed_addr {w : RegWrite} {s : State} (h : rowTagSeed w s = true) : w.addr.toNat = 0x40011 :=
  beq_iff_eq.mp h

theorem wordHook_tagSeed {x was : State} {w : WordWrite} (ha : w.addr = 0x40011) : x.wordHook was w = x.loadSeed := by
  simp [State.wordHook, State.hookMon, ha]

theorem isAlarmWord_iff {a : Nat} : isAlarmWord a = true ↔ 0x20100 ≤ a ∧ a < 0x20200 := by
  simp [isAlarmWord]

theorem isAlarmWord_of_rowAlarmLevelClear {w : RegWrite} {s : State} (h : rowAlarmLevelClear w s = true) :
    isAlarmWord w.addr.toNat = true := by
  simp only [rowAlarmLevelClear, Bool.and_eq_true] at h
  exact h.1

theorem wordHook_alarmWord {x was : State} {w : WordWrite} (h : isAlarmWord w.addr = true) :
    x.wordHook was w = x.alarmWrite w.addr (w.value &&& w.mask) := by
  obtain ⟨h₁, h₂⟩ := isAlarmWord_iff.mp h
  have hlow : ∀ n, n ≤ 0x20100 → ¬ w.addr < n := fun n hn => by omega
  have hbase : w.addr ≠ 0x20000 := by omega
  have hsize : w.addr ≠ 0x20001 := by omega
  have hhigh : w.addr < 0x40000 := by omega
  simp [State.wordHook, hlow, hhigh, State.hookEvt, hbase, hsize, h]

/-- Settles O26: each row stores its word, and what its write brings is read off the word's place; the change time that CHANGE
leaves, and the words that RESET leaves, are read back. -/
theorem unitWritesTakeEffect : Obligations.UnitWritesTakeEffect := by
  refine ⟨fun s w hrow ha => ⟨?gates, gates_ne_nil_of_pending (pending_askChange _ _), pending_askChange _ _⟩,
    fun s w hrow ha => ?rekey, fun s w hrow ha => ⟨?reset, fun b i hb hi => raw_bwReset (by omega) (by omega)⟩,
    fun s w hrow ha => ?run, fun s w hrow ha => ?seed, fun s w hrow ha => ?level⟩
  case gates =>
    obtain ⟨h₁, h₂, ho, hg, ht⟩ := rowGateChange_iff.mp hrow
    rw [exec_ownRow (i := .gateChange w) rfl hrow ha, wordHook_gateChange (w := w.word) h₁ h₂ ho hg ht]
    rfl
  case rekey =>
    obtain ⟨h₁, h₂, he, ht⟩ := rowRekey_iff.mp hrow
    rw [exec_ownRow (i := .rekey w) rfl hrow ha, wordHook_rekey (w := w.word) h₁ h₂ he ht]
    rfl
  case reset =>
    obtain ⟨haddr, ht⟩ := rowBandwidthReset_iff.mp hrow
    rw [exec_ownRow (i := .bandwidthReset w) rfl hrow ha, wordHook_bandwidthReset haddr ht]
  case run => rw [exec_ownRow (i := .monRun w) rfl hrow ha, wordHook_monRun (rowMonRun_addr hrow)]
  case seed => rw [exec_ownRow (i := .tagSeed w) rfl hrow ha, wordHook_tagSeed (rowTagSeed_addr hrow)]
  case level =>
    rw [exec_ownRow (i := .alarmLevelClear w) rfl hrow ha, wordHook_alarmWord (isAlarmWord_of_rowAlarmLevelClear hrow)]
    rfl

/-! ### Pages and the lanes' requests (R170, R319, R326, R328, R417) -/

/-- A full page whose octets are present is written, in a tick after that of its stamp. -/
theorem exec_pageWrite {s u : State} {p : BitVec 26} {g : Page} (hs : s.traffic = true)
    (hp : (s.page p.toNat).isSome = true) (hu : (if s.cat.stamped.contains p.toNat then s.endTick else s) = u)
    (ht : u.traffic = true) (hg : u.page p.toNat = some g) (hw : g.written = false) (hf : g.fill = pageData)
    (hr : u.pagePresent g = true) : exec (.pageWrite p) s = .next (u.writePage p.toNat g) := by
  obtain ⟨g₀, hp⟩ := Option.isSome_iff_exists.mp hp
  simp only [exec, execPageWrite, hs, hp, hu, ht, hg, hw, hf, hr, if_true, Bool.not_false, beq_self_eq_true, Bool.and_self]

/-- An open page is written once it has been left alone for FLUSH_NS. -/
theorem exec_pageFlush {s u : State} {h : BitVec 19} {x : Nat × Page} {p : Nat} {g : Page}
    (hs : s.flushable h.toNat = some x) (hu : s.waitUntil (s.pageFlushTick h.toNat) = u)
    (ht : u.pageFlushTick h.toNat ≤ u.now) (hg : u.flushable h.toNat = some (p, g)) :
    exec (.pageFlush h) s = .next
      (((u.setDq h.toNat { u.dq h.toNat with openPage := none }).bump 0x1D00409 1).writePage p g) := by
  simp only [exec, execPageFlush, hs, hu, ht, hg, if_true]

/-- The pages that one row reads back for a queue: of the first 8 pages of its packets those written and not yet read. -/
def State.pagesDue (s : State) (h : Nat) : List Nat :=
  ((((s.dq h).entries.flatMap (·.pages)).eraseDups).take 8).filter (fun p =>
    (s.page p).any (fun g => g.written && !g.back))

theorem exec_pageReadBack {s : State} {x : PagesIn} (hs : s.traffic = true) (hx : s.pagesDue x.queue.toNat ≠ []) :
    exec (.pageReadBack x) s = .next
      (((s.pagesDue x.queue.toNat).foldl (fun s p =>
        (s.setPage p ((s.page p).map (fun g => { g with back := true }))).monEv 20 (p / pcPages / 32) 2 1) s).bump
          (0x300 + 2 * 20) x.fixed) := by
  have hne : (s.traffic && !(s.pagesDue x.queue.toNat).isEmpty) = true := by simp [hs, hx]
  exact congrArg Host.Outcome.next (if_pos hne)

/-- A lane that still asks in the tick of its request, and is not behind the other, is served. -/
theorem exec_laneRequest {s u : State} {t : BitVec 7} {l : Bool} (hs : s.laneAsks t.toNat (b2n l) = true)
    (hu : s.waitUntil (s.laneTick t.toNat (b2n l)) = u) (ha : u.laneAsks t.toNat (b2n l) = true)
    (ho : u.otherFirst t.toNat (b2n l) = false) :
    exec (.laneRequest t l) s = .next (u.serveLane t.toNat (b2n l)) := by
  simp only [exec, execLaneRequest, hs, hu, ha, ho, if_true, Bool.not_false, Bool.and_self]

/-- A node that still waits on the calendar when its slot comes leaves the calendar there. -/
theorem exec_calendarEligible {s u : State} {n k : Nat} {x : Bool} {b b' : Bucket} (hs : s.running = true)
    (hb : s.bucket? n (b2n x) = some b) (hk : b.slot = some k) (hu : (s.toFine n (b2n x)).waitUntil k = u)
    (hr : u.running = true) (hb' : u.bucket? n (b2n x) = some b') (hk' : b'.slot = some k) :
    exec (.calendarEligible n x) s = .next (u.putBucket n (b2n x) (some { b' with slot := none })) := by
  simp only [exec, execCalendarEligible, hs, hb, hk, hu, hr, hb', hk', if_true, Option.bind_some]

/-- Settles O48: each row waits for its tick, and what is found there is written, read back, served or made eligible. -/
theorem queuesSpillAndServe : Obligations.QueuesSpillAndServe :=
  ⟨fun _ _ _ hs hp ht hg hw hf hr => exec_pageWrite hs hp rfl ht hg hw hf hr,
    fun _ _ _ _ _ _ hs ht hg => exec_pageFlush hs rfl ht hg,
    fun _ _ _ hs hne => exec_pageReadBack hs hne,
    fun _ _ _ hs ha ho => exec_laneRequest hs rfl ha ho,
    fun _ _ _ _ _ _ hs hb hk hr hb' hk' => exec_calendarEligible hs hb hk rfl hr hb' hk'⟩

/-! ### Frames, gates and the MACs that go down (R195, R333, R335) -/

/-- A MAC's frame starts when its line is free, unless two have started on its port in that tick. -/
theorem exec_macFrameStart {s u : State} {m : BitVec 8} (hs : s.traffic = true) (hm : s.macUp m.toNat = true)
    (hu : s.waitUntil (ceilDiv (smGet (fun _ => 0) s.dsq.lineFree m.toNat) 100) = u) (ht : u.traffic = true)
    (hm' : u.macUp m.toNat = true)
    (hl : ((smGet (fun _ => []) u.dsq.lastStart (m.toNat / 8)).filter (· == u.now)).length < 2) :
    exec (.macFrameStart m) s = .next (u.startFrame m.toNat) := by
  have htwo : u.twoStarted (m.toNat / 8) = false := by
    rw [State.twoStarted, ← Bool.not_eq_true, Nat.ble_eq]
    omega
  simp only [exec, execMacFrameStart, hs, hm, hu, ht, hm', htwo, if_true, Bool.not_false, Bool.and_self]

section Gates

variable {s u : State} {m : BitVec 8} (hs : s.running = true) (hr : u.running = true)
include hs hr

/-- The gate entry that applies when the next one is due is entered there. The wait stands as a function of its own, so that the
kernel does not compute it when it checks the row. -/
theorem exec_gateEntry {wait : Nat → State} {y b i : Nat} (hw : s.waitUntil = wait)
    (hy : (s.gatesAt m.toNat s.gateNow).2.2 = some y) (hu : wait (s.tickOfNt (y * 2 ^ 40)) = u)
    (hi : (u.gatesAt m.toNat u.gateNow).2.1 = some (b, i)) :
    exec (.gateEntry m) s = .next (u.enterGate m.toNat b i) := by
  rw [exec, execGateEntry, hw]
  simp only [hs, hy, hu, hr, hi, if_true]

/-- A change of lists that is still pending at its time takes effect. -/
theorem exec_gateListChangeTime {c : Nat} (hc : (s.gates m.toNat).pending = some c)
    (hu : s.waitUntil (s.tickOfNt (c * 2 ^ 40)) = u) (hc' : (u.gates m.toNat).pending = some c) :
    exec (.gateListChangeTime m) s = .next (u.changeGates m.toNat u.gateNow) := by
  simp only [exec, execGateListChangeTime, hs, hc, hu, hr, hc', if_true, beq_self_eq_true, Bool.and_self]

end Gates

theorem exec_lagMemberDown {s : State} {m : BitVec 8} (hs : s.running = true) :
    exec (.lagMemberDown m) s = .next (s.emptyMac m.toNat) :=
  congrArg Host.Outcome.next (if_pos hs)

/-! ### The punt ring (R423, R424) -/

section Punt

variable {s : State} {i : Nat} {p : Packet} (hp : s.puntDue = some (i, p))
include hp

theorem exec_puntRecordWrite_bad (hb : p.bad = true) :
    exec .puntRecordWrite s = .next ((s.bump (0x1C00001 + 4 * 31) 1).killPkt i) := by
  simp only [exec, execPuntRecordWrite, hp, hb, if_true]

variable (hb : p.bad = false)
include hb

theorem exec_puntRecordWrite_open (hn : (s.bucket? ndPunt 0).bind (·.slot) = none) :
    exec .puntRecordWrite s = .next (s.puntRecord i p) := by
  simp only [exec, execPuntRecordWrite, hp, hb, hn, Bool.false_eq_true, if_false]

/-- While the shaper holds the ring back, the packet that is next when it lets one go is written. -/
theorem exec_puntRecordWrite_shaped {u : State} {n j : Nat} {p' : Packet}
    (hn : (s.bucket? ndPunt 0).bind (·.slot) = some n) (hu : s.waitUntil n = u) (hp' : u.puntDue = some (j, p'))
    (hb' : p'.bad = false) : exec .puntRecordWrite s = .next (u.puntRecord j p') := by
  simp only [exec, execPuntRecordWrite, hp, hb, hn, hu, hp', hb', Bool.false_eq_true, if_false]

end Punt

/-- Settles O49: each row waits for its tick; a punted packet splits by its being bad and by the shaper. -/
theorem egressAndPuntComplete : Obligations.EgressAndPuntComplete :=
  ⟨fun _ _ hs hm ht hm' hl => exec_macFrameStart hs hm rfl ht hm' hl,
    fun _ _ _ _ _ hs hy hr hi => exec_gateEntry hs hr rfl hy rfl hi,
    fun _ _ _ hs hc hr hc' => exec_gateListChangeTime hs hr hc rfl hc',
    fun _ _ hs => exec_lagMemberDown hs,
    fun _ _ _ hp => ⟨exec_puntRecordWrite_bad hp, exec_puntRecordWrite_open hp,
      fun hb _ _ _ hn hp' hb' => exec_puntRecordWrite_shaped hp hb hn rfl hp' hb'⟩⟩

end Sys2Proof.Machine

/-! The statement on deferred releases (R363, R101, R448, R444): of the retiring generation, a walk context, the key-unit lock and a
tenant's other epoch. -/

namespace Sys2Proof.Machine

/-- The retiring generation is freed in the tick that its packets leave, where it may retire then (R363). -/
theorem exec_genSwapRetire {s u : State} {n : Nat} (hs : s.running = true) (hg : s.retiring = true)
    (hn : s.retireTick = some n) (hu : s.waitUntil n = u) (hr : u.running = true) (hf : u.retireNow = true) :
    exec .genSwapRetire s = .next u.freeCopy := by
  simp only [exec, execGenSwapRetire, hs, hg, hn, hu, hr, hf, Bool.and_self, if_true]

/-- A walk context that no TBL_NEXT uses is released CMD_WALK.IDLE_S seconds after its last use (R101). -/
theorem exec_walkContextRelease {s u : State} {x : BitVec 3} {w : Walk} (hs : s.running = true)
    (hw : s.walk x.toNat = some w) (hb : s.walkBusy x.toNat = false)
    (hu : s.waitUntil (w.used + s.rf 0x11007 15 0 * 10 ^ 9) = u) (hr : u.running = true) :
    exec (.walkContextRelease x) s = .next (u.setWalk x.toNat none) := by
  simp only [exec, execWalkContextRelease, hs, hw, hb, hu, hr, Bool.not_false, Bool.and_self, if_true]

section Lease

variable {s : State} {q e : Nat} (hl : s.key.lock = some (q, e)) (hk : s.keyOpRuns q = false)
include hl hk

/-- While the lease does not stand still for a command of its holder (entry 111), the row waits for its last tick and ends that tick
(R448). -/
theorem exec_leaseExp {u : State} (hu : s.waitUntil e = u) : exec .leaseExp s = .next u.endTick := by
  simp only [exec, execLeaseExp, hl, hk, hu, Bool.false_eq_true, if_false]

/-- What the end of that tick does with the lock (R448). -/
theorem leaseEnd_expired (he : e ≤ s.now) :
    s.leaseEnd = ({ s with key := { s.key with lock := none } }.bump 0x70012 1).notice 0x140 q 0 := by
  simp only [State.leaseEnd, hl, hk, decide_eq_true he, Bool.not_false, Bool.and_self, if_true]

end Lease

/-- The next key is drawn for the epoch that holds no page, and READY tells it (R444). -/
theorem exec_xtsKeyDraw {s : State} {t : BitVec 6} {other : Nat} (hs : s.running = true)
    (hx : s.xtsReady t.toNat = false) (ho : 1 - s.xtsEpoch t.toNat = other) (hp : s.raw (adXts t.toNat (2 + other)) = 0) :
    exec (.xtsKeyDraw t) s = .next ((s.drawXts t.toNat other).setRf (adXts t.toNat 0) 45 45 1) := by
  simp only [exec, execXtsKeyDraw, hs, hx, ho, hp, Bool.not_false, beq_self_eq_true, Bool.and_self, if_true]

/-- Settles O51: each release waits for its tick and then acts on what it frees. -/
theorem deferredReleasesHappen : Obligations.DeferredReleasesHappen :=
  ⟨fun _ _ hs hg hn hr hf => exec_genSwapRetire hs hg hn rfl hr hf,
    fun _ _ _ hs hw hb hr => exec_walkContextRelease hs hw hb rfl hr,
    fun _ _ _ hl hk => exec_leaseExp hl hk rfl,
    fun _ _ _ hl he hk => leaseEnd_expired hl hk he,
    fun _ _ hs hx hp => exec_xtsKeyDraw hs hx rfl hp⟩

end Sys2Proof.Machine

/-! The statement on the table engines (R383, R384, R387, R379): the learn engine, the aging scanner, and the scrubs of queued slots
and of those to which the patrol comes. -/

namespace Sys2Proof.Machine

/-! ### The learn engine (R104, R369 to R371, R383, R384) -/

/-- The idle engine takes the request at the front of its queue. -/
theorem learnTake_idle {s : State} {r : LearnReq} {l : List LearnReq} (hl : s.tbl.learn = r :: l)
    (hg : s.tbl.going = none) :
    s.learnTake =
      { s with tbl := { s.tbl with learn := l, going := some (r, Insertion.fresh 1 (learnedEntry r)) } } := by
  simp only [State.learnTake, hl, hg]

theorem exec_learnEngineStep {s : State} (ht : s.traffic = true) (hl : s.tbl.learn ≠ []) (hg : s.tbl.going = none) :
    exec .learnEngineStep s = .next s.learnTake.someFixed := by
  have hfree : (s.traffic && !s.tbl.learn.isEmpty && s.tbl.going.isNone) = true := by simp [ht, hl, hg]
  exact congrArg Host.Outcome.next (if_pos hfree)

/-- What the engine makes of one step of its insertion (R370, R371): it goes on, gives up, or puts the entry in the slot found. -/
def State.learnStepped (s : State) (r : LearnReq) : InsOut → State
  | .full => (s.learnFail r).learnIdle
  | .more j u => u.learnOn r j
  | .room k => ((s.addEntry 1 k (learnedEntry r)).bump 0x1800010 1).learnIdle

section LearnTick

variable {s : State} {r : LearnReq} {i : Insertion} (hg : s.tbl.going = some (r, i))
include hg

/-- Nothing is learned on a bridge port under TBL_FLUSH_PORT (R104). -/
theorem learnTick_flushing (hf : s.flushing r.port = true) : s.learnTick = (s.learnFail r).learnIdle := by
  simp only [State.learnTick, hg, hf, if_true]

variable (hf : s.flushing r.port = false)
include hf

/-- An address that the read finds in the table is refreshed or moved, unless a command step has written a copy of it in this tick
(R369). -/
theorem learnTick_found {k : Nat} {ws : List Word} (hp : i.phase = .read) (hm : s.findMac r.bd r.mac = some (k, ws)) :
    s.learnTick =
      if s.copyTouched (entryKey 1 ws) then s.learnOn r i.again else (s.learnFound r ws).learnIdle := by
  simp only [State.learnTick, hg, hf, hp, hm, Bool.false_eq_true, if_false]

/-- For an address that is not in the table, the tick does one step of the insertion. -/
theorem learnTick_absent (hm : s.findMac r.bd r.mac = none) :
    s.learnTick = s.learnStepped r (s.insertStep i (fun x => s.tbl.cmdSlots.contains x)) := by
  simp only [State.learnTick, hg, hf, hm, Bool.false_eq_true, if_false]
  cases i.phase <;> rfl

end LearnTick

/-! ### The aging scanner (R387) -/

/-- A scanner that still has a slot to change when its time has come notes the visit for the end of the tick, and moves on. -/
theorem exec_agingVisit {s u v : State} {g k : Nat} (ha : s.aging = true) (hp : s.ageStep ≠ 0) (hg : s.ageGap = some g)
    (hu : s.ageWait (ceilDiv (s.ageSkip g).tbl.ageAt (2 ^ 22) - s.now) = u) (hr : u.running = true)
    (ha' : u.aging = true) (hk : u.ageGap = some k) (hv : u.ageSkip k = v) (ht : v.tbl.ageAt ≤ u.now * 2 ^ 22) :
    exec .agingVisit s = .next
      { v.ageSkip 1 with tbl := { (v.ageSkip 1).tbl with visits := v.tbl.ageSlot :: v.tbl.visits } }.someFixed := by
  simp only [exec, execAgingVisit, hg, ha, bne_iff_ne.mpr hp, hu, hr, ha', hk, hv, ht, Bool.and_self, if_true]

section AgeVisit

variable {s : State} {k : Nat} {ws : List Word} (he : s.slotEntry 1 k = some ws)
include he

theorem ageVisit_static (hs : macStatic ws = true) : s.ageVisit k = s := by
  simp only [State.ageVisit, he, hs, if_true]

variable (hs : macStatic ws = false)
include hs

/-- An entry that was hit since the last visit loses HIT, and its age. -/
theorem ageVisit_hit (hh : bitOf (nth ws 2 0) 45 = true) :
    s.ageVisit k = s.storeSlot 1 k [nth ws 0 0, nth ws 1 0, setFld (nth ws 2 0) 45 43 0] := by
  simp only [State.ageVisit, he, hs, hh, Bool.false_eq_true, if_false, if_true]

/-- One that was not hit grows older, and goes at age 3. -/
theorem ageVisit_unhit (hh : bitOf (nth ws 2 0) 45 = false) :
    s.ageVisit k =
      if fld (nth ws 2 0) 44 43 < 3 then
        s.storeSlot 1 k [nth ws 0 0, nth ws 1 0, setFld (nth ws 2 0) 44 43 (fld (nth ws 2 0) 44 43 + 1)]
      else (s.removeSlot 1 k).bump 0x1800017 1 := by
  simp only [State.ageVisit, he, hs, hh, Bool.false_eq_true, if_false]

end AgeVisit

/-! ### Scrubs (R369, R379, R543) -/

/-- The next queued slot of a running device leaves the queue for the scrubs of the tick. -/
theorem exec_scrubStep {s u : State} {t : BitVec 2} {k : Nat} {l : List Nat} (hs : s.running = true)
    (hq : smGet (fun _ => []) s.tbl.scrub (t.toNat + 1) = k :: l) (hu : s.unqueueScrub (t.toNat + 1) k = u) :
    exec (.scrubStep t) s = .next { u with tbl := { u.tbl with scrubs := u.tbl.scrubs ++ [(t.toNat + 1, k)] } } := by
  simp only [exec, execScrubStep, hq, hs, hu, if_true]

/-- Where one slot alone is due, from the queue or from the patrol, the end of the tick scrubs it while it has an error. -/
theorem scrubTick_single {s : State} {t k : Nat}
    (hl : s.tbl.scrubs ++ ((s.patrolDues.filter (fun x => x.1 == s.now)).map (·.2)) = [(t, k)]) :
    s.scrubTick = if s.slotBad t k then (s.scrub t k).unqueueScrub t k else s := by
  simp only [State.scrubTick, hl, List.foldl_cons, List.foldl_nil]

theorem scrubTick_queued {s : State} {t k : Nat} (hq : s.tbl.scrubs = [(t, k)])
    (hd : ∀ x ∈ s.patrolDues, x.1 ≠ s.now) :
    s.scrubTick = if s.slotBad t k then (s.scrub t k).unqueueScrub t k else s := by
  have hnone : s.patrolDues.filter (fun x => x.1 == s.now) = [] :=
    List.filter_eq_nil_iff.mpr fun x hx => by simpa using hd x hx
  exact scrubTick_single (by rw [hq, hnone, List.map_nil, List.append_nil])

theorem scrubTick_patrolled {s : State} {t k : Nat} (hq : s.tbl.scrubs = [])
    (hd : s.patrolDues.filter (fun x => x.1 == s.now) = [(s.now, t, k)]) (hb : s.slotBad t k = true) :
    s.scrubTick = (s.scrub t k).unqueueScrub t k := by
  rw [scrubTick_single (t := t) (k := k) (by rw [hq, hd]; rfl), if_pos hb]

/-- The patrol waits for its tick; there it counts the words corrected in a slot without an error, and leaves one that has an error to
the end of the tick. -/
theorem exec_patrolScrubVisit {s u : State} {t : BitVec 2} {k n : Nat} (hs : s.running = true) (hm : s.mode ≠ .spring)
    (hu : s.waitUntil (s.patrolTick (t.toNat + 1) k) = u) (hr : u.running = true) (hm' : u.mode ≠ .spring) :
    exec (.patrolScrubVisit t { slot := k, fixed := n }) s = .next
      (if u.slotBad (t.toNat + 1) k then u else u.wordsFixed n) := by
  simp only [exec, execPatrolScrubVisit, hs, bne_iff_ne.mpr hm, hu, hr, bne_iff_ne.mpr hm', Bool.and_self, if_true,
    Bool.true_and]
  cases u.slotBad (t.toNat + 1) k <;> rfl

/-- Settles O50: the engines start their work in their rows, and the end of the tick does it. -/
theorem tableEnginesStep : Obligations.TableEnginesStep := by
  refine ⟨⟨?learnTake, ?learnTick, ?aging, ?queue, fun _ _ _ hq hd => scrubTick_queued hq hd,
    fun _ _ _ hq hd hb => scrubTick_patrolled hq hd hb, ?patrol⟩, ?age⟩
  case learnTake =>
    intro s r l ht hl hg
    rw [exec_learnEngineStep ht (hl ▸ List.cons_ne_nil r l) hg, learnTake_idle hl hg]
  case learnTick =>
    intro s r i hg
    refine ⟨learnTick_flushing hg, fun k ws hf hp hm => ?_, fun hf _ hm => ?_⟩
    · rw [learnTick_found hg hf hp hm]
      exact ⟨fun h => if_pos h, fun h => if_neg (Bool.eq_false_iff.mp h)⟩
    · rw [learnTick_absent hg hf hm]
      exact ⟨fun _ h => congrArg _ h, fun h => congrArg _ h, fun _ _ h => congrArg _ h⟩
  case aging => exact fun _ _ ha hp hg _ hr ha' hk ht => exec_agingVisit ha hp hg rfl hr ha' hk rfl ht
  case queue => exact fun _ _ _ _ hs hq => exec_scrubStep hs hq rfl
  case patrol =>
    intro s t k n hs hm u hr hm'
    rw [exec_patrolScrubVisit hs hm rfl hr hm']
    exact ⟨fun h => congrArg _ (if_pos h), fun h => congrArg _ (if_neg (Bool.eq_false_iff.mp h))⟩
  case age =>
    intro s k ws he
    refine ⟨ageVisit_static he, ageVisit_hit he, fun hs hh ha => ?_, fun hs hh ha => ?_⟩
    · exact (ageVisit_unhit he hs hh).trans (if_pos ha)
    · exact (ageVisit_unhit he hs hh).trans (if_neg ha.not_lt)

end Sys2Proof.Machine


/-! ## A step, its queue and the fuses (SPEC 03, 18) -/

namespace Sys2Proof.Machine

/-- Settles O1: the step is the front row on the rest of the queue, or one tick. -/
theorem stepExecutesFrontRow : Obligations.StepExecutesFrontRow :=
  ⟨fun s i rest h => by simp [step, h], fun s h => by simp [step, h]⟩

/-- Settles O60: a part as made has no flash operation under way (Tables 18.1 and 18.11). -/
theorem resetFusesUnblown : Obligations.ResetFusesUnblown :=
  ⟨fun _ ho => (nomatch ho), rfl, rfl, rfl⟩

/-! ### The functions that leave the queue, the fuses and the flash operation alone

The lemmas stand in the order of the model's definitions. `(rfl)` in place of `rfl` keeps such a lemma from being used as a
definitional unfolding: `simp` rewrites with it, and the kernel never evaluates the states. -/

/-- What no step may break: the queue of waiting rows, the fuses (Table 18.2) and the flash operation under way. -/
structure Held where
  pending : List Instr
  key : Option (BitVec 128)
  fwMin : Nat
  imgMin : Nat
  op : Option ImgOp

/-- The part of a state that `Held` names. A function of the model that does not touch it has a lemma `held_<function>` below;
one that does has a lemma `keeps_<function>`. -/
def State.held (s : State) : Held := ⟨s.pending, s.img.key, s.img.fwMin, s.img.imgMin, s.img.op⟩

@[simp] theorem held_mk (d : Device) (p : List Instr) (o : List Out) (f : Nat) (st : Device) (c : List (Place × Nat)) :
    (State.mk d p o f st c).held = ⟨p, d.img.key, d.img.fwMin, d.img.imgMin, d.img.op⟩ := (rfl)
@[simp] theorem held_fold (s : State) :
    Held.mk s.pending s.img.key s.img.fwMin s.img.imgMin s.img.op = s.held := (rfl)

/-- The state that a run of a rule leaves, however it ends. -/
def Ran.after : Ran → State
  | .fin _ _ _ s => s
  | .wait _ _ s => s
  | .viol _ _ _ s => s

@[simp] theorem after_fin (st pr re : Nat) (s : State) : (Ran.fin st pr re s).after = s := (rfl)
@[simp] theorem after_wait (pr : Nat) (w : Wait) (s : State) : (Ran.wait pr w s).after = s := (rfl)
@[simp] theorem after_viol (r : Nat) (u v : Word) (s : State) : (Ran.viol r u v s).after = s := (rfl)
@[simp] theorem held_ite {c : Prop} [Decidable c] (s t : State) :
    (if c then s else t).held = if c then s.held else t.held := apply_ite ..
@[simp] theorem after_ite {c : Prop} [Decidable c] (s t : Ran) :
    (if c then s else t).after = if c then s.after else t.after := apply_ite ..
@[simp] theorem held_foldl {β : Type} {f : State → β → State} (hf : ∀ s b, (f s b).held = s.held) (l : List β)
    (s : State) :
    (l.foldl f s).held = s.held := by
  induction l generalizing s with
  | nil => rfl
  | cons b l ih => exact (ih _).trans (hf s b)

/-! #### Functions of Machine/Ops -/

@[simp] theorem held_setReg (s : State) (a : Nat) (w : Word) : (s.setReg a w).held = s.held := (rfl)
@[simp] theorem held_setRegs (s : State) (a : Nat) (ws : List Word) : (s.setRegs a ws).held = s.held := (rfl)
@[simp] theorem held_setRf (s : State) (a hi lo v : Nat) : (s.setRf a hi lo v).held = s.held := (rfl)
@[simp] theorem held_bump (s : State) (a n : Nat) : (s.bump a n).held = s.held := (rfl)
@[simp] theorem held_claim (s : State) (lvl : Nat) (ps : List Place) : (s.claim lvl ps).held = s.held := (rfl)

@[simp] theorem held_putBack (t u : State) (x2 : Place) : (t.putBack u x2).held = t.held := by
  simp only [State.putBack]
  split <;> simp

@[simp] theorem held_keepClaims (u t : State) : (u.keepClaims t).held = t.held := by simp [State.keepClaims]
@[simp] theorem held_undone (s : State) : s.undone.held = s.held := by simp [State.undone]
@[simp] theorem held_drew (s : State) : s.drew.held = s.held := (rfl)
@[simp] theorem held_emit (s : State) (o : Out) : (s.emit o).held = s.held := (rfl)

@[simp] theorem held_monOne (s : State) (u inst ev n k : Nat) : (s.monOne u inst ev n k).held = s.held := by
  simp [State.monOne]

@[simp] theorem held_monEv (s : State) (u inst ev n : Nat) : (s.monEv u inst ev n).held = s.held := by simp [State.monEv]

@[simp] theorem held_msix (s : State) (function vector : Nat) : (s.msix function vector).held = s.held := by
  simp [State.msix]

@[simp] theorem held_stage (s : State) (r : EvRec) : (s.stage r).held = s.held := by
  simp only [State.stage]
  split <;> simp

@[simp] theorem held_event (s : State) (cls code : Nat) (arg : Word) : (s.event cls code arg).held = s.held := by
  simp [State.event]

@[simp] theorem held_fault (s : State) (code src detail : Nat) : (s.fault code src detail).held = s.held := by
  simp [State.fault]

@[simp] theorem held_notice (s : State) (code src detail : Nat) : (s.notice code src detail).held = s.held := by
  simp [State.notice]

@[simp] theorem held_traceEv (s : State) (code src detail : Nat) : (s.traceEv code src detail).held = s.held := by
  simp [State.traceEv]

@[simp] theorem held_alarm (s : State) (alarm code src detail : Nat) :
    (s.alarm alarm code src detail).held = s.held := (rfl)

@[simp] theorem held_alarmClear (s : State) (alarm code inst : Nat) : (s.alarmClear alarm code inst).held = s.held := by
  simp [State.alarmClear]

@[simp] theorem held_bwAdd (s : State) (b n : Nat) : (s.bwAdd b n).held = s.held := by simp [State.bwAdd]
@[simp] theorem held_setTrace (s : State) (i : Nat) (t : Option TraceSlot) : (s.setTrace i t).held = s.held := (rfl)

@[simp] theorem held_traceStage (s : State) (slot : Option Nat) (k : Nat) : (s.traceStage slot k).held = s.held := by
  unfold State.traceStage
  (repeat' split) <;> simp

@[simp] theorem held_traceEnds (s : State) (slot : Option Nat) (dropped bad timeout : Bool) :
    (s.traceEnds slot dropped bad timeout).held = s.held := by
  unfold State.traceEnds
  (repeat' split) <;> simp

/-! #### Functions of Machine/CmdOps -/

@[simp] theorem held_setQueue (s : State) (q : Nat) (u : CmdQueue) : (s.setQueue q u).held = s.held := (rfl)
@[simp] theorem held_setQstate (s : State) (q v : Nat) : (s.setQstate q v).held = s.held := (rfl)
@[simp] theorem held_resetQueue (s : State) (q : Nat) : (s.resetQueue q).held = s.held := by simp [State.resetQueue]
@[simp] theorem held_irqQueue (s : State) (q : Nat) : (s.irqQueue q).held = s.held := by simp [State.irqQueue]

@[simp] theorem held_writeCpl (s : State) (q : Nat) (header : Word) (seq status progress result : Nat) :
    (s.writeCpl q header seq status progress result).held = s.held := (rfl)

@[simp] theorem held_unwriteCpl (s : State) (q : Nat) (l : LastCpl) : (s.unwriteCpl q l).held = s.held := (rfl)

@[simp] theorem held_keyRetired (s : State) (q : Nat) (header : Word) : (s.keyRetired q header).held = s.held := by
  unfold State.keyRetired
  simp
  split <;> simp

@[simp] theorem held_closeCmd (s : State) (q seq : Nat) : (s.closeCmd q seq).held = s.held := by simp [State.closeCmd]

@[simp] theorem held_retireCmd (s : State) (q : Nat) (header : Word) (seq : Nat) :
    (s.retireCmd q header seq).held = s.held := by
  simp [State.retireCmd]

@[simp] theorem held_finishCmd (s : State) (q : Nat) (header : Word) (seq status progress result : Nat) :
    (s.finishCmd q header seq status progress result).held = s.held := by
  simp [State.finishCmd]

@[simp] theorem held_finish (s : State) (p : Port) (header : Word) (seq status progress result : Nat) :
    (s.finish p header seq status progress result).held = s.held := by
  simp [State.finish]

@[simp] theorem held_setExec (s : State) (q : Nat) (e : Exec) : (s.setExec q e).held = s.held := (rfl)

@[simp] theorem held_endExec (s : State) (q status progress result : Nat) :
    (s.endExec q status progress result).held = s.held := by
  simp only [State.endExec]
  split <;> simp

@[simp] theorem held_stopExec (s : State) (q : Nat) : (s.stopExec q).held = s.held := by
  simp only [State.stopExec]
  split <;> simp

@[simp] theorem held_unretire (s : State) (x : Nat × CmdQueue) : (s.unretire x).held = s.held := by
  unfold State.unretire
  split <;> simp

@[simp] theorem held_unretired (s : State) : s.unretired.held = s.held := by simp [State.unretired]

@[simp] theorem held_dropLock (s : State) (q : Nat) : (s.dropLock q).held = s.held := by
  simp only [State.dropLock]
  split <;> simp

@[simp] theorem held_violate (s : State) (p : Port) (header : Word) (seq stage reason : Nat) (operand object : Word) :
    (s.violate p header seq stage reason operand object).held = s.held := by
  simp [State.violate]

@[simp] theorem held_noteAdmission (s : State) (x1 : Port) : (s.noteAdmission x1).held = s.held := by
  simp only [State.noteAdmission]
  split <;> simp

@[simp] theorem held_takeStaged (s : State) (q n : Nat) : (s.takeStaged q n).held = s.held := (rfl)

@[simp] theorem held_admitReserved (s : State) : s.admitReserved.held = s.held := by
  unfold State.admitReserved
  (repeat' split) <;> simp

@[simp] theorem held_settleFence (s : State) (x : Nat × Exec) : (s.settleFence x).held = s.held := by
  simp only [State.settleFence]
  split <;> simp

@[simp] theorem held_settleFences (s : State) : s.settleFences.held = s.held := by simp [State.settleFences]

/-! #### Functions of Machine/Admission -/

@[simp] theorem held_settle (s : State) (p : Port) (h : Word) (n : Nat) (x : Ran) :
    (s.settle p h n x).held = x.after.held := by
  cases x <;> simp [State.settle]

@[simp] theorem held_admitted (s : State) (c : Cmd) : (s.admitted c).held = s.held := by
  simp only [State.admitted]
  split <;> simp

@[simp] theorem held_haltedCmd (s : State) (c : Cmd) (r : CmdRule) (seq : Nat) :
    (s.haltedCmd c r seq).held = s.held := (rfl)

@[simp] theorem held_ran_done (s : State) (progress result : Nat) :
    (Ran.done s progress result).after.held = s.held := (rfl)

@[simp] theorem held_giveWords (s : State) (io : HostIo) (addr : Nat) (ws : List Word) (result : Nat) :
    (s.giveWords io addr ws result).after.held = s.held := by
  simp [State.giveWords]

/-! #### Functions of Machine/TreeBase -/

@[simp] theorem held_setTree (s : State) (t : Nat) (u : Tree) : (s.setTree t u).held = s.held := (rfl)
@[simp] theorem held_setLane (s : State) (t l : Nat) (v : Lane) : (s.setLane t l v).held = s.held := (rfl)
@[simp] theorem held_setAlloc (s : State) (a : Nat) (b : Option (Nat × Nat)) : (s.setAlloc a b).held = s.held := (rfl)
@[simp] theorem held_setBucket (s : State) (a v : Nat) : (s.setBucket a v).held = s.held := (rfl)
@[simp] theorem held_bumpSet (s : State) (family set word n : Nat) : (s.bumpSet family set word n).held = s.held := (rfl)

@[simp] theorem held_bumpSet2 (s : State) (family set word len : Nat) :
    (s.bumpSet2 family set word len).held = s.held := (rfl)

/-! #### Functions of Machine/BurstBase -/

@[simp] theorem held_drivePin (s : State) (t l kind n : Nat) (high : Bool) :
    (s.drivePin t l kind n high).held = s.held := by
  simp [State.drivePin]

@[simp] theorem held_drivePins (s v : State) (t l kind n : Nat) : (s.drivePins v t l kind n).held = s.held := by
  simp [State.drivePins]

@[simp] theorem held_pinsFollow (s was : State) (t l : Nat) : (s.pinsFollow was t l).held = s.held := by
  simp [State.pinsFollow]

@[simp] theorem held_pinsLow (s : State) (t l : Nat) : (s.pinsLow t l).held = s.held := by simp [State.pinsLow]
@[simp] theorem held_brxWritten (s : State) (t l : Nat) : (s.brxWritten t l).held = s.held := (rfl)

/-! #### Functions of Machine/Buckets -/

@[simp] theorem held_setEntry (s : State) (table idx : Nat) (ws : List Word) :
    (s.setEntry table idx ws).held = s.held := (rfl)

@[simp] theorem held_putBucket (s : State) (n round : Nat) (b : Option Bucket) :
    (s.putBucket n round b).held = s.held := (rfl)

@[simp] theorem held_wheelEv (s : State) (n : Nat) (b : Bucket) : (s.wheelEv n b).held = s.held := by simp [State.wheelEv]

@[simp] theorem held_debitNode (s : State) (n round a : Nat) : (s.debitNode n round a).held = s.held := by
  simp [State.debitNode]

@[simp] theorem held_rebucket (s : State) (n round : Nat) (was : Nat × Nat) : (s.rebucket n round was).held = s.held := by
  simp [State.rebucket]

@[simp] theorem held_setDeficit (s : State) (parent child : Nat) (v : Int) :
    (s.setDeficit parent child v).held = s.held := (rfl)

@[simp] theorem held_setPointer (s : State) (parent prio v : Nat) : (s.setPointer parent prio v).held = s.held := (rfl)

@[simp] theorem held_dwrrLoop (k : Nat) (s : State) (parent prio : Nat) (l : List Child) :
    (State.dwrrLoop k s parent prio l).2.held = s.held := by
  induction k generalizing s with
  | zero => rfl
  | succ k ih =>
    unfold State.dwrrLoop
    split
    · rfl
    · dsimp only
      split <;> simp [ih]

@[simp] theorem held_dwrr (s : State) (parent : Nat) (l : List Child) : (s.dwrr parent l).2.held = s.held := by
  simp [State.dwrr]

@[simp] theorem held_meter (s : State) (i len : Nat) (pre : Bool) : (s.meter i len pre).2.held = s.held := by
  unfold State.meter
  dsimp only
  (repeat' split) <;> simp

/-! #### Functions of Machine/KeyOps -/

@[simp] theorem held_setSlot (s : State) (n : Nat) (k : KeySlot) : (s.setSlot n k).held = s.held := (rfl)
@[simp] theorem held_loadSlot (s : State) (n : Nat) (key : BitVec 128) : (s.loadSlot n key).held = s.held := (rfl)
@[simp] theorem held_wipeSlot (s : State) (n : Nat) : (s.wipeSlot n).held = s.held := (rfl)
@[simp] theorem held_clearOnuSlots (s : State) (h : Nat) : (s.clearOnuSlots h).held = s.held := (rfl)

@[simp] theorem held_abortTxOf (sel : Nat → Nat → Bool) (s : State) (x : Nat × Exec) :
    (State.abortTxOf sel s x).held = s.held := by
  simp only [State.abortTxOf]
  split <;> simp

@[simp] theorem held_abortTx (s : State) (sel : Nat → Nat → Bool) : (s.abortTx sel).held = s.held := by simp [State.abortTx]
@[simp] theorem held_switchTx (s : State) (q n : Nat) : (s.switchTx q n).held = s.held := by simp [State.switchTx]

@[simp] theorem held_invalidateKeys (s : State) (t : Nat) : (s.invalidateKeys t).held = s.held := by
  simp [State.invalidateKeys]

@[simp] theorem held_keyRule (c : Cmd) (opOk : Nat → Bool) (work : State → Priv → Nat → Ran)
    (hwork : ∀ x p n, (work x p n).after.held = x.held) (s : State) (p : Priv) (m : Nat) :
    ((keyRule c opOk work).run s p m).after.held = s.held := by
  simp only [keyRule]
  split
  · split
    · split
      · rfl
      · split <;> simp [hwork]
    · rfl
  · rfl

theorem held_keyRow (c : Cmd) (op : Nat) (work : State → Priv → Nat → Ran)
    (hwork : ∀ x p n, (work x p n).after.held = x.held) {r : CmdRule} (h : (keyRow c op work) = some r) (s : State)
    (p : Priv) (m : Nat) :
    (r.run s p m).after.held = s.held := by
  unfold keyRow at h
  split at h
  · obtain rfl := Option.some.inj h
    exact held_keyRule _ _ _ hwork _ _ _
  · split at h
    · obtain rfl := Option.some.inj h
      exact held_keyRule _ _ _ hwork _ _ _
    · cases h

@[simp] theorem held_setXtsFill (s : State) (t n : Nat) : (s.setXtsFill t n).held = s.held := (rfl)
@[simp] theorem held_drawXts (s : State) (t e : Nat) : (s.drawXts t e).held = s.held := (rfl)
@[simp] theorem held_switchXts (s : State) (t : Nat) : (s.switchXts t).held = s.held := by simp [State.switchXts]

@[simp] theorem held_stampXts (s : State) (t : Nat) : (s.stampXts t).2.held = s.held := by
  unfold State.stampXts
  split
  · split
    · exact (held_setXtsFill _ _ _).trans (held_switchXts _ _)
    · simp
  · simp

@[simp] theorem held_xtsPages (s : State) (t e : Nat) (up : Bool) : (s.xtsPages t e up).held = s.held := (rfl)

/-! #### Functions of Machine/CatOps -/

@[simp] theorem held_setPkt (s : State) (i : Nat) (p : Option Packet) : (s.setPkt i p).held = s.held := (rfl)

@[simp] theorem held_modPkt (s : State) (i : Nat) (f : Packet → Packet) : (s.modPkt i f).held = s.held := by
  simp only [State.modPkt]
  split <;> simp

@[simp] theorem held_addPkt (s : State) (p : Packet) : (s.addPkt p).held = s.held := (rfl)

@[simp] theorem held_grantCell (s : State) (part pick : Nat) : (s.grantCell part pick).2.held = s.held := by
  simp only [State.grantCell]
  split <;> simp

@[simp] theorem held_freeCells (s : State) (part : Nat) (cells : List Nat) : (s.freeCells part cells).held = s.held := (rfl)

@[simp] theorem held_sweepPkt (s : State) (i : Nat) : (s.sweepPkt i).held = s.held := by
  simp only [State.sweepPkt]
  split <;> simp

@[simp] theorem held_unref (s : State) (i : Nat) : (s.unref i).held = s.held := by
  simp only [State.unref]
  split <;> simp

@[simp] theorem held_dropDest (s : State) (i : Nat) (d : Dest) : (s.dropDest i d).held = s.held := by simp [State.dropDest]
@[simp] theorem held_makeBad (s : State) (g : Nat) (cut : Bool) : (s.makeBad g cut).held = s.held := by simp [State.makeBad]
@[simp] theorem held_cutPkt (s : State) (i n : Nat) : (s.cutPkt i n).held = s.held := by simp [State.cutPkt]
@[simp] theorem held_setDq (s : State) (h : Nat) (q : DsQueue) : (s.setDq h q).held = s.held := (rfl)
@[simp] theorem held_setPage (s : State) (p : Nat) (g : Option Page) : (s.setPage p g).held = s.held := (rfl)
@[simp] theorem held_takePage (s : State) (c p : Nat) (g : Page) : (s.takePage c p g).held = s.held := (rfl)

@[simp] theorem held_allocPage (s : State) (t h pick : Nat) : (s.allocPage t h pick).2.held = s.held := by
  have hs := held_stampXts s t
  rw [State.allocPage, apply_ite Prod.snd, held_ite]
  rcases s.nextPc with _ | c
  · rw [held_bump, ite_self]
  · generalize s.stampXts t = y at hs ⊢
    obtain ⟨_ | ⟨e, n⟩, u⟩ := y
    · simpa using fun _ => hs
    · generalize u.popPage c pick = p
      simpa using fun _ => hs

@[simp] theorem held_stampPages (s : State) : s.stampPages.held = s.held := by simp [State.stampPages]

@[simp] theorem held_freePage (s : State) (p : Nat) : (s.freePage p).held = s.held := by
  simp only [State.freePage]
  split <;> simp

@[simp] theorem held_leavePage (s : State) (i p : Nat) : (s.leavePage i p).held = s.held := by
  simp only [State.leavePage]
  split <;> simp

@[simp] theorem held_emitHeader (s : State) (p : Nat) : (s.emitHeader p).held = s.held := by
  simp only [State.emitHeader]
  split <;> simp

@[simp] theorem held_emitPage (s : State) (p : Nat) (g : Page) : (s.emitPage p g).held = s.held := (rfl)

@[simp] theorem held_storeOctets (k : Nat) (s : State) (t h i n : Nat) (picks : List Nat) :
    (State.storeOctets k s t h i n picks).2.2.held = s.held := by
  induction k generalizing s n picks with
  | zero => rfl
  | succ k ih =>
    unfold State.storeOctets
    split
    · rfl
    · split
      · split <;> rename_i hp <;> have hs := held_allocPage s t h (nth picks 0 0) <;> rw [hp] at hs <;>
          simpa [ih] using hs
      · split <;> simp [ih]

@[simp] theorem held_releaseEntry (s : State) (e : QEntry) : (s.releaseEntry e).held = s.held := by
  simp [State.releaseEntry]

/-! #### Functions of Machine/DsqOps -/

@[simp] theorem held_countAs (s : State) (h : Nat) (x2 : Counted) : (s.countAs h x2).held = s.held := by
  simp only [State.countAs]
  split <;> simp

@[simp] theorem held_discardEntry (s : State) (h : Nat) (how : Counted) (e : QEntry) :
    (s.discardEntry h how e).held = s.held := by
  simp [State.discardEntry]

@[simp] theorem held_discardQueue (s : State) (how : Counted) (h : Nat) : (s.discardQueue how h).held = s.held := by
  simp [State.discardQueue]

@[simp] theorem held_descend (k : Nat) (s : State) (x : Nat) (qs : List Nat) :
    (State.descend k s x qs).2.held = s.held := by
  induction k generalizing s x with
  | zero => rfl
  | succ k ih =>
    unfold State.descend
    split
    · rfl
    · dsimp only
      generalize (if (List.filter (fun c => s.eligibleNode c.node 0) (s.children x qs)).isEmpty = true then
        (1, List.filter (fun c => s.eligibleNode c.node 1) (s.children x qs))
        else (0, List.filter (fun c => s.eligibleNode c.node 0) (s.children x qs))) = rl
      split
      · rfl
      · have hs := held_dwrr s x rl.2
        split
        all_goals (rename_i hd; rw [hd] at hs)
        · exact hs
        · rename_i y u
          have hu := ih u y
          split <;> rename_i hx <;> rw [hx] at hu <;> exact hu.trans hs

@[simp] theorem held_settleDeficits (s : State) (t : Nat) : (s.settleDeficits t).held = s.held := (rfl)

@[simp] theorem held_emptyQueue (s : State) (how : Counted) (h : Nat) : (s.emptyQueue how h).held = s.held := by
  simp [State.emptyQueue]

@[simp] theorem held_enqueue (s : State) (i : Nat) (p : Packet) (h x : Nat) (picks : List Nat) :
    (s.enqueue i p h x picks).held = s.held := by
  unfold State.enqueue
  dsimp only
  split
  · simp
  · split
    · simp
    · split
      all_goals
        rename_i hp
        have hs := congrArg (fun x => x.2.2.held) hp
        simp only [held_storeOctets] at hs
      · simpa using hs.symm
      · split <;> simpa using hs.symm

@[simp] theorem held_popHead (s : State) (h : Nat) : (s.popHead h).held = s.held := (rfl)

@[simp] theorem held_purgeBad (k : Nat) (s : State) (h : Nat) : (State.purgeBad k s h).held = s.held := by
  induction k generalizing s with
  | zero => rfl
  | succ k ih =>
    unfold State.purgeBad
    split
    · rfl
    · split
      · rfl
      · simp [ih]

@[simp] theorem held_chooseSdu (s : State) (t l : Nat) : (s.chooseSdu t l).2.held = s.held := by
  unfold State.chooseSdu
  dsimp only
  split
  · simp
  · split
    all_goals
      rename_i hd
      have hs := congrArg (fun x => x.2.held) hd
      simp only [held_descend, held_settleDeficits] at hs
    · simpa using hs.symm
    · split <;> simpa using hs.symm

@[simp] theorem held_dequeue (s : State) (h : Nat) (e : QEntry) : (s.dequeue h e).held = s.held := by simp [State.dequeue]

/-! #### Functions of Machine/OhmBase -/

@[simp] theorem held_countSize (s : State) (m w n : Nat) : (s.countSize m w n).held = s.held := by
  simp only [State.countSize]
  split <;> simp

@[simp] theorem held_countGood (s : State) (m w : Nat) (bs : List Byte) : (s.countGood m w bs).held = s.held := by
  simp [State.countGood]

@[simp] theorem held_sendOhm (s : State) (ws : List Word) (m : Nat) : (s.sendOhm ws m).held = s.held := by
  simp [State.sendOhm]

@[simp] theorem held_setRole (s : State) (t : Nat) (active : Bool) : (s.setRole t active).held = s.held := (rfl)

@[simp] theorem held_sendMirror (s : State) (t : Nat) (recs : List (List Word)) : (s.sendMirror t recs).held = s.held := by
  simp [State.sendMirror]

@[simp] theorem held_sendLoss (s : State) (t : Nat) : (s.sendLoss t).held = s.held := by simp [State.sendLoss]

@[simp] theorem held_sendReleased (s : State) (t : Nat) (payload : List Word) :
    (s.sendReleased t payload).held = s.held := by
  simp [State.sendReleased]

/-! #### Functions of Machine/LineOps -/

@[simp] theorem held_noteFramed (s : State) (id n sfc : Nat) : (s.noteFramed id n sfc).held = s.held := by
  simp only [State.noteFramed]
  split <;> simp

@[simp] theorem held_endMsg (s : State) (id : Nat) (framed : Bool) : (s.endMsg id framed).held = s.held := by
  simp only [State.endMsg]
  split <;> simp

@[simp] theorem held_discardMsgs (s : State) (t l : Nat) (counted : Bool) (p : Msg → Bool) :
    (s.discardMsgs t l counted p).held = s.held := by
  simp [State.discardMsgs]

@[simp] theorem held_msgOut (s : State) (t l id n sfc : Nat) (last : Bool) :
    (s.msgOut t l id n sfc last).held = s.held := by
  simp [State.msgOut]

@[simp] theorem held_pushFs (s : State) (t l : Nat) (bs : List Byte) : (s.pushFs t l bs).held = s.held := (rfl)

@[simp] theorem held_dropFrame (s : State) (t l n : Nat) (c : Carry) (last : Bool) :
    (s.dropFrame t l n c last).held = s.held := by
  simp only [State.dropFrame]
  split <;> simp

@[simp] theorem held_sendFragment (s : State) (t l n : Nat) (c : Carry) (last : Bool) :
    (s.sendFragment t l n c last).held = s.held := by
  unfold State.sendFragment
  simp
  split <;> simp

@[simp] theorem held_sendSdu (s : State) (t l : Nat) (c : Carry) : (s.sendSdu t l c).held = s.held := by
  simp [State.sendSdu]

@[simp] theorem held_idleTo (s : State) (t l n : Nat) : (s.idleTo t l n).held = s.held := by simp [State.idleTo]

@[simp] theorem held_framePloam (s : State) (t l sfc : Nat) : (s.framePloam t l sfc).held = s.held := by
  simp only [State.framePloam]
  split <;> simp

@[simp] theorem held_frameOmci (s : State) (t l : Nat) : (s.frameOmci t l).held = s.held := by
  simp only [State.frameOmci]
  split <;> simp

@[simp] theorem held_frameMsg (s : State) (t l : Nat) : (s.frameMsg t l).held = s.held := by simp [State.frameMsg]

@[simp] theorem held_flushPloams (k : Nat) (s : State) (t l n : Nat) : (State.flushPloams k s t l n).held = s.held := by
  induction k generalizing s with
  | zero => rfl
  | succ k ih => simp [State.flushPloams, ih]

@[simp] theorem held_mapArr (s : State) (f : Arrival → Arrival) : (s.mapArr f).held = s.held := (rfl)
@[simp] theorem held_badArrival (s : State) (id : Nat) : (s.badArrival id).held = s.held := by simp [State.badArrival]
@[simp] theorem held_endSdu (s : State) (t : Nat) (d : Sdu) : (s.endSdu t d).held = s.held := by simp [State.endSdu]

@[simp] theorem held_endSdus (s : State) (t : Nat) (p : Sdu → Bool) : (s.endSdus t p).held = s.held := by
  simp [State.endSdus]

@[simp] theorem held_regridded (s was : State) (t : Nat) : (s.regridded was t).held = s.held := by simp [State.regridded]

@[simp] theorem held_regrid (s : State) (t : Nat) (f : State → State) (hf : ∀ x, (f x).held = x.held) :
    (s.regrid t f).held = s.held := by
  unfold State.regrid
  simp_all

@[simp] theorem held_gridReturn (s : State) (t : Nat) : (s.gridReturn t).held = s.held := by simp [State.gridReturn]
@[simp] theorem held_emitPtxdis (s : State) (t l : Nat) : (s.emitPtxdis t l).held = s.held := (rfl)
@[simp] theorem held_laneStops (s : State) (t l : Nat) : (s.laneStops t l).held = s.held := by simp [State.laneStops]
@[simp] theorem held_treeStops (s : State) (t : Nat) : (s.treeStops t).held = s.held := by simp [State.treeStops]
@[simp] theorem held_treeStarts (s : State) (t : Nat) : (s.treeStarts t).held = s.held := (rfl)

@[simp] theorem held_reserviceLane (was : State) (t : Nat) (s : State) (l : Nat) :
    (was.reserviceLane t s l).held = s.held := by
  simp [State.reserviceLane]

@[simp] theorem held_reservice (s was : State) (t : Nat) : (s.reservice was t).held = s.held := by simp [State.reservice]
@[simp] theorem held_reserviceAll (s was : State) : (s.reserviceAll was).held = s.held := by simp [State.reserviceAll]

@[simp] theorem held_changeTree (s : State) (t : Nat) (f : Tree → Tree) : (s.changeTree t f).held = s.held := by
  simp [State.changeTree]

@[simp] theorem held_changeLane (s : State) (t l : Nat) (f : Lane → Lane) : (s.changeLane t l f).held = s.held := by
  simp [State.changeLane]

@[simp] theorem held_dropLaneDown (s : State) (t : Nat) : (s.dropLaneDown t).held = s.held := by simp [State.dropLaneDown]

/-! #### Functions of Machine/SluiceOps -/

@[simp] theorem held_setBankValid (s : State) (t b : Nat) (v : Bool) : (s.setBankValid t b v).held = s.held := by
  simp [State.setBankValid]

@[simp] theorem held_Run.view (r : Run) (s : State) : (Run.view r s).held = s.held := (rfl)

@[simp] theorem held_tagGrant (s : State) (t l alloc : Nat) (r : Run) : (s.tagGrant t l alloc r).2.held = s.held := by
  unfold State.tagGrant
  (repeat' split) <;> simp

@[simp] theorem held_notePlaced (s : State) (t : Nat) (placed : Bool) : (s.notePlaced t placed).held = s.held := by
  simp [State.notePlaced]

@[simp] theorem held_notPlaced (s : State) (t w : Nat) : (s.notPlaced t w).held = s.held := by simp [State.notPlaced]

@[simp] theorem held_putGrant (s : State) (t l start first : Nat) (g : GrantAsk) (r : Run) :
    (s.putGrant t l start first g r).1.held = s.held := by
  simp [State.putGrant]

@[simp] theorem held_runGrant (s : State) (t : Nat) (r : Run) (h : Word) : (s.runGrant t r h).1.held = s.held := by
  unfold State.runGrant
  dsimp only
  (repeat' split) <;> simp

@[simp] theorem held_runGrantt (s : State) (t : Nat) (r : Run) (h o1 : Word) : (s.runGrantt t r h o1).1.held = s.held := by
  unfold State.runGrantt
  dsimp only
  (repeat' split) <;> simp

@[simp] theorem held_alignLoop (k : Nat) (s : State) (t : Nat) (r : Run) (a : GrantAsk) (g period fb : Nat) :
    (State.alignLoop k s t r a g period fb).2.1.held = s.held := by
  induction k generalizing s r g with
  | zero => rfl
  | succ k ih =>
    unfold State.alignLoop
    dsimp only
    split
    · simp
    · split <;> simp [ih]

@[simp] theorem held_runAlign (s : State) (t : Nat) (r : Run) (h o1 o2 : Word) (left : Nat) :
    (s.runAlign t r h o1 o2 left).2.1.held = s.held := by
  unfold State.runAlign
  dsimp only
  (repeat' split) <;> simp

@[simp] theorem held_runWindow (s : State) (t l n : Nat) (r : Run) (mk : Nat → Item) :
    (s.runWindow t l n r mk).1.held = s.held := by
  simp only [State.runWindow]
  split <;> simp

@[simp] theorem held_runQuiet (s : State) (t : Nat) (r : Run) (h : Word) : (s.runQuiet t r h).1.held = s.held := by
  simp [State.runQuiet]

@[simp] theorem held_runRangew (s : State) (t : Nat) (r : Run) (h : Word) : (s.runRangew t r h).1.held = s.held := by
  simp [State.runRangew]

@[simp] theorem held_endRun (s : State) (t : Nat) (r : Run) : (s.endRun t r).held = s.held := by simp [State.endRun]
@[simp] theorem held_bankFails (s : State) (t : Nat) : (s.bankFails t).held = s.held := by simp [State.bankFails]
@[simp] theorem held_overrun (s : State) (t : Nat) (r : Run) : (s.overrun t r).held = s.held := by simp [State.overrun]

@[simp] theorem held_swapBanks (s : State) (t : Nat) : (s.swapBanks t).held = s.held := by
  unfold State.swapBanks
  dsimp only
  split <;> simp

@[simp] theorem held_revertBank (s : State) (t : Nat) : (s.revertBank t).held = s.held := by simp [State.revertBank]
@[simp] theorem held_bankBoundary (s : State) (t : Nat) : (s.bankBoundary t).held = s.held := by simp [State.bankBoundary]

@[simp] theorem held_skipBucket (s : State) (t : Nat) (r : Run) (h : Word) : (s.skipBucket t r h).2.held = s.held := by
  simp only [State.skipBucket]
  split <;> simp

@[simp] theorem held_setCredit (s : State) (t c : Nat) (v : Int) : (s.setCredit t c v).held = s.held := by
  simp [State.setCredit]

/-! #### Functions of Machine/FrameOps -/

@[simp] theorem held_resumeSdu (s : State) (t l : Nat) : (s.resumeSdu t l).held = s.held := by
  simp only [State.resumeSdu]
  split <;> simp

@[simp] theorem held_closeFrame (s : State) (t l : Nat) : (s.closeFrame t l).held = s.held := by
  simp only [State.closeFrame]
  split <;> simp

@[simp] theorem held_endLineFrame (s : State) (t l sfc : Nat) : (s.endLineFrame t l sfc).held = s.held :=
  (held_closeFrame _ _ _).trans (held_flushPloams _ _ _ _ _)

@[simp] theorem held_sendFrame (s : State) (t l sfc : Nat) (items : List Item) (upOffset placed : Nat) :
    (s.sendFrame t l sfc items upOffset placed).held = s.held := by
  simp [State.sendFrame]

@[simp] theorem held_sendFrames (s : State) (t : Nat) : (s.sendFrames t).held = s.held := by simp [State.sendFrames]
@[simp] theorem held_startRun (s : State) (t : Nat) : (s.startRun t).held = s.held := by simp [State.startRun]

@[simp] theorem held_txSwitchOf (t : Nat) (s : State) (x : Nat × Exec) : (State.txSwitchOf t s x).held = s.held := by
  simp only [State.txSwitchOf]
  split <;> simp

@[simp] theorem held_txBoundary (s : State) (t : Nat) : (s.txBoundary t).held = s.held := by simp [State.txBoundary]
@[simp] theorem held_stopBoundary (s : State) (t : Nat) : (s.stopBoundary t).held = s.held := by simp [State.stopBoundary]

@[simp] theorem held_firstBoundary (s : State) (t : Nat) : (s.firstBoundary t).held = s.held := by
  simp only [State.firstBoundary]
  split <;> simp

@[simp] theorem held_laneBoundary (s : State) (t l : Nat) : (s.laneBoundary t l).held = s.held := by
  simp only [State.laneBoundary]
  split <;> simp

@[simp] theorem held_boundary (s : State) (t : Nat) : (s.boundary t).held = s.held := by simp [State.boundary]

/-! #### Functions of Machine/HeldOps -/

@[simp] theorem held_setEgq (s : State) (q : Nat) (l : List EgEntry) : (s.setEgq q l).held = s.held := (rfl)
@[simp] theorem held_dropEg (s : State) (e : EgEntry) : (s.dropEg e).held = s.held := by simp [State.dropEg]
@[simp] theorem held_discardEgq (s : State) (q : Nat) : (s.discardEgq q).held = s.held := by simp [State.discardEgq]

@[simp] theorem held_dropAllDests (s : State) (i : Nat) : (s.dropAllDests i).held = s.held := by
  simp only [State.dropAllDests]
  split <;> simp

@[simp] theorem held_discardHeld (s : State) : s.discardHeld.held = s.held := by simp [State.discardHeld]

/-! #### Functions of Machine/TableOps -/

@[simp] theorem held_storeSlot (s : State) (t slot : Nat) (ws : List Word) : (s.storeSlot t slot ws).held = s.held := (rfl)

@[simp] theorem held_putSlot (s : State) (t slot : Nat) (ws : List Word) : (s.putSlot t slot ws).held = s.held := by
  simp [State.putSlot]

@[simp] theorem held_stepsOn (s : State) (t : Nat) : (s.stepsOn t).held = s.held := (rfl)

@[simp] theorem held_eachCopy (s : State) (t : Nat) (key : List Word) (f : List Word → List Word) :
    (s.eachCopy t key f).held = s.held := by
  simp [State.eachCopy]

@[simp] theorem held_countEntries (s : State) (t : Nat) (f : Nat → Nat) : (s.countEntries t f).held = s.held := (rfl)
@[simp] theorem held_ageSkip (s : State) (n : Nat) : (s.ageSkip n).held = s.held := (rfl)
@[simp] theorem held_ageSync (s : State) : s.ageSync.held = s.held := by simp [State.ageSync]
@[simp] theorem held_learnedUp (s : State) (p : Nat) : (s.learnedUp p).held = s.held := (rfl)
@[simp] theorem held_learnedDown (s : State) (p : Nat) : (s.learnedDown p).held = s.held := (rfl)

@[simp] theorem held_addEntry (s : State) (t slot : Nat) (ws : List Word) : (s.addEntry t slot ws).held = s.held := by
  simp [State.addEntry]

@[simp] theorem held_removeSlot (s : State) (t slot : Nat) : (s.removeSlot t slot).held = s.held := by
  simp only [State.removeSlot]
  split <;> simp

@[simp] theorem held_wordsFixed (s : State) (n : Nat) : (s.wordsFixed n).held = s.held := (rfl)
@[simp] theorem held_someFixed (s : State) : s.someFixed.held = s.held := (rfl)
@[simp] theorem held_walksMoved (s : State) : s.walksMoved.held = s.held := (rfl)

@[simp] theorem held_moveCopy (s : State) (t : Nat) (m : Move) (ws : List Word) : (s.moveCopy t m ws).2.held = s.held := by
  simp only [State.moveCopy]
  split <;> simp

@[simp] theorem held_moveClear (s : State) (t : Nat) (m : Move) (old new : List Word) :
    (s.moveClear t m old new).held = s.held := by
  simp [State.moveClear]

theorem held_insertStep (s : State) (i : Insertion) (f : Nat → Bool) {j : Insertion} {u : State}
    (h : s.insertStep i f = .more j u) :
    u.held = s.held := by
  revert h
  fun_cases State.insertStep s i f
  case case16 =>
    rintro ⟨⟩
    exact held_moveCopy _ _ _ _
  case case19 =>
    rintro ⟨⟩
    exact held_moveClear _ _ _ _ _
  all_goals rintro ⟨⟩
  all_goals rfl

@[simp] theorem held_setHit (s : State) (slot : Nat) (ws : List Word) : (s.setHit slot ws).held = s.held := (rfl)

@[simp] theorem held_setGen (s : State) (c : Bool) (t idx : Nat) (ws : List Word) :
    (s.setGen c t idx ws).held = s.held := (rfl)

@[simp] theorem held_setCopy (s : State) (c : Bool) (l : SMap (List Word)) : (s.setCopy c l).held = s.held := (rfl)

/-! #### Functions of Machine/ModeOps -/

@[simp] theorem held_enterMode (s : State) (m : Mode) (trigger : Nat) : (s.enterMode m trigger).held = s.held := by
  simp [State.enterMode]

@[simp] theorem held_stopIllegal (s : State) : s.stopIllegal.held = s.held := by simp [State.stopIllegal]
@[simp] theorem held_eachTree (s : State) (f : Tree → Tree) : (s.eachTree f).held = s.held := by simp [State.eachTree]

@[simp] theorem held_changeMode (s : State) (m : Mode) (trigger : Nat) : (s.changeMode m trigger).held = s.held := by
  simp [State.changeMode]

@[simp] theorem held_withdrawNotice (s : State) : s.withdrawNotice.held = s.held := (rfl)

@[simp] theorem held_drainDone (s : State) : s.drainDone.held = s.held := by
  simp only [State.drainDone]
  split <;> simp

@[simp] theorem held_drainLimit (s : State) : s.drainLimit.held = s.held := by simp [State.drainLimit]

/-! #### Functions of Machine/Rings -/

@[simp] theorem held_setRing (s : State) (r : Nat) (u : RingUnit) : (s.setRing r u).held = s.held := (rfl)

@[simp] theorem held_ringWrite (s : State) (r : Nat) (x : RingRec) : (s.ringWrite r x).held = s.held := by
  simp [State.ringWrite]

@[simp] theorem held_ringPut (s : State) (r : Nat) (w0 : Word) (rest : List Word) (tail : List Byte) :
    (s.ringPut r w0 rest tail).held = s.held := by
  simp [State.ringPut]

@[simp] theorem held_ringAgain (s : State) (r : Nat) : (s.ringAgain r).held = s.held := by
  simp only [State.ringAgain]
  split <;> simp

@[simp] theorem held_ringFlush (s : State) (r : Nat) : (s.ringFlush r).held = s.held := (rfl)
@[simp] theorem held_ringReset (s : State) (r : Nat) : (s.ringReset r).held = s.held := by simp [State.ringReset]
@[simp] theorem held_ringCharge (s : State) (r : Nat) : (s.ringCharge r).held = s.held := (rfl)
@[simp] theorem held_ringUnwrite (s : State) (r : Nat) (x : RingRec) : (s.ringUnwrite r x).held = s.held := (rfl)

@[simp] theorem held_ringFails (s : State) (r : Nat) : (s.ringFails r).held = s.held := by
  simp only [State.ringFails]
  split <;> simp

/-! #### Functions of Machine/BurstOps -/

@[simp] theorem held_setExpect (s : State) (t l : Nat) (e : Expect) (f : Expect → Expect) :
    (s.setExpect t l e f).held = s.held := (rfl)

@[simp] theorem held_putMeas (s : State) (h l meas : Nat) (delta : Int) : (s.putMeas h l meas delta).held = s.held := by
  simp [State.putMeas]

@[simp] theorem held_noteMeasured (s : State) (h l : Nat) : (s.noteMeasured h l).held = s.held := (rfl)

@[simp] theorem held_track (s : State) (t l h : Nat) (delta : Int) : (s.track t l h delta).held = s.held := by
  unfold State.track
  simp
  split <;> simp

@[simp] theorem held_setLoss (s : State) (h l n : Nat) : (s.setLoss h l n).held = s.held := (rfl)
@[simp] theorem held_countLoss (s : State) (l : Nat) (e : Expect) : (s.countLoss l e).held = s.held := (rfl)

@[simp] theorem held_loseBurst (s : State) (t l : Nat) (e : Expect) (w : Nat) : (s.loseBurst t l e w).held = s.held := by
  simp [State.loseBurst]

@[simp] theorem held_ringMsg (s : State) (t kind lane entry : Nat) (oor miss : Bool) (meas tick : Nat)
    (msg : List Byte) :
    (s.ringMsg t kind lane entry oor miss meas tick msg).held = s.held := by
  simp [State.ringMsg]

@[simp] theorem held_reportBucket (s : State) (a v lane : Nat) : (s.reportBucket a v lane).held = s.held := by
  simp [State.reportBucket]

@[simp] theorem held_report (s : State) (t l a occ : Nat) : (s.report t l a occ).held = s.held := by
  simp only [State.report]
  split <;> simp

@[simp] theorem held_feed (s : State) (id : Nat) (bs : List Byte) (ended bad : Bool) :
    (s.feed id bs ended bad).held = s.held := by
  simp [State.feed]

@[simp] theorem held_arrive (s : State) (a : Arrival) : (s.arrive a).held = s.held := (rfl)

@[simp] theorem held_forwardFragment (s : State) (t l onu port : Nat) (braided lf : Bool) (bs : List Byte) (len : Nat)
    (burst : Option Nat) :
    (s.forwardFragment t l onu port braided lf bs len burst).held = s.held := by
  unfold State.forwardFragment
  dsimp only
  (repeat' split) <;> simp

@[simp] theorem held_setDskSeq (s : State) (t port : Nat) (q : DskSeq) : (s.setDskSeq t port q).held = s.held := (rfl)

@[simp] theorem held_releaseDsk (s : State) (t port : Nat) (f : DskFrame) : (s.releaseDsk t port f).held = s.held := by
  simp [State.releaseDsk]

@[simp] theorem held_flushDsk (s : State) (t port : Nat) : (s.flushDsk t port).held = s.held := by simp [State.flushDsk]
@[simp] theorem held_clearDsk (s : State) (h : Nat) : (s.clearDsk h).held = s.held := by simp [State.clearDsk]
@[simp] theorem held_clearDskAll (s : State) (t : Nat) : (s.clearDskAll t).held = s.held := by simp [State.clearDskAll]

@[simp] theorem held_enterDsk (s : State) (t port : Nat) (f : DskFrame) : (s.enterDsk t port f).held = s.held := by
  simp only [State.enterDsk]
  split <;> simp

@[simp] theorem held_expireDsk (s : State) (t port : Nat) : (s.expireDsk t port).held = s.held := by simp [State.expireDsk]

/-! #### Functions of Machine/ClassOps -/

@[simp] theorem held_pipeEv (s : State) (pipe ev : Nat) : (s.pipeEv pipe ev).held = s.held := by simp [State.pipeEv]

@[simp] theorem held_select (s v : State) (pipe : Nat) (copy : Bool) (src xgem : Nat) (p : Parsed) (key : List Word) :
    (s.select v pipe copy src xgem p key).2.held = s.held := by
  unfold State.select
  dsimp only
  (repeat' split) <;> simp

@[simp] theorem held_destDown (s : State) : s.destDown.held = s.held := (rfl)
@[simp] theorem held_askLearn (s : State) (r : LearnReq) : (s.askLearn r).held = s.held := by simp [State.askLearn]
@[simp] theorem held_hitMac (s : State) (ws : List Word) : (s.hitMac ws).held = s.held := (rfl)

@[simp] theorem held_learnFrom (s v : State) (bd mac p : Nat) : (s.learnFrom v bd mac p).2.held = s.held := by
  unfold State.learnFrom
  dsimp only
  (repeat' split) <;> simp

@[simp] theorem held_bridge (s v : State) (copy : Bool) (x : Seen) (a : Arrival) (c : Action) :
    (s.bridge v copy x a c).2.held = s.held := by
  unfold State.bridge
  dsimp only
  (repeat' split) <;> simp

@[simp] theorem held_routeTo (s v : State) (copy : Bool) (x : Seen) (c : Action) :
    (s.routeTo v copy x c).2.2.held = s.held := by
  unfold State.routeTo
  dsimp only
  (repeat' split) <;> simp

@[simp] theorem held_meterOf (s v : State) (c : Action) (len : Nat) : (s.meterOf v c len).2.2.held = s.held := by
  unfold State.meterOf
  dsimp only
  (repeat' split) <;> simp

@[simp] theorem held_decidePkt (s v : State) (pipe : Nat) (copy second : Bool) (a : Arrival) :
    (s.decidePkt v pipe copy second a).2.held = s.held := by
  unfold State.decidePkt
  dsimp only
  split
  · simp
  · split
    all_goals
      rename_i hx
      have hs := congrArg (fun x => x.2.held) hx
      simp only [held_select, held_ite, held_bump, held_pipeEv, ite_self] at hs
    · exact hs.symm
    · refine ((held_meterOf _ _ _ _).trans ?_).trans hs.symm
      split
      · split <;> simp
      · split
        · simp
        · split
          · simp
          · split
            · simp
            · split <;> simp

@[simp] theorem held_tag (s : State) (pipe : Nat) (a : Arrival) : (s.tag pipe a).2.held = s.held := by
  unfold State.tag
  dsimp only
  (repeat' split) <;> simp

@[simp] theorem held_traceDest (s : State) (slot : Option Nat) (c : Option Action) :
    (s.traceDest slot c).held = s.held := by
  unfold State.traceDest
  (repeat' split) <;> simp

/-! #### Functions of Machine/PathOps -/

@[simp] theorem held_killPkt (s : State) (i : Nat) : (s.killPkt i).held = s.held := by
  simp only [State.killPkt]
  split <;> simp

@[simp] theorem held_injected (s : State) (i : Nat) : (s.injected i).held = s.held := by
  simp only [State.injected]
  split <;> simp

@[simp] theorem held_setCflIn (s : State) (k : Nat) (l : List FCell) : (s.setCflIn k l).held = s.held := (rfl)

@[simp] theorem held_enterInput (s : State) (i n : Nat) : (s.enterInput i n).held = s.held := by
  simp only [State.enterInput]
  split <;> simp

@[simp] theorem held_refuseFirst (s : State) (dests : List Dest) : (s.refuseFirst dests).held = s.held := by
  refine (held_foldl (fun s d => ?_) _ _).trans (held_bump _ _ _)
  split <;> simp

@[simp] theorem held_makeCopy (s : State) (a : Arrival) (akind index hash : Nat) (de spread : Bool)
    (trace : Option Nat) (reason grp : Nat) (dests : List Dest) (pick : Nat) :
    (s.makeCopy a akind index hash de spread trace reason grp dests pick).held = s.held := by
  unfold State.makeCopy
  split
  · rfl
  · rename_i first _
    have hs := held_grantCell s (s.partOf first) pick
    dsimp only
    split <;> rename_i hg <;> rw [hg] at hs <;> simpa using hs

@[simp] theorem held_ask (s : State) (cls index : Nat) (x : CellAsk) : (s.ask cls index x).held = s.held := (rfl)

@[simp] theorem held_askCopies (s : State) (d : Decision) (spread : Bool) (trace : Option Nat) (reason : Nat)
    (copies : List (List Dest × Nat)) :
    (s.askCopies d spread trace reason copies).held = s.held := (rfl)

@[simp] theorem held_deliver (s : State) (d : Decision) (e : PipeDec) : (s.deliver d e).held = s.held := by
  simp only [State.deliver]
  split <;> simp

@[simp] theorem held_decView (s : State) (e : PipeDec) : (s.decView e).held = s.held := (rfl)
@[simp] theorem held_decided (s : State) (e : PipeDec) : (s.decided e).held = s.held := by simp [State.decided]
@[simp] theorem held_decisionsDue (s : State) : s.decisionsDue.held = s.held := by simp [State.decisionsDue]

@[simp] theorem held_enterPipe (s : State) (pipe n : Nat) (a : Arrival) (copy second : Bool) (entered : Nat)
    (trace : Option Nat) (pick : Nat) :
    (s.enterPipe pipe n a copy second entered trace pick).held = s.held := (rfl)

@[simp] theorem held_firstPass (s : State) (pipe : Nat) (a : Arrival) (pick : Nat) :
    (s.firstPass pipe a pick).held = s.held := by
  simp [State.firstPass]

@[simp] theorem held_secondPass (s : State) (pipe : Nat) (o : OxPacket) (pick : Nat) :
    (s.secondPass pipe o pick).held = s.held := by
  simp only [State.secondPass]
  split <;> simp

@[simp] theorem held_oxDue (s : State) : s.oxDue.held = s.held := by
  simp only [State.oxDue]
  split <;> simp

@[simp] theorem held_floodEntry (s : State) (f : Flood) (i : Nat) : (s.floodEntry f i).2.held = s.held := by
  unfold State.floodEntry
  dsimp only
  (repeat' split) <;> simp

@[simp] theorem held_floodRead (s : State) (f : Flood) : (s.floodRead f).held = s.held := by
  have hr : ∀ (l : List Nat) (r : Flood × State), (l.foldl (fun r _ => r.2.floodEntry r.1 r.1.next) r).2.held = r.2.held := by
    intro l
    induction l with
    | nil => exact fun _ => rfl
    | cons _ l ih => exact fun r => (ih _).trans (held_floodEntry _ _ _)
  exact hr _ (f, s)

@[simp] theorem held_replicate (s : State) (f : Flood) (picks : List Nat) : (s.replicate f picks).held = s.held := by
  simp [State.replicate]

@[simp] theorem held_laterCell (s : State) (i pick : Nat) : (s.laterCell i pick).held = s.held := by
  simp only [State.laterCell]
  split <;> simp

@[simp] theorem held_giveLater (s : State) (i pick : Nat) : (s.giveLater i pick).held = s.held := by
  unfold State.giveLater
  split
  · rfl
  · rename_i p _
    have hs := held_grantCell s p.part pick
    split
    · rfl
    · split <;> rename_i hg <;> rw [hg] at hs <;> simpa using hs

@[simp] theorem held_releaseHeld (s : State) (i : Nat) : (s.releaseHeld i).held = s.held := by simp [State.releaseHeld]

theorem held_grantAll (s : State) (i part n : Nat) (picks : List Nat) {u : State}
    (h : s.grantAll i part n picks = some u) :
    u.held = s.held := by
  induction n generalizing s picks with
  | zero => simp only [State.grantAll, Option.some.injEq] at h; rw [h]
  | succ n ih =>
    unfold State.grantAll at h
    split at h
    · cases h
    · rename_i hg
      have hs := held_grantCell s part (nth picks 0 0)
      rw [hg] at hs
      exact (ih _ _ h).trans ((held_modPkt _ _ _).trans hs)

@[simp] theorem held_giveWhole (s : State) (i : Nat) (held : Option Nat) (picks : List Nat) :
    (s.giveWhole i held picks).held = s.held := by
  unfold State.giveWhole
  split
  · rfl
  · dsimp only
    split
    · split <;> simp
    · rename_i hg
      rw [← held_grantAll _ _ _ _ _ hg]
      split <;> simp

@[simp] theorem held_answer (s : State) (r : CellReq) : (s.answer r).held = s.held := by
  simp only [State.answer]
  split <;> simp

@[simp] theorem held_grants (s : State) : s.grants.held = s.held := by simp [State.grants]
@[simp] theorem held_pageGrows (s : State) (i : Nat) : (s.pageGrows i).held = s.held := by simp [State.pageGrows]

@[simp] theorem held_cellOut (s : State) (x : FCell) : (s.cellOut x).held = s.held := by
  simp only [State.cellOut]
  split <;> simp

@[simp] theorem held_releaseSeq (k : Nat) (s : State) (o : Nat) : (State.releaseSeq k s o).held = s.held := by
  induction k generalizing s with
  | zero => rfl
  | succ k ih =>
    unfold State.releaseSeq
    split
    · rfl
    · simp [ih]

@[simp] theorem held_atOutput (s : State) (x : FCell) : (s.atOutput x).held = s.held := by simp [State.atOutput]
@[simp] theorem held_leftInput (s : State) (x : FCell) : (s.leftInput x).held = s.held := by simp [State.leftInput]
@[simp] theorem held_cflSlot (s : State) : s.cflSlot.held = s.held := by simp [State.cflSlot]

@[simp] theorem held_loseCell (s : State) (i n : Nat) : (s.loseCell i n).held = s.held := by
  simp only [State.loseCell]
  split <;> simp

@[simp] theorem held_reseqSkip (s : State) (o : Nat) (x : FCell) : (s.reseqSkip o x).held = s.held := by
  refine (held_releaseSeq _ _ _).trans ((held_foldl (fun s k => ?_) _ _).trans (held_bump _ _ _))
  split <;> simp

/-! #### Functions of Machine/BufCmds -/

theorem held_bufReturnRow (c : Cmd) {r : CmdRule} (h : (bufReturnRow c) = some r) (s : State) (p : Priv) (m : Nat) :
    (r.run s p m).after.held = s.held := by
  unfold bufReturnRow at h
  dsimp only at h
  split at h
  · cases h
  · obtain rfl := Option.some.inj h
    dsimp only
    split
    · rfl
    · split <;> simp

@[simp] theorem held_injectTo (s : State) (q : Nat) (d : Word) (bs : List Byte) (taken : Nat) (held : Option Nat)
    (picks : List Nat) :
    (s.injectTo q d bs taken held picks).after.held = s.held := by
  unfold State.injectTo
  (repeat' split) <;> simp

@[simp] theorem held_injectFrame (s : State) (q : Nat) (d : Word) (bs : List Byte) (taken : Nat) (held : Option Nat)
    (picks : List Nat) :
    (s.injectFrame q d bs taken held picks).after.held = s.held := by
  unfold State.injectFrame
  simp
  split <;> simp

@[simp] theorem held_injectWork (c : Cmd) (octets : List Byte) (picks : List Nat) (s : State) :
    (injectWork c octets picks s).after.held = s.held := by
  unfold injectWork
  (repeat' split) <;> simp

@[simp] theorem held_injectTick (c : Cmd) (octets : List Byte) (picks : List Nat) (left : Nat) (s : State) :
    (injectTick c octets picks left s).after.held = s.held := by
  simp [injectTick]

theorem held_injectRow (c : Cmd) (io : HostIo) (picks : List Nat) {r : CmdRule} (h : (injectRow c io picks) = some r)
    (s : State) (p : Priv) (m : Nat) :
    (r.run s p m).after.held = s.held := by
  unfold injectRow at h
  split at h
  · cases h
  · obtain rfl := Option.some.inj h
    simp

/-! #### Functions of Machine/BurstRx -/

@[simp] theorem held_noteDelim (s : State) (t l : Nat) (e : Expect) (p : Nat) : (s.noteDelim t l e p).held = s.held := (rfl)

@[simp] theorem held_recoverClock (s : State) (t l rate : Nat) : (s.recoverClock t l rate).held = s.held := by
  simp [State.recoverClock]

@[simp] theorem held_acceptBurst (s : State) (t l : Nat) (e : Expect) (p : Nat) (h : BurstHdr) :
    (s.acceptBurst t l e p h).held = s.held := by
  simp [State.acceptBurst]

@[simp] theorem held_snBad (s : State) (t : Nat) : (s.snBad t).held = s.held := by simp [State.snBad]

@[simp] theorem held_takeAnswer (s : State) (t l : Nat) (e g : Expect) (p begins : Nat) :
    (s.takeAnswer t l e g p begins).held = s.held := by
  simp [State.takeAnswer]

@[simp] theorem held_acceptQuiet (s : State) (t l : Nat) (e : Expect) (p : Nat) (h : BurstHdr) :
    (s.acceptQuiet t l e p h).held = s.held := by
  unfold State.acceptQuiet
  simp
  split <;> simp

@[simp] theorem held_overWindow (s : State) (t l : Nat) (e : Expect) : (s.overWindow t l e).held = s.held := by
  simp [State.overWindow]

@[simp] theorem held_candidate (s : State) (t l : Nat) (e : Expect) (p : Nat) (h1 h2 : BitVec 64) :
    (s.candidate t l e p h1 h2).held = s.held := by
  simp only [State.candidate]
  split <;> simp

@[simp] theorem held_loseUnanswered (s : State) (t l : Nat) (e : Expect) : (s.loseUnanswered t l e).held = s.held := by
  simp [State.loseUnanswered]

@[simp] theorem held_fifoLost (s : State) (t l : Nat) : (s.fifoLost t l).held = s.held := by
  simp only [State.fifoLost]
  split <;> simp

@[simp] theorem held_corrected (s : State) (t l n : Nat) : (s.corrected t l n).held = s.held := by simp [State.corrected]

@[simp] theorem held_reportOut (s : State) (t l : Nat) (e : Expect) (x : Element) (pos : Nat) (bs : List Byte)
    (fixed : Option (List Nat)) :
    (s.reportOut t l e x pos bs fixed).held = s.held := by
  simp only [State.reportOut]
  split <;> simp

@[simp] theorem held_ploamOut (s : State) (t l : Nat) (m : PloamIn) : (s.ploamOut t l m).held = s.held := (rfl)

@[simp] theorem held_releaseFrame (s : State) (t l : Nat) (e : Expect) (i : Item) (d : Delin) (out : Nat)
    (p : Nat × BitVec 64) :
    (s.releaseFrame t l e i d out p).held = s.held := by
  simp [State.releaseFrame]

@[simp] theorem held_delineate (t l : Nat) (e : Expect) (i : Item) (out k : Nat) (s : State) (d : Delin) :
    (State.delineate t l e i out k s d).1.held = s.held := by
  induction k generalizing s d with
  | zero => rfl
  | succ k ih =>
    unfold State.delineate
    split
    · rfl
    · rename_i rel _ _ _ _
      cases rel <;> simp [ih]

@[simp] theorem held_dataOut (s : State) (t l : Nat) (e : Expect) (x : Element) (pos : Nat) (info : Option (List Byte))
    :
    (s.dataOut t l e x pos info).held = s.held := by
  simp only [State.dataOut]
  split <;> simp

@[simp] theorem held_elementOut (s : State) (t l : Nat) (e : Expect) (x : Element) (pos : Nat) (rx : List Byte)
    (fixed : Option (List Nat)) :
    (s.elementOut t l e x pos rx fixed).held = s.held := by
  unfold State.elementOut
  (repeat' split) <;> simp

@[simp] theorem held_answerOut (s : State) (t l : Nat) (x : Answer) (rx : List Byte) (fixed : Option (List Nat)) :
    (s.answerOut t l x rx fixed).held = s.held := by
  simp only [State.answerOut]
  split <;> simp

@[simp] theorem held_keysRead (s : State) : s.keysRead.held = s.held := by simp [State.keysRead]

@[simp] theorem held_takeXgem (s : State) (t l : Nat) (x : XgemIn) (len : Nat) : (s.takeXgem t l x len).held = s.held := by
  simp [State.takeXgem]

@[simp] theorem held_deskewIn (s : State) (t : Nat) (x : Nat × Bool × DskFrame) : (s.deskewIn t x).held = s.held := by
  simp [State.deskewIn]

@[simp] theorem held_deskewNext (s : State) (t l : Nat) : (s.deskewNext t l).held = s.held := by
  simp only [State.deskewNext]
  split <;> simp

theorem held_takePloam (s : State) (t l : Nat) (p : PloamIn → Bool) {u : PloamIn × State}
    (h : (s.takePloam t l p) = some u) :
    u.2.held = s.held := by
  obtain ⟨m, -, rfl⟩ := Option.map_eq_some_iff.mp h
  simp

@[simp] theorem held_rangeMeasured (s : State) (t l h : Nat) (x : PloamIn) (n : Nat) :
    (s.rangeMeasured t l h x n).held = s.held := by
  simp only [State.rangeMeasured]
  split <;> simp

@[simp] theorem held_rangeMissed (s : State) (t l h : Nat) : (s.rangeMissed t l h).held = s.held := by
  simp [State.rangeMissed]

@[simp] theorem held_snMeasured (s : State) (t l : Nat) (x : PloamIn) (n : Nat) : (s.snMeasured t l x n).held = s.held := by
  unfold State.snMeasured
  simp
  split <;> simp

/-! #### Functions of Machine/EgressOps -/

@[simp] theorem held_putStamp (s : State) (x : Stamp) : (s.putStamp x).held = s.held := by simp [State.putStamp]
@[simp] theorem held_stampsDue (s : State) : s.stampsDue.held = s.held := by simp [State.stampsDue]

@[simp] theorem held_timestamp (s : State) (m : Nat) (sent : Bool) (at_ : Nat) (bs : List Byte) :
    (s.timestamp m sent at_ bs).held = s.held := by
  simp [State.timestamp]

@[simp] theorem held_endFrame (s : State) (p : Packet) : (s.endFrame p).held = s.held := by simp [State.endFrame]
@[simp] theorem held_poisoned (s : State) (p : Packet) : (s.poisoned p).held = s.held := by simp [State.poisoned]

@[simp] theorem held_sendLane (s : State) (t l h : Nat) (e : QEntry) (p : Packet) :
    (s.sendLane t l h e p).held = s.held := by
  simp [State.sendLane]

@[simp] theorem held_sendMac (s : State) (m at_ : Nat) (p : Packet) : (s.sendMac m at_ p).held = s.held := by
  simp [State.sendMac]

@[simp] theorem held_finishGoing (s : State) : s.finishGoing.held = s.held := by
  refine held_foldl (fun s g => ?_) _ s
  dsimp only
  split
  · simp
  · split
    · rfl
    · split <;> simp

@[simp] theorem held_serveLane (s : State) (t l : Nat) : (s.serveLane t l).held = s.held := by
  have hs := held_chooseSdu s t l
  unfold State.serveLane
  split <;> rename_i hc <;> rw [hc] at hs <;> simpa using hs

@[simp] theorem held_setGates (s : State) (m : Nat) (g : Gates) : (s.setGates m g).held = s.held := (rfl)

@[simp] theorem held_showGate (s : State) (m x : Nat) : (s.showGate m x).held = s.held := by
  simp only [State.showGate]
  split <;> simp

@[simp] theorem held_settleEgress (s : State) (m : Nat) : (s.settleEgress m).held = s.held := by simp [State.settleEgress]

@[simp] theorem held_purgeEg (k : Nat) (s : State) (q : Nat) : (State.purgeEg k s q).held = s.held := by
  induction k generalizing s with
  | zero => rfl
  | succ k ih =>
    unfold State.purgeEg
    split
    · rfl
    · split
      · simp [ih]
      · rfl

@[simp] theorem held_chooseEg (s : State) (m : Nat) : (s.chooseEg m).2.held = s.held := by
  unfold State.chooseEg
  dsimp only
  split
  · simp
  · generalize (if List.isEmpty _ = true then _ else _ : Nat × List Child) = x
    split
    · simp
    · split
      all_goals
        rename_i hd
        have hs := congrArg (fun x => x.2.held) hd
        simp only [held_dwrr, held_monEv, held_settleEgress] at hs
      · simpa using hs.symm
      · split <;> simpa using hs.symm

@[simp] theorem held_startFrame (s : State) (m : Nat) : (s.startFrame m).held = s.held := by
  have hs := held_chooseEg s m
  unfold State.startFrame
  split <;> rename_i hc <;> rw [hc] at hs <;> simpa using hs

@[simp] theorem held_emptyMac (s : State) (m : Nat) : (s.emptyMac m).held = s.held := by simp [State.emptyMac]
@[simp] theorem held_emptyPort (s : State) (p : Nat) : (s.emptyPort p).held = s.held := by simp [State.emptyPort]

/-! #### Functions of Machine/TableCmds -/

@[simp] theorem held_hostMac (s : State) (ws : List Word) (old : Option (List Word)) :
    (s.hostMac ws old).2.held = s.held := by
  simp only [State.hostMac]
  split <;> simp

@[simp] theorem held_hostEntry (s : State) (t : Nat) (ws : List Word) (old : Option (List Word)) :
    (s.hostEntry t ws old).2.held = s.held := by
  simp only [State.hostEntry]
  split <;> simp

@[simp] theorem held_replaceEntry (s : State) (t : Nat) (old ws : List Word) : (s.replaceEntry t old ws).held = s.held := by
  simp [State.replaceEntry]

@[simp] theorem held_insertAt (s : State) (t slot : Nat) (ws : List Word) : (s.insertAt t slot ws).held = s.held := by
  simp [State.insertAt]

@[simp] theorem held_insertTick (s : State) (p : Priv) (i : Insertion) (replace : Bool) :
    (s.insertTick p i replace).after.held = s.held := by
  unfold State.insertTick
  dsimp only
  split
  · simp
  · split
    · simp
    · split
      · simp
      · rename_i hi
        simp [held_insertStep _ _ _ hi]
      · simp

@[simp] theorem held_freshQueue (s : State) (h : Nat) : (s.freshQueue h).held = s.held := by simp [State.freshQueue]

@[simp] theorem held_writeQueue (s : State) (h : Nat) (ws : List Word) : (s.writeQueue h ws).after.held = s.held := by
  simp [State.writeQueue]

@[simp] theorem held_insertIndexed (s : State) (t i : Nat) (ws : List Word) :
    (s.insertIndexed t i ws).after.held = s.held := by
  simp [State.insertIndexed]

@[simp] theorem held_tblInsertRule (c : Cmd) (s : State) (p : Priv) (m : Nat) :
    ((tblInsertRule c).run s p m).after.held = s.held := by
  simp [tblInsertRule]

@[simp] theorem held_deleteIndexed (s : State) (t i : Nat) : (s.deleteIndexed t i).after.held = s.held := by
  simp [State.deleteIndexed]

@[simp] theorem held_removeKey (s : State) (t : Nat) (key : List Word) : (s.removeKey t key).held = s.held := by
  simp [State.removeKey]

@[simp] theorem held_deleteTick (s : State) (p : Priv) (t : Nat) (key : List Word) :
    (s.deleteTick p t key).after.held = s.held := by
  simp only [State.deleteTick]
  split <;> simp

@[simp] theorem held_tblDeleteRule (c : Cmd) (s : State) (p : Priv) (m : Nat) :
    ((tblDeleteRule c).run s p m).after.held = s.held := by
  simp [tblDeleteRule]

@[simp] theorem held_tblSearchRule (c : Cmd) (io : HostIo) (s : State) (p : Priv) (m : Nat) :
    ((tblSearchRule c io).run s p m).after.held = s.held := by
  unfold tblSearchRule
  simp
  split <;> simp

@[simp] theorem held_setWalk (s : State) (x : Nat) (w : Option Walk) : (s.setWalk x w).held = s.held := (rfl)

@[simp] theorem held_walkTick (s : State) (p : Priv) (x want addr n : Nat) :
    (s.walkTick p x want addr n).after.held = s.held := by
  simp only [State.walkTick]
  split <;> simp

@[simp] theorem held_tblNextRule (c : Cmd) (s : State) (p : Priv) (m : Nat) :
    ((tblNextRule c).run s p m).after.held = s.held := by
  simp only [tblNextRule]
  split <;> simp

@[simp] theorem held_flushTick (s : State) (port : Nat) (all : Bool) (slot removed : Nat) :
    (s.flushTick port all slot removed).after.held = s.held := by
  simp [State.flushTick]

@[simp] theorem held_tblFlushPortRule (c : Cmd) (s : State) (p : Priv) (m : Nat) :
    ((tblFlushPortRule c).run s p m).after.held = s.held := (rfl)

@[simp] theorem held_stageWords (s : State) (t i first : Nat) (ws : List Word) :
    (s.stageWords t i first ws).held = s.held := (rfl)

@[simp] theorem held_stageTick (s : State) (t i first : Nat) (ws : List Word) (took left : Nat) :
    (s.stageTick t i first ws took left).after.held = s.held := by
  simp [State.stageTick]

@[simp] theorem held_ruleStageRule (c : Cmd) (io : HostIo) (s : State) (p : Priv) (m : Nat) :
    ((ruleStageRule c io).run s p m).after.held = s.held := by
  simp [ruleStageRule]

@[simp] theorem held_swapGenerations (s : State) (copy : Bool) : (s.swapGenerations copy).held = s.held := by
  simp [State.swapGenerations]

@[simp] theorem held_genSwapRule (c : Cmd) (s : State) (p : Priv) (m : Nat) :
    ((genSwapRule c).run s p m).after.held = s.held := by
  simp [genSwapRule]

@[simp] theorem held_freeCopy (s : State) : s.freeCopy.held = s.held := by
  simp only [State.freeCopy]
  split <;> simp

@[simp] theorem held_learnFail (s : State) (r : LearnReq) : (s.learnFail r).held = s.held := by simp [State.learnFail]
@[simp] theorem held_learnIdle (s : State) : s.learnIdle.held = s.held := (rfl)

@[simp] theorem held_learnOn (s : State) (r : LearnReq) (i : Insertion) : (s.learnOn r i).held = s.held := by
  simp [State.learnOn]

@[simp] theorem held_learnFound (s : State) (r : LearnReq) (ws : List Word) : (s.learnFound r ws).held = s.held := by
  simp [State.learnFound]

@[simp] theorem held_learnTick (s : State) : s.learnTick.held = s.held := by
  unfold State.learnTick
  split
  · rfl
  · dsimp only
    split
    · simp
    · split
      · simp
      · split
        · simp
        · rename_i hi
          simp [held_insertStep _ _ _ hi]
        · simp

@[simp] theorem held_learnTake (s : State) : s.learnTake.held = s.held := by
  simp only [State.learnTake]
  split <;> simp

@[simp] theorem held_hitTick (s : State) (key : List Word) : (s.hitTick key).held = s.held := by simp [State.hitTick]

@[simp] theorem held_ageVisit (s : State) (slot : Nat) : (s.ageVisit slot).held = s.held := by
  simp only [State.ageVisit]
  split <;> simp

@[simp] theorem held_visitTick (s : State) (x : Nat) : (s.visitTick x).held = s.held := by simp [State.visitTick]
@[simp] theorem held_scrub (s : State) (t slot : Nat) : (s.scrub t slot).held = s.held := by simp [State.scrub]
@[simp] theorem held_unqueueScrub (s : State) (t slot : Nat) : (s.unqueueScrub t slot).held = s.held := (rfl)
@[simp] theorem held_scrubTick (s : State) : s.scrubTick.held = s.held := by simp [State.scrubTick]

@[simp] theorem held_macTick (s : State) : s.macTick.held = s.held := by
  unfold State.macTick
  simp [-List.foldl_reverse]

/-! #### Functions of Machine/Clock -/

@[simp] theorem held_monRun (s : State) (k a : Nat) (sel : Word) : (s.monRun k a sel).held = s.held := by
  simp [State.monRun]

@[simp] theorem held_monTicks (s : State) (k : Nat) : (s.monTicks k).held = s.held := by simp [State.monTicks]
@[simp] theorem held_ntNoted (s : State) : s.ntNoted.held = s.held := by simp [State.ntNoted]
@[simp] theorem held_tickOn (s : State) (k : Nat) : (s.tickOn k).held = s.held := by simp [State.tickOn]

/-! #### Functions of Machine/DigestOps -/

@[simp] theorem held_startDigest (s : State) : s.startDigest.held = s.held := (rfl)
@[simp] theorem held_endDigest (s : State) (e : Nat) : (s.endDigest e).held = s.held := by simp [State.endDigest]
@[simp] theorem held_diverge (s : State) (cause : Nat) : (s.diverge cause).held = s.held := (rfl)

/-! #### Functions of Machine/ImgOps -/

@[simp] theorem held_putFlash (s : State) (a : Nat) (bs : List Byte) : (s.putFlash a bs).held = s.held := (rfl)
@[simp] theorem held_eraseFlash (s : State) (a b : Nat) : (s.eraseFlash a b).held = s.held := (rfl)

@[simp] theorem held_writeBoot (s : State) (c seq : Nat) (trial : Bool) (slot : Nat) :
    (s.writeBoot c seq trial slot).held = s.held :=
  (held_putFlash _ _ _).trans (held_eraseFlash _ _ _)

/-! #### Functions of Machine/QueueOps -/

@[simp] theorem held_ringControl (s : State) (q off : Nat) (v : Word) : (s.ringControl q off v).held = s.held := by
  simp [State.ringControl]

@[simp] theorem held_ringDoorbell (s : State) (q t : Nat) : (s.ringDoorbell q t).held = s.held := by
  simp [State.ringDoorbell]

@[simp] theorem held_cplConsumed (s : State) (q head : Nat) : (s.cplConsumed q head).held = s.held := by
  unfold State.cplConsumed
  dsimp only
  (repeat' split) <;> simp

@[simp] theorem held_fetchWords (s : State) (q : Nat) (ws : List Word) : (s.fetchWords q ws).held = s.held := by
  simp [State.fetchWords]

@[simp] theorem held_nopRule (c : Cmd) (s : State) (p : Priv) (m : Nat) :
    ((nopRule c).run s p m).after.held = s.held := (rfl)

@[simp] theorem held_fenceRule (c : Cmd) (s : State) (p : Priv) (m : Nat) :
    ((fenceRule c).run s p m).after.held = s.held := by
  simp [fenceRule]

@[simp] theorem held_thaw (s : State) (q : Nat) (discard : Bool) : (s.thaw q discard).held = s.held := by
  unfold State.thaw
  simp
  split <;> simp

@[simp] theorem held_thawRule (c : Cmd) (s : State) (p : Priv) (m : Nat) :
    ((thawRule c).run s p m).after.held = s.held := by
  simp [thawRule]

@[simp] theorem held_barWrite (s : State) (ok : Bool) (f : State → State) (hf : ∀ x, (f x).held = x.held) :
    (s.barWrite ok f).held = s.held := by
  unfold State.barWrite
  (repeat' split) <;> simp_all

@[simp] theorem held_queueCharge (s : State) (q : Nat) : (s.queueCharge q).held = s.held := (rfl)
@[simp] theorem held_disableQueue (s : State) (q : Nat) : (s.disableQueue q).held = s.held := by simp [State.disableQueue]

@[simp] theorem held_rewriteCpl (s : State) (q : Nat) (l : LastCpl) : (s.rewriteCpl q l).held = s.held := by
  simp [State.rewriteCpl]

@[simp] theorem held_cplAgain (s : State) (q : Nat) (e : Exec) (status progress result : Nat) :
    (s.cplAgain q e status progress result).held = s.held := by
  simp [State.cplAgain]

@[simp] theorem held_cplFails (s : State) (q : Nat) : (s.cplFails q).held = s.held := by
  unfold State.cplFails
  split
  · rfl
  · simp

@[simp] theorem held_fetchFails (s : State) (q : Nat) : (s.fetchFails q).held = s.held := by simp [State.fetchFails]

@[simp] theorem held_dataFails (s : State) (q : Nat) : (s.dataFails q).held = s.held := by
  unfold State.dataFails
  (repeat' split) <;> simp

@[simp] theorem held_abandonDump (s : State) : s.abandonDump.held = s.held := by
  simp only [State.abandonDump]
  split <;> simp

@[simp] theorem held_vfQueue (s : State) (q : Nat) : (s.vfQueue q).held = s.held := by
  unfold State.vfQueue
  dsimp only
  (repeat' split) <;> simp

/-! #### Functions of Machine/UplOps -/

@[simp] theorem held_countCodeword (s : State) (m : Nat) (e : List Nat) : (s.countCodeword m e).held = s.held := by
  simp [State.countCodeword]

@[simp] theorem held_countFec (s : State) (m : Nat) : (s.countFec m).held = s.held := by simp [State.countFec]

@[simp] theorem held_rxCount (s : State) (m : Nat) (bs : List Byte) (refused : Option Nat) (sfd : Nat) :
    (s.rxCount m bs refused sfd).held = s.held := by
  unfold State.rxCount
  dsimp only
  (repeat' split) <;> simp

@[simp] theorem held_spoilArrival (s : State) (id : Nat) (cut : Bool) : (s.spoilArrival id cut).held = s.held := by
  simp [State.spoilArrival]

@[simp] theorem held_setRx (s : State) (m : Nat) (r : Option RxFrame) : (s.setRx m r).held = s.held := (rfl)

@[simp] theorem held_rxJudge (s : State) (m : Nat) (bs : List Byte) (f : UplFrame) :
    (s.rxJudge m bs f).2.held = s.held := by
  simp only [State.rxJudge]
  split <;> simp

@[simp] theorem held_rxMore (s : State) (m : Nat) (r : RxFrame) (bs : List Byte) (f : UplFrame) :
    (s.rxMore m r bs f).2.held = s.held := by
  simp only [State.rxMore]
  split <;> simp

@[simp] theorem held_rxFrame (s : State) (m : Nat) (f : UplFrame) : (s.rxFrame m f).held = s.held := by
  unfold State.rxFrame
  dsimp only
  (repeat' split) <;> simp

@[simp] theorem held_writePage (s : State) (p : Nat) (g : Page) : (s.writePage p g).held = s.held := by
  simp [State.writePage]

@[simp] theorem held_changeGates (s : State) (m x : Nat) : (s.changeGates m x).held = s.held := by
  simp only [State.changeGates]
  split <;> simp

@[simp] theorem held_puntRecord (s : State) (i : Nat) (p : Packet) : (s.puntRecord i p).held = s.held := by
  simp [State.puntRecord]

/-! #### Functions of Machine/FaultOps -/

@[simp] theorem held_setHist (s : State) (cls i : Nat) (h : RetryHist) : (s.setHist cls i h).held = s.held := (rfl)
@[simp] theorem held_clearHist (s : State) (cls i : Nat) : (s.clearHist cls i).held = s.held := (rfl)

@[simp] theorem held_logRetire (s : State) (cls i : Nat) (restore : Bool) :
    (s.logRetire cls i restore).held = s.held := (rfl)

@[simp] theorem held_stopWorks (s : State) (p : Wait → Bool) : (s.stopWorks p).held = s.held := by simp [State.stopWorks]

@[simp] theorem held_laneLoss (s : State) (t l : Nat) (f : Lane → Lane) : (s.laneLoss t l f).held = s.held := by
  simp [State.laneLoss]

@[simp] theorem held_treeLoss (s : State) (t : Nat) (f : Tree → Tree) : (s.treeLoss t f).held = s.held := by
  simp [State.treeLoss]

@[simp] theorem held_portChange (s : State) (p : Nat) (f : State → State) (hf : ∀ x, (f x).held = x.held) :
    (s.portChange p f).held = s.held := by
  unfold State.portChange
  simp_all

@[simp] theorem held_lineLoss (s : State) (m : Nat) (lost : Bool) : (s.lineLoss m lost).held = s.held := by
  simp [State.lineLoss]

@[simp] theorem held_portHandshake (s : State) (p : Nat) (lost : Bool) : (s.portHandshake p lost).held = s.held :=
  held_portChange _ _ _ (fun _ => rfl)

@[simp] theorem held_hbmLoss (s : State) (k : Nat) (lost : Bool) : (s.hbmLoss k lost).held = s.held := by
  simp [State.hbmLoss]

@[simp] theorem held_relinkPage (s : State) (p q : Nat) (g : Page) : (s.relinkPage p q g).held = s.held := by
  unfold State.relinkPage
  simp
  split <;> simp

@[simp] theorem held_pageBad (s : State) (p : Nat) : (s.pageBad p).held = s.held := by
  unfold State.pageBad
  split
  · rfl
  · refine (held_foldl (fun s i => ?_) _ _).trans (held_setPage _ _ _)
    split <;> simp

@[simp] theorem held_losePage (s : State) (p : Nat) : (s.losePage p).held = s.held := by
  simp only [State.losePage]
  split <;> simp

@[simp] theorem held_movePage (s : State) (p pick : Nat) : (s.movePage p pick).2.held = s.held := by
  unfold State.movePage
  (repeat' split) <;> simp

@[simp] theorem held_movePages (s : State) (c : Nat) (picks : List Nat) : (s.movePages c picks).2.held = s.held := by
  have hr : ∀ (l : List (Nat × Nat)) (r : Nat × State), (l.foldl (fun r x =>
      (r.1 + (r.2.movePage x.1 (nth picks x.2 0)).1, (r.2.movePage x.1 (nth picks x.2 0)).2)) r).2.held = r.2.held := by
    intro l
    induction l with
    | nil => exact fun _ => rfl
    | cons _ l ih => exact fun r => (ih _).trans (held_movePage _ _ _)
  exact hr _ (0, s)

@[simp] theorem held_dropPipe (s : State) (i : Nat) : (s.dropPipe i).held = s.held := by simp [State.dropPipe]

@[simp] theorem held_retryService (s : State) (cls i : Nat) (on : Bool) : (s.retryService cls i on).held = s.held := by
  unfold State.retryService
  have hp := held_portChange s i (fun s =>
    { s with flt := { s.flt with portRetry := smSet (fun _ => false) s.flt.portRetry i on } }) (fun _ => rfl)
  simp [hp]

@[simp] theorem held_startRetry (s : State) (cls i : Nat) : (s.startRetry cls i).held = s.held := by simp [State.startRetry]

@[simp] theorem held_retireEffect (s : State) (cls i : Nat) : (s.retireEffect cls i).1.held = s.held := by
  unfold State.retireEffect
  (repeat' split) <;> simp

@[simp] theorem held_retireRes (s : State) (auto : Bool) (cls i : Nat) : (s.retireRes auto cls i).after.held = s.held := by
  unfold State.retireRes
  simp
  split <;> simp

@[simp] theorem held_restored (s : State) (cls i : Nat) : (s.restored cls i).held = s.held := by simp [State.restored]

@[simp] theorem held_restoreRes (s : State) (cls i : Nat) : (s.restoreRes cls i).after.held = s.held := by
  simp [State.restoreRes]

@[simp] theorem held_autoRetire (s : State) (cls i : Nat) : (s.autoRetire cls i).held = s.held := by simp [State.autoRetire]
@[simp] theorem held_transient (s : State) (cls i : Nat) : (s.transient cls i).held = s.held := by simp [State.transient]
@[simp] theorem held_endRetry (s : State) (cls i : Nat) : (s.endRetry cls i).held = s.held := by simp [State.endRetry]

@[simp] theorem held_nodeChange (s : State) (n : Nat) (f : State → State) (hf : ∀ x, (f x).held = x.held) :
    (s.nodeChange n f).held = s.held := by
  unfold State.nodeChange
  simp_all

@[simp] theorem held_slotLost (s : State) (t slot : Nat) (readable : Bool) :
    (s.slotLost t slot readable).held = s.held := by
  simp [State.slotLost]

@[simp] theorem held_bankWordBad (s : State) (t b w : Nat) : (s.bankWordBad t b w).held = s.held := by
  simp only [State.bankWordBad]
  split <;> simp

@[simp] theorem held_abandonPages (s : State) (c : Nat) : (s.abandonPages c).held = s.held := by simp [State.abandonPages]
@[simp] theorem held_purgePkt (s : State) (i : Nat) : (s.purgePkt i).held = s.held := by simp [State.purgePkt]

@[simp] theorem held_pointerLost (s : State) (i : Nat) : (s.pointerLost i).held = s.held := by
  simp only [State.pointerLost]
  split <;> simp

/-! #### Functions of Machine/RegCheck -/

@[simp] theorem held_storeWord (s : State) (w : WordWrite) : (s.storeWord w).held = s.held := (rfl)

/-! #### Functions of Machine/RegHooks -/

@[simp] theorem held_gpioHook (s was : State) : (s.gpioHook was).held = s.held := by simp [State.gpioHook]
@[simp] theorem held_requestGo (s : State) : s.requestGo.held = s.held := by simp [State.requestGo]
@[simp] theorem held_softAsked (s : State) : s.softAsked.held = s.held := (rfl)
@[simp] theorem held_hookCmd (s : State) (w : WordWrite) : (s.hookCmd w).held = s.held := by simp [State.hookCmd]
@[simp] theorem held_evtRingReset (s : State) : s.evtRingReset.held = s.held := (rfl)

@[simp] theorem held_alarmWrite (s : State) (a : Nat) (v : Word) : (s.alarmWrite a v).held = s.held := by
  simp [State.alarmWrite]

@[simp] theorem held_hookEvt (s : State) (w : WordWrite) : (s.hookEvt w).held = s.held := by simp [State.hookEvt]
@[simp] theorem held_bwReset (s : State) : s.bwReset.held = s.held := (rfl)
@[simp] theorem held_loadSeed (s : State) : s.loadSeed.held = s.held := (rfl)
@[simp] theorem held_bwStart (s : State) : s.bwStart.held = s.held := (rfl)
@[simp] theorem held_hookMon (s was : State) (w : WordWrite) : (s.hookMon was w).held = s.held := by simp [State.hookMon]
@[simp] theorem held_hookTim (s was : State) (w : WordWrite) : (s.hookTim was w).held = s.held := by simp [State.hookTim]
@[simp] theorem held_askHandover (s : State) (t : Nat) : (s.askHandover t).held = s.held := by simp [State.askHandover]
@[simp] theorem held_hookOhm (s was : State) (w : WordWrite) : (s.hookOhm was w).held = s.held := by simp [State.hookOhm]
@[simp] theorem held_hookUpl (s : State) (w : WordWrite) : (s.hookUpl w).held = s.held := by simp [State.hookUpl]
@[simp] theorem held_dropEqds (s : State) (t : Nat) : (s.dropEqds t).held = s.held := by simp [State.dropEqds]
@[simp] theorem held_hookCtrl (s was : State) (t : Nat) : (s.hookCtrl was t).held = s.held := by simp [State.hookCtrl]
@[simp] theorem held_unnamedTx (s : State) (t : Nat) : (s.unnamedTx t).held = s.held := by simp [State.unnamedTx]
@[simp] theorem held_hookTree (s was : State) (w : WordWrite) : (s.hookTree was w).held = s.held := by simp [State.hookTree]
@[simp] theorem held_askChange (s : State) (m : Nat) : (s.askChange m).held = s.held := by simp [State.askChange]

@[simp] theorem held_hookDsq (s was : State) (w : WordWrite) : (s.hookDsq was w).held = s.held := by
  unfold State.hookDsq
  dsimp only
  split <;> simp

@[simp] theorem held_hookAge (s was : State) : (s.hookAge was).held = s.held := by simp [State.hookAge]
@[simp] theorem held_puntRingReset (s : State) : s.puntRingReset.held = s.held := by simp [State.puntRingReset]
@[simp] theorem held_hookMem (s was : State) (w : WordWrite) : (s.hookMem was w).held = s.held := by simp [State.hookMem]

/-! #### Functions of Machine/RegWrite -/

@[simp] theorem held_readRule (c : Cmd) (io : HostIo) (s : State) (p : Priv) (m : Nat) :
    ((readRule c io).run s p m).after.held = s.held := by
  simp [readRule]

/-! #### Functions of Machine/DefaultsCmd -/

@[simp] theorem held_defaultsRule (c : Cmd) (s : State) (p : Priv) (m : Nat) :
    ((defaultsRule c).run s p m).after.held = s.held := by
  simp only [defaultsRule]
  split <;> simp

/-! #### Functions of Machine/FaultCmds -/

@[simp] theorem held_resRule (c : Cmd) (op : Nat) (work : State → Ran) (hwork : ∀ x, (work x).after.held = x.held)
    (s : State) (p : Priv) (m : Nat) :
    ((resRule c op work).run s p m).after.held = s.held := by
  unfold resRule
  simp_all

@[simp] theorem held_retireRule (c : Cmd) (s : State) (p : Priv) (m : Nat) :
    ((retireRule c).run s p m).after.held = s.held := by
  simp [retireRule]

@[simp] theorem held_restoreRule (c : Cmd) (s : State) (p : Priv) (m : Nat) :
    ((restoreRule c).run s p m).after.held = s.held := by
  simp [restoreRule]

@[simp] theorem held_pcRebuilt (s : State) (pc : Nat) : (s.pcRebuilt pc).held = s.held := by simp [State.pcRebuilt]

/-! #### Functions of Machine/KeyCmds -/

@[simp] theorem held_keyLockRule (c : Cmd) (s : State) (p : Priv) (m : Nat) :
    ((keyLockRule c).run s p m).after.held = s.held := by
  unfold keyLockRule
  dsimp only
  (repeat' split) <;> simp

@[simp] theorem held_keyLoadWork (c : Cmd) (io : HostIo) (s : State) : (keyLoadWork c io s).after.held = s.held := (rfl)
@[simp] theorem held_keyGenWork (c : Cmd) (s : State) : (keyGenWork c s).after.held = s.held := (rfl)
@[simp] theorem held_keyEraseWork (c : Cmd) (s : State) : (keyEraseWork c s).after.held = s.held := (rfl)

@[simp] theorem held_keyEcbWork (c : Cmd) (io : HostIo) (m n : Nat) (s : State) :
    (keyEcbWork c io m n s).held = s.held := by
  simp [keyEcbWork]

@[simp] theorem held_ecbDecSlotWork (c : Cmd) (io : HostIo) (s : State) : (ecbDecSlotWork c io s).after.held = s.held := by
  simp [ecbDecSlotWork]

@[simp] theorem held_cmacGenWork (c : Cmd) (io : HostIo) (s : State) : (cmacGenWork c io s).after.held = s.held := by
  simp [cmacGenWork]

@[simp] theorem held_cmacVerifyWork (c : Cmd) (io : HostIo) (s : State) : (cmacVerifyWork c io s).after.held = s.held := by
  simp [cmacVerifyWork]

@[simp] theorem held_wrapWork (c : Cmd) (s : State) : (wrapWork c s).after.held = s.held := by simp [wrapWork]

@[simp] theorem held_unwrapWork (c : Cmd) (io : HostIo) (s : State) : (unwrapWork c io s).after.held = s.held := by
  simp only [unwrapWork]
  split <;> simp

@[simp] theorem held_keyEnd (c : Cmd) (io : HostIo) (s : State) : (keyEnd c io s).after.held = s.held := by
  unfold keyEnd
  split
  · rfl
  · split <;> simp

@[simp] theorem held_keyTick (c : Cmd) (io : HostIo) (took left prog : Nat) (s : State) :
    (keyTick c io took left prog s).after.held = s.held := by
  simp [keyTick]

@[simp] theorem held_keyStart (c : Cmd) (io : HostIo) (s : State) (x3 : Priv) (x4 : Nat) :
    (keyStart c io s x3 x4).after.held = s.held := by
  simp [keyStart]

@[simp] theorem held_setTxWork (c : Cmd) (s : State) (x2 : Priv) (x3 : Nat) :
    (setTxWork c s x2 x3).after.held = s.held := by
  simp only [setTxWork]
  split <;> simp

@[simp] theorem held_setAttrWork (c : Cmd) (s : State) (x2 : Priv) (x3 : Nat) :
    (setAttrWork c s x2 x3).after.held = s.held := (rfl)

@[simp] theorem held_leaseEnd (s : State) : s.leaseEnd.held = s.held := by
  simp only [State.leaseEnd]
  split <;> simp

/-! #### Functions of Machine/OnuCmds -/

@[simp] theorem held_onuRule (c : Cmd) (argOk : State → Bool) (work : State → Ran)
    (hwork : ∀ x, (work x).after.held = x.held) (s : State) (p : Priv) (m : Nat) :
    ((onuRule c argOk work).run s p m).after.held = s.held := by
  unfold onuRule
  simp_all

theorem held_onuRow (c : Cmd) (op : Nat) (argOk : State → Bool) (work : State → Ran)
    (hwork : ∀ x, (work x).after.held = x.held) {r : CmdRule} (h : (onuRow c op argOk work) = some r) (s : State)
    (p : Priv) (m : Nat) :
    (r.run s p m).after.held = s.held := by
  unfold onuRow at h
  split at h
  · obtain rfl := Option.some.inj h
    exact held_onuRule _ _ _ hwork _ _ _
  · split at h
    · obtain rfl := Option.some.inj h
      exact held_onuRule _ _ _ hwork _ _ _
    · cases h

@[simp] theorem held_noteChanged (s : State) (h : Nat) : (s.noteChanged h).held = s.held := (rfl)
@[simp] theorem held_admitWork (s : State) (c : Cmd) : (s.admitWork c).after.held = s.held := by simp [State.admitWork]

theorem held_onuAdmitRow (c : Cmd) {r : CmdRule} (h : (onuAdmitRow c) = some r) (s : State) (p : Priv) (m : Nat) :
    (r.run s p m).after.held = s.held :=
  held_onuRow _ _ _ _ (fun _ => by simp) h s p m

@[simp] theorem held_updateWork (s : State) (c : Cmd) : (s.updateWork c).after.held = s.held := by simp [State.updateWork]

theorem held_onuUpdateRow (c : Cmd) {r : CmdRule} (h : (onuUpdateRow c) = some r) (s : State) (p : Priv) (m : Nat) :
    (r.run s p m).after.held = s.held :=
  held_onuRow _ _ _ _ (fun _ => by simp) h s p m

@[simp] theorem held_removeOnu (s : State) (h : Nat) : (s.removeOnu h).held = s.held := by simp [State.removeOnu]

theorem held_onuRemoveRow (c : Cmd) {r : CmdRule} (h : (onuRemoveRow c) = some r) (s : State) (p : Priv) (m : Nat) :
    (r.run s p m).after.held = s.held :=
  held_onuRow _ _ _ _ (fun _ => by simp) h s p m

theorem held_setOwnerRow (c : Cmd) {r : CmdRule} (h : (setOwnerRow c) = some r) (s : State) (p : Priv) (m : Nat) :
    (r.run s p m).after.held = s.held :=
  held_onuRow _ _ _ _ (fun _ => by simp) h s p m

@[simp] theorem held_bindAlloc (s : State) (h a id : Nat) : (s.bindAlloc h a id).held = s.held := by simp [State.bindAlloc]
@[simp] theorem held_unbindAlloc (s : State) (h a : Nat) : (s.unbindAlloc h a).held = s.held := by simp [State.unbindAlloc]
@[simp] theorem held_bindWork (s : State) (c : Cmd) : (s.bindWork c).after.held = s.held := by simp [State.bindWork]

theorem held_bindAllocRow (c : Cmd) {r : CmdRule} (h : (bindAllocRow c) = some r) (s : State) (p : Priv) (m : Nat) :
    (r.run s p m).after.held = s.held :=
  held_onuRow _ _ _ _ (fun _ => by simp) h s p m

@[simp] theorem held_unbindWork (s : State) (c : Cmd) : (s.unbindWork c).after.held = s.held := by
  simp only [State.unbindWork]
  split <;> simp

theorem held_unbindAllocRow (c : Cmd) {r : CmdRule} (h : (unbindAllocRow c) = some r) (s : State) (p : Priv) (m : Nat) :
    (r.run s p m).after.held = s.held :=
  held_onuRow _ _ _ _ (fun _ => by simp) h s p m

@[simp] theorem held_setSkew (s : State) (h : Nat) : (s.setSkew h).held = s.held := by simp [State.setSkew]

@[simp] theorem held_setEqd (s : State) (h l : Nat) (v : Bool) (delay : Nat) : (s.setEqd h l v delay).held = s.held := by
  simp [State.setEqd]

theorem held_setEqdRow (c : Cmd) {r : CmdRule} (h : (setEqdRow c) = some r) (s : State) (p : Priv) (m : Nat) :
    (r.run s p m).after.held = s.held :=
  held_onuRow _ _ _ _ (fun _ => by simp) h s p m

@[simp] theorem held_msgQueued (s : State) (c : Cmd) (bs : List Byte) : (s.msgQueued c bs).after.held = s.held := by
  simp [State.msgQueued]

@[simp] theorem held_msgRule (c : Cmd) (bs : State → List Byte) (ok : Bool) (s : State) (p : Priv) (m : Nat) :
    ((msgRule c bs ok).run s p m).after.held = s.held := by
  simp only [msgRule]
  split <;> simp

theorem held_ploamRow (ty : Nat) (c : Cmd) {r : CmdRule} (h : (ploamRow ty c) = some r) (s : State) (p : Priv)
    (m : Nat) :
    (r.run s p m).after.held = s.held := by
  unfold ploamRow at h
  split at h
  · obtain rfl := Option.some.inj h
    simp
  · cases h

@[simp] theorem held_omciRule (c : Cmd) (octets : List Byte) (s : State) (p : Priv) (m : Nat) :
    ((omciRule c octets).run s p m).after.held = s.held := by
  simp [omciRule]

@[simp] theorem held_omciTick (s : State) (c : Cmd) (octets : List Byte) (left : Nat) :
    (s.omciTick c octets left).after.held = s.held := by
  simp [State.omciTick]

theorem held_omciRow (c : Cmd) (io : HostIo) {r : CmdRule} (h : (omciRow c io) = some r) (s : State) (p : Priv)
    (m : Nat) :
    (r.run s p m).after.held = s.held := by
  unfold omciRow at h
  dsimp only at h
  split at h
  · obtain rfl := Option.some.inj h
    simp
  · cases h

/-! #### Functions of Machine/TimeCmds -/

@[simp] theorem held_offGrid (s : State) (t : Nat) (d : Int) : (s.offGrid t d).held = s.held := by simp [State.offGrid]

@[simp] theorem held_stepTime (s : State) (x : Nat) : (s.stepTime x).held = s.held := by
  unfold State.stepTime
  dsimp only
  refine (held_event _ _ _ _).trans ((held_setRf _ _ _ _ _).trans ?_)
  split
  · rfl
  · refine (held_foldl (fun s m => ?_) _ _).trans ?_
    · split <;> simp
    · simp

@[simp] theorem held_timeSetRule (c : Cmd) (s : State) (p : Priv) (m : Nat) :
    ((timeSetRule c).run s p m).after.held = s.held := by
  simp [timeSetRule]

theorem held_timeSetRow (atPps : Bool) (c : Cmd) {r : CmdRule} (h : (timeSetRow atPps c) = some r) (s : State)
    (p : Priv) (m : Nat) :
    (r.run s p m).after.held = s.held := by
  unfold timeSetRow at h
  split at h
  · obtain rfl := Option.some.inj h
    simp
  · cases h

@[simp] theorem held_ppsEdge (s : State) : s.ppsEdge.held = s.held := by
  simp only [State.ppsEdge]
  split <;> simp

/-! #### Functions of Machine/OhmOps -/

@[simp] theorem held_ohmCount (s : State) (k : Nat) : (s.ohmCount k).held = s.held := (rfl)

@[simp] theorem held_sendToken (s : State) (commit : Option Nat) : (s.sendToken commit).held = s.held := by
  simp [State.sendToken]

@[simp] theorem held_passToken (s : State) (m : Nat) (ws : List Word) : (s.passToken m ws).held = s.held := by
  simp only [State.passToken]
  split <;> simp

@[simp] theorem held_tokenBack (s : State) (m : Nat) (ws : List Word) : (s.tokenBack m ws).held = s.held := by
  simp only [State.tokenBack]
  split <;> simp

@[simp] theorem held_tokenCheck (s : State) (ws : List Word) : (s.tokenCheck ws).held = s.held := by simp [State.tokenCheck]
@[simp] theorem held_tokenFirst (s : State) (ws : List Word) : (s.tokenFirst ws).held = s.held := by simp [State.tokenFirst]
@[simp] theorem held_pendCommit (s : State) (c : Nat) : (s.pendCommit c).held = s.held := (rfl)
@[simp] theorem held_commitBank (s : State) (t : Nat) : (s.commitBank t).held = s.held := by simp [State.commitBank]
@[simp] theorem held_dropCommit (s : State) : s.dropCommit.held = s.held := (rfl)

@[simp] theorem held_sendItems (s : State) (t : Nat) (l : List MirItem) : (s.sendItems t l).held = s.held := by
  simp [State.sendItems]

@[simp] theorem held_applyEntry (s : State) (h : Nat) (ws : List Word) : (s.applyEntry h ws).held = s.held := by
  simp [State.applyEntry]

theorem held_applyKeys (s : State) (n : Nat) (hd : Word) (ws : List Word) {u : State}
    (h : (s.applyKeys n hd ws) = some u) :
    u.held = s.held := by
  unfold State.applyKeys at h
  split at h
  · cases h
  · dsimp only at h
    split at h
    · obtain rfl := Option.some.inj h
      simp
    · cases h

theorem held_applyBind (s : State) (n : Nat) (hd pay : Word) {u : State} (h : s.applyBind n hd pay = some u) :
    u.held = s.held := by
  unfold State.applyBind at h
  dsimp only at h
  split at h
  · split at h
    · split at h
      · obtain rfl := Option.some.inj h
        rfl
      · cases h
    · split at h
      · obtain rfl := Option.some.inj h
        simp
      · cases h
  · split at h
    · split at h
      · obtain rfl := Option.some.inj h
        simp
      · cases h
    · cases h

@[simp] theorem held_takeTiming (s : State) (t c b : Nat) : (s.takeTiming t c b).held = s.held := by simp [State.takeTiming]

@[simp] theorem held_stampTakeover (s : State) (t cause : Nat) : (s.stampTakeover t cause).held = s.held := by
  simp [State.stampTakeover]

@[simp] theorem held_takeover (s : State) (t cause : Nat) : (s.takeover t cause).held = s.held := by
  simp only [State.takeover]
  split <;> simp

@[simp] theorem held_takeoversEnd (s : State) : s.takeoversEnd.held = s.held := by simp [State.takeoversEnd]
@[simp] theorem held_handover (s : State) (t : Nat) : (s.handover t).held = s.held := by simp [State.handover]
@[simp] theorem held_noteSfc (s : State) (t : Nat) (ws : List Word) : (s.noteSfc t ws).held = s.held := (rfl)
@[simp] theorem held_mirDrop (s : State) : s.mirDrop.held = s.held := (rfl)

theorem held_mirDone (s : State) (r : Option State) (hr : ∀ x, r = some x → x.held = s.held) :
    (s.mirDone r).held = s.held := by
  cases r with
  | none => exact held_mirDrop s
  | some x => exact (held_monEv _ _ _ _ _).trans (hr x rfl)

@[simp] theorem held_mirStandby (s : State) (t : Nat) (hd : Word) (ws : List Word) :
    (s.mirStandby t hd ws).held = s.held := by
  unfold State.mirStandby
  dsimp only
  split
  · simp
  · exact held_mirDone _ _ (fun x hx => by cases hx; simp)
  · split
    · refine held_mirDone _ _ (fun x hx => ?_)
      split at hx
      · exact held_applyKeys _ _ _ _ hx
      · cases hx
    · exact held_mirDone _ _ (fun x hx => held_applyKeys _ _ _ _ hx)
  · exact held_mirDone _ _ (fun x hx => held_applyBind _ _ _ _ hx)
  · simp
  · simp

@[simp] theorem held_mirRecord (s : State) (origin : Nat) (r : Word × List Word) :
    (s.mirRecord origin r).held = s.held := by
  simp only [State.mirRecord]
  split <;> simp

@[simp] theorem held_mirFrame (s : State) (m : Nat) (ws : List Word) : (s.mirFrame m ws).held = s.held := by
  unfold State.mirFrame
  dsimp only
  (repeat' split) <;> simp

/-! #### Functions of Machine/SluiceCmds -/

@[simp] theorem held_loadEnd (s : State) (t n : Nat) (last : Bool) : (s.loadEnd t n last).after.held = s.held := by
  unfold State.loadEnd
  simp
  split <;> simp

@[simp] theorem held_loadTick (s : State) (t start : Nat) (ws : List Word) (last : Bool) (took left prog : Nat) :
    (s.loadTick t start ws last took left prog).after.held = s.held := by
  simp [State.loadTick]

@[simp] theorem held_sluiceLoadRule (c : Cmd) (io : HostIo) (s : State) (p : Priv) (m : Nat) :
    ((sluiceLoadRule c io).run s p m).after.held = s.held := by
  simp [sluiceLoadRule]

@[simp] theorem held_sluiceSwapRule (c : Cmd) (s : State) (p : Priv) (m : Nat) :
    ((sluiceSwapRule c).run s p m).after.held = s.held := by
  simp [sluiceSwapRule]

/-! #### Functions of Machine/SnapCmds -/

@[simp] theorem held_setCrcVal (s : State) (n w v : Nat) : (s.setCrcVal n w v).held = s.held := (rfl)

@[simp] theorem held_crcScan (s : State) (n : Nat) (again : Bool) (bs : List Byte) :
    (s.crcScan n again bs).held = s.held := by
  simp [State.crcScan]

@[simp] theorem held_scanHostTick (s : State) (n : Nat) (bs : List Byte) (prog : Nat) :
    (s.scanHostTick n bs prog).after.held = s.held := by
  unfold State.scanHostTick
  split <;> simp

@[simp] theorem held_scanWordTick (s : State) (n a left prog : Nat) :
    (s.scanWordTick n a left prog).after.held = s.held := by
  unfold State.scanWordTick
  split <;> simp

@[simp] theorem held_crcScanRule (c : Cmd) (io : HostIo) (s : State) (p : Priv) (m : Nat) :
    ((crcScanRule c io).run s p m).after.held = s.held := by
  simp [crcScanRule]

@[simp] theorem held_groupClear (s : State) (g : Nat) : (s.groupClear g).held = s.held := by
  unfold State.groupClear
  split
  · rfl
  · have hw : ∀ (l : List (Option Nat)) (s : State), (l.foldl (fun s x => match x with
        | some a => s.setReg a 0
        | none => s) s).held = s.held :=
      held_foldl (fun s x => by cases x <;> simp)
    split
    · exact hw _ s
    · simp

@[simp] theorem held_ctrSnapRule (c : Cmd) (io : HostIo) (s : State) (p : Priv) (m : Nat) :
    ((ctrSnapRule c io).run s p m).after.held = s.held := by
  simp [ctrSnapRule]

@[simp] theorem held_dumpReads (s : State) (k : Nat) : (s.dumpReads k).held = s.held := by
  simp only [State.dumpReads]
  split <;> simp

@[simp] theorem held_setDumpArea (s : State) (addr size period : Nat) : (s.setDumpArea addr size period).held = s.held := by
  simp [State.setDumpArea]

@[simp] theorem held_dumpCfgRule (c : Cmd) (s : State) (p : Priv) (m : Nat) :
    ((dumpCfgRule c).run s p m).after.held = s.held := by
  simp [dumpCfgRule]

theorem held_dumpCfgRow (fatal : Bool) (c : Cmd) {r : CmdRule} (h : (dumpCfgRow fatal c) = some r) (s : State)
    (p : Priv) (m : Nat) :
    (r.run s p m).after.held = s.held := by
  unfold dumpCfgRow at h
  split at h
  · obtain rfl := Option.some.inj h
    simp
  · cases h

/-! #### Functions of Machine/Tick -/

@[simp] theorem held_giveTick (s : State) (addr : Nat) (ws : List Word) (result took left prog : Nat) :
    (s.giveTick addr ws result took left prog).after.held = s.held := by
  simp [State.giveTick]

@[simp] theorem held_resettle (s : State) (q : Nat) (e : Exec) (x : Ran) : (s.resettle q e x).held = x.after.held := by
  cases x <;> simp [State.resettle]

@[simp] theorem held_rewrites (s : State) : s.rewrites.held = s.held := by
  unfold State.rewrites
  split
  · rfl
  · refine held_foldl (fun s x => ?_) _ s
    split <;> simp

@[simp] theorem held_deskewDue (s : State) : s.deskewDue.held = s.held := by simp [State.deskewDue]

@[simp] theorem held_ppsLate (s : State) : s.ppsLate.held = s.held := by
  simp only [State.ppsLate]
  split <;> simp

@[simp] theorem held_tickEnds (s : State) : s.tickEnds.held = s.held := by simp [State.tickEnds]
@[simp] theorem held_shutFatal (s : State) : s.shutFatal.held = s.held := by simp [State.shutFatal]

@[simp] theorem held_ifRuns (s : State) (f : State → State) (hf : ∀ x, (f x).held = x.held) :
    (s.ifRuns f).held = s.held := by
  unfold State.ifRuns
  (repeat' split) <;> simp_all

@[simp] theorem held_alsoInval (s v : State) : (s.alsoInval v).held = s.held := by simp [State.alsoInval]

/-! #### Functions of Machine/BurstRows -/

@[simp] theorem held_decode (s : State) (t l : Nat) (rx : List Byte) (fixed : Option (List Nat)) (x5 : NextOut) :
    (s.decode t l rx fixed x5).held = s.held := by
  simp only [State.decode]
  split <;> simp

@[simp] theorem held_rangeDone (s : State) (t l : Nat) (e : Expect) : (s.rangeDone t l e).held = s.held := (rfl)

@[simp] theorem held_rangeFound (s : State) (t l : Nat) (e : Expect) (m : PloamIn) :
    (s.rangeFound t l e m).held = s.held := by
  simp [State.rangeFound]

@[simp] theorem held_rangeEmpty (s : State) (t l : Nat) (e : Expect) : (s.rangeEmpty t l e).held = s.held := by
  simp [State.rangeEmpty]

theorem held_takeRanging (s : State) (t l : Nat) (e : Expect) {u : PloamIn × State}
    (h : (s.takeRanging t l e) = some u) :
    u.2.held = s.held := by
  unfold State.takeRanging at h
  split at h
  · exact held_takePloam _ _ _ _ h
  · cases h

/-! #### Functions of Machine/EvtOps -/

@[simp] theorem held_popRecord (s : State) : s.popRecord.held = s.held := by
  simp only [State.popRecord]
  split <;> simp

@[simp] theorem held_signal9 (s : State) : s.signal9.held = s.held := by simp [State.signal9]
@[simp] theorem held_visible (s : State) (cls : Nat) : (s.visible cls).held = s.held := by simp [State.visible]
@[simp] theorem held_putEvent (s : State) (r : EvRec) : (s.putEvent r).held = s.held := by simp [State.putEvent]

@[simp] theorem held_writeRecord (s : State) : s.writeRecord.held = s.held := by
  unfold State.writeRecord
  (repeat' split) <;> simp

@[simp] theorem held_putTrace (s : State) (i : Nat) (t : TraceSlot) (ended : Bool × Bool × Bool) :
    (s.putTrace i t ended).held = s.held := by
  simp [State.putTrace]

@[simp] theorem held_bwPoint (s : State) (b : Nat) : (s.bwPoint b).held = s.held := by simp [State.bwPoint]
@[simp] theorem held_putFrame (s : State) (addr : Nat) (ws : List Word) : (s.putFrame addr ws).held = s.held := (rfl)
@[simp] theorem held_startDump (s : State) : s.startDump.held = s.held := by simp [State.startDump]

/-! #### Functions of Machine/DumpOps -/

@[simp] theorem held_dumpToFlash (s : State) (fail : Bool) : (s.dumpToFlash fail).held = s.held := by
  simp [State.dumpToFlash]

@[simp] theorem held_dumpToHost (s : State) (addr : Nat) : (s.dumpToHost addr).held = s.held := by simp [State.dumpToHost]

/-! #### Functions of Machine/LoadOps -/

@[simp] theorem held_loadSteps (k : Nat) (w : Work) (s : State) : (State.loadSteps k w s).2.held = s.held := by
  induction k generalizing w s with
  | zero => rfl
  | succ k ih =>
    cases w with
    | insert i replace =>
      have hs := held_insertTick { s with start := s.toDevice } .supervisor i replace
      unfold State.loadSteps
      split
      all_goals (rename_i ht; rw [ht] at hs)
      · exact hs
      · exact (ih _ _).trans hs
      · exact hs
      · exact hs
    | _ => rfl

@[simp] theorem held_noteDefault (s : State) (w : WordWrite) : (s.noteDefault w).held = s.held := (rfl)
@[simp] theorem held_flipCopy (s : State) : s.flipCopy.held = s.held := (rfl)

@[simp] theorem held_chooseSlot (s : State) (fail : Bool) : (s.chooseSlot fail).2.held = s.held := by
  simp [State.chooseSlot]

@[simp] theorem held_startFw (s : State) (fw : Nat × Nat × Nat) : (s.startFw fw).held = s.held := by simp [State.startFw]

@[simp] theorem held_tellInvalid (s : State) (t code : Nat) : (s.tellInvalid t code).held = s.held := by
  simp [State.tellInvalid]

@[simp] theorem held_springRetire (s : State) (cls i : Nat) : (s.springRetire cls i).2.held = s.held := by
  have hs := held_retireRes s true cls i
  unfold State.springRetire
  split <;> rename_i hr <;> rw [hr] at hs <;> simpa using hs

@[simp] theorem held_springPcs (s : State) (l : List Nat) : (s.springPcs l).2.held = s.held := by
  have hr : ∀ (l : List Nat) (y : Option Nat × State), (l.foldl (fun y i =>
      (if (y.2.springRetire 3 i).1 && y.1.isNone then some (i / 32) else y.1, (y.2.springRetire 3 i).2)) y).2.held =
      y.2.held := by
    intro l
    induction l with
    | nil => exact fun _ => rfl
    | cons _ l ih => exact fun y => (ih _).trans (held_springRetire _ _ _)
  exact hr _ (none, s)

@[simp] theorem held_freeLists (s : State) : s.freeLists.held = s.held := by simp [State.freeLists]
@[simp] theorem held_drawAllXts (s : State) : s.drawAllXts.held = s.held := by simp [State.drawAllXts]

/-! #### Functions of Machine/MboxRows -/

@[simp] theorem held_respond (s : State) (r : MboxReq) (code : Nat) (data : List Word) :
    (s.respond r code data).held = s.held := by
  simp [State.respond]

/-! #### Functions of Machine/OhmRows -/

@[simp] theorem held_beginEpoch (s : State) (e : Nat) : (s.beginEpoch e).held = s.held := by simp [State.beginEpoch]

@[simp] theorem held_epochBeginRule (c : Cmd) (s : State) (p : Priv) (m : Nat) :
    ((epochBeginRule c).run s p m).after.held = s.held := by
  simp [epochBeginRule]

@[simp] theorem held_epochCommitRule (c : Cmd) (s : State) (p : Priv) (m : Nat) :
    ((epochCommitRule c).run s p m).after.held = s.held := by
  simp [epochCommitRule]

@[simp] theorem held_countToken (s : State) : s.countToken.held = s.held := by simp [State.countToken]

@[simp] theorem held_strangeToken (s : State) (ws : List Word) : (s.strangeToken ws).held = s.held := by
  simp [State.strangeToken]

@[simp] theorem held_takeToken (s : State) (m : Nat) (ws : List Word) : (s.takeToken m ws).held = s.held := by
  simp [State.takeToken]

@[simp] theorem held_answerCommit (s : State) (ws : List Word) : (s.answerCommit ws).1.held = s.held := by
  simp only [State.answerCommit]
  split <;> simp

@[simp] theorem held_lateToken (s : State) (t : TokenOut) : (s.lateToken t).held = s.held := by simp [State.lateToken]

@[simp] theorem held_takeMirror (s : State) (m : Nat) (ws : List Word) (k : MirKind) :
    (s.takeMirror m ws k).held = s.held := by
  simp [State.takeMirror]

/-! #### Functions of Machine/PathRows -/

@[simp] theorem held_egressEnqueue (s : State) (i : Nat) (p : Packet) (m c : Nat) :
    (s.egressEnqueue i p m c).held = s.held := by
  simp [State.egressEnqueue]

@[simp] theorem held_enterGate (s : State) (m bank i : Nat) : (s.enterGate m bank i).held = s.held := by
  simp [State.enterGate]

/-! #### Functions of Machine/QueueRows -/

@[simp] theorem held_dumpFails (s : State) : s.dumpFails.held = s.held := by simp [State.dumpFails]

/-! #### Functions of Machine/ResetRows -/

@[simp] theorem held_queueGone (s : State) (q : Nat) : (s.queueGone q).held = s.held := by simp [State.queueGone]
@[simp] theorem held_hostGone (s : State) : s.hostGone.held = s.held := by simp [State.hostGone]
@[simp] theorem held_sampled (s : State) (n : Nat) : (s.sampled n).held = s.held := by simp [State.sampled]
@[simp] theorem held_tapDrive (s : State) : s.tapDrive.held = s.held := by simp [State.tapDrive]
@[simp] theorem held_tapOut (s : State) (bits : List Bool) : (s.tapOut bits).held = s.held := (rfl)

/-! #### Functions of Machine/TableRows -/

@[simp] theorem held_cmdRule_meets (r : CmdRule) (n : Nat) (hr : ∀ x p n, (r.run x p n).after.held = x.held)
    (s : State) (p : Priv) (m : Nat) :
    ((CmdRule.meets r n).run s p m).after.held = s.held := by
  unfold CmdRule.meets
  simp_all

@[simp] theorem held_cmdRule_reads (r : CmdRule) (hr : ∀ x p n, (r.run x p n).after.held = x.held) (s : State)
    (p : Priv) (m : Nat) :
    ((CmdRule.reads r).run s p m).after.held = s.held := by
  unfold CmdRule.reads
  simp_all

/-! ### What changes them: resets, fatal errors and the flash unit -/

/-- The flash operation under way, if it will run and programs a key, finds none programmed (`State.keyWaits`). -/
def Held.waits (a : Held) : Prop := ∀ o, a.op = some o → o.bad = 0 → 6 ≤ o.op → a.key = none

/-- From `a` to `b` no row leaves or joins the queue, no fuse is unblown, and `Held.waits` stays. -/
def Held.keeps (a b : Held) : Prop :=
  b.pending = a.pending ∧
    (a.waits → b.waits ∧ (a.key.isSome = true → b.key = a.key) ∧ a.fwMin ≤ b.fwMin ∧ a.imgMin ≤ b.imgMin)

theorem keeps_iff {s t : State} :
    s.held.keeps t.held ↔ t.pending = s.pending ∧ (s.keyWaits → t.keyWaits ∧ s.fusesHold t) := Iff.rfl

@[simp] theorem Held.keeps_refl (a : Held) : a.keeps a := ⟨rfl, fun h => ⟨h, fun _ => rfl, le_rfl, le_rfl⟩⟩

theorem Held.keeps.trans {a b c : Held} (h : a.keeps b) (g : b.keeps c) : a.keeps c := by
  obtain ⟨hp, hk⟩ := h
  obtain ⟨gp, gk⟩ := g
  refine ⟨gp.trans hp, fun ha => ?_⟩
  obtain ⟨hb, hkey, hfw, himg⟩ := hk ha
  obtain ⟨hc, gkey, gfw, gimg⟩ := gk hb
  exact ⟨hc, fun hs => (gkey (by rwa [hkey hs])).trans (hkey hs), hfw.trans gfw, himg.trans gimg⟩

@[simp] theorem Held.keeps_ite {a x y : Held} {c : Prop} [Decidable c] :
    a.keeps (if c then x else y) ↔ (c → a.keeps x) ∧ (¬c → a.keeps y) := by
  split <;> simp_all

/-- With no flash operation under way, a fuse that is not unblown is enough. -/
theorem Held.keeps_opDone (a : Held) {p : List Instr} {k : Option (BitVec 128)} {f i : Nat} (hp : p = a.pending)
    (hk : a.key.isSome = true → k = a.key) (hf : a.fwMin ≤ f) (hi : a.imgMin ≤ i) : a.keeps ⟨p, k, f, i, none⟩ :=
  ⟨hp, fun _ => ⟨fun _ ho => (nomatch ho), hk, hf, hi⟩⟩

@[simp] theorem keeps_foldl {a : Held} {β : Type} {f : State → β → State} {s : State} (l : List β) (h : a.keeps s.held)
    (hf : ∀ t b, a.keeps t.held → a.keeps (f t b).held) : a.keeps (l.foldl f s).held :=
  foldl_keeps (P := fun s => a.keeps s.held) hf l s h

/-! #### Resets and the flash unit -/

theorem softReset_held (s : State) : s.softReset.held = { s.held with op := none } := by
  unfold State.softReset
  dsimp only
  split <;> rfl

theorem endImg_held (s : State) (o : ImgOp) (r : Nat) : (s.endImg o r).held = { s.held with op := none } :=
  (held_notice _ _ _ _).trans rfl

theorem hardReset_held (s : State) : s.hardReset.held = { s.held with op := none } := (rfl)

theorem held_opDone {s u : State} {f : FaultUnit} (hu : u.held = s.held) :
    ({ u with flt := f, img := { u.img with op := none } } : State).held = { s.held with op := none } := hu ▸ rfl

theorem fatal_held (s : State) (c i d : Nat) :
    (s.fatal c i d).held = s.held ∨ (s.fatal c i d).held = { s.held with op := none } := by
  unfold State.fatal
  split
  · exact .inl rfl
  · split
    · exact .inl rfl
    · refine .inr ?_
      dsimp only
      exact held_opDone (by simp)

/-- A KEY_PROGRAM (or an operation beyond it) is refused when a key is programmed. -/
theorem key_of_imgRefusal {s : State} {o : ImgOp} (h : s.imgRefusal o = 0) (h6 : 6 ≤ o.op) : s.img.key = none := by
  revert h
  fun_cases State.imgRefusal s o <;> simp_all

section
variable {a : Held} {s : State} (h : a.keeps s.held)
include h

@[simp] theorem keeps_noOp : a.keeps { s.held with op := none } :=
  h.trans (s.held.keeps_opDone rfl (fun _ => rfl) le_rfl le_rfl)

@[simp] theorem keeps_softReset : a.keeps s.softReset.held := softReset_held s ▸ keeps_noOp h
@[simp] theorem keeps_hardReset : a.keeps s.hardReset.held := hardReset_held s ▸ keeps_noOp h

@[simp] theorem keeps_fatal (c i d : Nat) : a.keeps (s.fatal c i d).held := by
  rcases fatal_held s c i d with hs | hs
  · exact hs ▸ h
  · exact hs ▸ keeps_noOp h

@[simp] theorem keeps_startImg : a.keeps s.startImg.held :=
  h.trans ⟨rfl, fun _ => ⟨fun _ ho hb h6 => by obtain rfl := Option.some.inj ho; exact key_of_imgRefusal (s := s) hb h6,
    fun _ => rfl, le_rfl, le_rfl⟩⟩

@[simp] theorem keeps_endImg (o : ImgOp) (r : Nat) : a.keeps (s.endImg o r).held :=
  endImg_held s o r ▸ keeps_noOp h

@[simp] theorem keeps_imgErase (o : ImgOp) (f : Bool) (d : Nat) : a.keeps (s.imgErase o f d).held := by
  simp [State.imgErase, h]

@[simp] theorem keeps_imgProgram (o : ImgOp) (bs : List Byte) (hf ff : Bool) (d : Nat) :
    a.keeps (s.imgProgram o bs hf ff d).held := by
  simp [State.imgProgram, h]

@[simp] theorem keeps_imgBoot (o : ImgOp) (trial : Bool) (slot : Nat) (f : Bool) (d : Nat) :
    a.keeps (s.imgBoot o trial slot f d).held := by
  simp [State.imgBoot, h]

@[simp] theorem keeps_imgRollback (o : ImgOp) (f : Bool) : a.keeps (s.imgRollback o f).held := by
  unfold State.imgRollback
  split
  · exact keeps_endImg h o 3
  · have hr : s.img.imgMin ≤ s.img.rbs.foldl max s.img.imgMin := foldl_keeps (fun _ _ => le_sup_of_le_left) _ _ le_rfl
    refine keeps_endImg (h.trans ?_) o 0
    simp only [held_ite, held_notice, ite_self]
    exact ⟨rfl, fun hw => ⟨hw, fun _ => rfl, le_max_left _ _, hr⟩⟩

theorem keeps_imgKey {o : ImgOp} (ho : s.img.op = some o) (hb : o.bad = 0) (h6 : 6 ≤ o.op) (bs : List Byte)
    (hf ff : Bool) :
    a.keeps (s.imgKey o bs hf ff).held := by
  unfold State.imgKey
  split
  · exact keeps_endImg h o 4
  · split
    · exact keeps_endImg h o 3
    · have hk : s.held.waits → s.img.key = none := fun hw => hw o ho hb h6
      rw [endImg_held]
      exact h.trans ⟨rfl, fun hw =>
        ⟨fun _ hx => (nomatch hx), fun hs => by simp [State.held, hk hw] at hs, le_rfl, le_rfl⟩⟩
end

/-- The run of the rule keeps what `Held.keeps` says. -/
def CmdRule.keepsHeld (r : CmdRule) : Prop := ∀ (s : State) p m, s.held.keeps (r.run s p m).after.held

theorem CmdRule.keepsHeld.of_held {r : CmdRule} (hr : ∀ s p m, (r.run s p m).after.held = s.held) : r.keepsHeld :=
  fun s p m => (hr s p m).symm ▸ s.held.keeps_refl

theorem keepsHeld_retireRule (c : Cmd) : (retireRule c).keepsHeld := .of_held (held_retireRule c)

section
variable {a : Held} {s : State} (h : a.keeps s.held)
include h

/-! #### Register writes -/

@[simp] theorem keeps_hookGlb (was : State) (w : WordWrite) : a.keeps (s.hookGlb was w).held := by simp [State.hookGlb, h]

@[simp] theorem keeps_wordHook (was : State) (w : WordWrite) : a.keeps (s.wordHook was w).held := by
  simp [State.wordHook, h]

@[simp] theorem keeps_writeRegs (ws : List WordWrite) : a.keeps (s.writeRegs ws).held := by
  refine keeps_foldl _ ?_ (fun _ w ht => keeps_wordHook ht s w)
  simp [h]

@[simp] theorem keeps_defaultsTick (l : List Nat) (prog : Nat) : a.keeps (s.defaultsTick l prog).after.held := by
  unfold State.defaultsTick
  split <;> simp [h]

/-! #### The ticks -/

@[simp] theorem keeps_workTick (p : Priv) (w : Work) (prog : Nat) : a.keeps (s.workTick p w prog).after.held := by
  cases w <;> simp [State.workTick, h]

@[simp] theorem keeps_jobTick (q : Nat) : a.keeps (s.jobTick q).held := by
  unfold State.jobTick
  split
  · split <;> simp [h]
  · exact h

@[simp] theorem keeps_jobs : a.keeps s.jobs.held := by
  unfold State.jobs
  split
  · rw [held_keepClaims]
    exact keeps_foldl _ h (fun _ q ht => keeps_jobTick ht q)
  · exact h

@[simp] theorem keeps_judge (c : Cmd) {r : CmdRule} (hr : r.keepsHeld) (seq : Nat) : a.keeps (s.judge c r seq).held :=
    by
  unfold State.judge
  dsimp only
  split
  · simp [h]
  · split
    · simp [h]
    · split
      · simp [h]
      · simp [h, h.trans (hr s _ seq)]

@[simp] theorem keeps_takeCommand (c : Cmd) {r : CmdRule} (hr : r.keepsHeld) : a.keeps (s.takeCommand c r).held := by
  simp [State.takeCommand, h, hr]

@[simp] theorem keeps_admitSp : a.keeps s.admitSp.held := by
  unfold State.admitSp
  split
  · exact h
  · split
    · exact keeps_takeCommand (by simpa using h) _ (keepsHeld_retireRule _)
    · exact h

@[simp] theorem keeps_tickBegins : a.keeps s.tickBegins.held := by simp [State.tickBegins, h]

@[simp] theorem keeps_advance (k : Nat) : a.keeps (s.advance k).held := by
  unfold State.advance
  split
  · split <;> simp [h]
  · exact h

theorem keeps_runTicks (fuel k : Nat) : a.keeps (State.runTicks fuel k s).held := by
  induction fuel generalizing s k with
  | zero => exact h
  | succ fuel ih =>
    unfold State.runTicks
    split
    · exact h
    · exact ih (keeps_tickBegins (keeps_advance (by simp [h]) _)) _

@[simp] theorem keeps_endTick : a.keeps s.endTick.held := by
  unfold State.endTick
  split
  · exact keeps_runTicks h 1 1
  · simp [h]

@[simp] theorem keeps_waitUntil (n : Nat) : a.keeps (s.waitUntil n).held := keeps_runTicks h _ _

@[simp] theorem keeps_reach (p : Port) : a.keeps (s.reach p).held := by
  unfold State.reach
  split
  · exact h
  · exact keeps_endTick h

@[simp] theorem keeps_shutTick : a.keeps s.shutTick.held := by simp [State.shutTick, h]

end

@[simp] theorem keeps_worked {a : Held} (s : State) (r : CmdRule) {v : State} (hv : a.keeps v.held) :
    a.keeps (s.worked r v).held := by
  have hk : a.keeps (s.keepClaims v).held := by rwa [held_keepClaims]
  unfold State.worked
  split
  · exact keeps_jobs hk
  · exact hk

section
variable {a : Held} {s : State} (h : a.keeps s.held)
include h

/-! #### Commands -/

@[simp] theorem keeps_readied (c : Cmd) (r : CmdRule) : a.keeps (s.readied c r).held := by
  unfold State.readied
  simp [h]

@[simp] theorem keeps_admitTick (c : Cmd) {r : CmdRule} (hr : r.keepsHeld) : a.keeps (s.admitTick c r).held :=
  keeps_worked s r (keeps_takeCommand (keeps_readied h c r) c hr)

@[simp] theorem keeps_command (c : Cmd) {r : CmdRule} (hr : r.keepsHeld) : a.keeps (s.command c r).held := by
  unfold State.command
  dsimp only
  split
  · exact keeps_shutTick (keeps_admitTick (keeps_reach h _) c hr)
  · exact h

theorem keeps_row (c : Cmd) {f : State → Option CmdRule} (hf : ∀ u r, f u = some r → r.keepsHeld) :
    a.keeps (s.row c f).held := by
  unfold State.row
  split
  · exact keeps_command h c (hf _ _ ‹_›)
  · exact h
end

/-! #### Rules -/

theorem keepsHeld_writeRule (c : Cmd) (masked : Bool) : (writeRule c masked).keepsHeld := by
  intro s p m
  simp only [writeRule]
  split
  · simp
  · unfold State.writeRun
    split <;> simp

theorem keepsHeld_modeRule (c : Cmd) : (modeRule c).keepsHeld := by
  intro s p m
  simp only [modeRule]
  split
  · simp
  · split
    · simp
    · split <;> simp

theorem keepsHeld_modeRow {c : Cmd} {l : List Nat} {r : CmdRule} (h : modeRow c l = some r) : r.keepsHeld := by
  unfold modeRow at h
  split at h
  · cases h; exact keepsHeld_modeRule c
  · cases h

section
variable {a : Held} {s : State} (h : a.keeps s.held)
include h

@[simp] theorem keeps_toBoundary (t : Nat) : a.keeps (s.toBoundary t).held := keeps_waitUntil h _

@[simp] theorem keeps_transferFails (q kind : Nat) : a.keeps (s.transferFails q kind).held := by
  simp [State.transferFails, h]

@[simp] theorem keeps_regWrite (w : RegWrite) (p : State → Bool) : a.keeps (s.regWrite w p).held := by
  refine keeps_row h _ (fun u r hr => ?_)
  split at hr
  · cases hr; exact keepsHeld_writeRule _ _
  · cases hr

/-! #### Sensors and memory errors -/

@[simp] theorem keeps_railReads (i v : Nat) : a.keeps (s.railReads i v).held := by simp [State.railReads, h]
@[simp] theorem keeps_tempReads (i : Nat) (v : BitVec 24) : a.keeps (s.tempReads i v).held := by simp [State.tempReads, h]

@[simp] theorem keeps_memOutcome (e : MemErr) : a.keeps (s.memOutcome e).held := by
  unfold State.memOutcome
  split
  case h_1 => split <;> simp [h]
  case h_10 q _ =>
    have hd := held_deleteIndexed s 0x11 q.toNat
    split
    · rename_i hx
      rw [hx] at hd
      exact hd ▸ h
    · exact h
  all_goals simp [h]

@[simp] theorem keeps_memError (e : MemErr) : a.keeps (s.memError e).held := by simp [State.memError, h]

/-! #### Waiting rows -/

@[simp] theorem keeps_toFine (node r : Nat) : a.keeps (s.toFine node r).held := by
  unfold State.toFine
  split
  · split
    · simp [h]
    · exact h
  · exact h

@[simp] theorem keeps_ageWait (k : Nat) : a.keeps (State.ageWait k s).held := by
  induction k generalizing s with
  | zero => exact h
  | succ k ih =>
    unfold State.ageWait
    split
    · exact h
    · dsimp only
      split
      · exact h
      · exact ih (keeps_runTicks h _ _)

/-! #### Commits -/

@[simp] theorem keeps_applyStage (e : Nat) : a.keeps (s.applyStage e).held := by simp [State.applyStage, h]

@[simp] theorem keeps_commitNow (c : Nat) : a.keeps (s.commitNow c).held := by
  have hs : a.keeps ((List.range s.stageLen).foldl State.applyStage s).held :=
      keeps_foldl _ h fun _ e ht => keeps_applyStage ht e
  unfold State.commitNow
  dsimp only
  split <;> simp [hs]

@[simp] theorem keeps_commitAt (c : Nat) : a.keeps (s.commitAt c).held := by
  unfold State.commitAt
  dsimp only
  split <;> simp [h]

/-! #### The boot image -/

theorem keeps_loadRule {r : CmdRule} (hr : r.keepsHeld) : a.keeps (s.loadRule r).2.held := by
  unfold State.loadRule
  dsimp only
  split
  · exact h
  · split
    · exact h
    · have hk : a.keeps (r.run { s with start := s.toDevice, claims := [] } .supervisor 0).after.held :=
        h.trans (hr _ _ _)
      split <;> rename_i hx <;> rw [hx] at hk
      · exact hk
      · simpa using hk
      · exact hk
      · exact hk

theorem keeps_loadReg (c : Cmd) (op : Nat) : a.keeps (s.loadReg c op).2.held := by
  unfold State.loadReg
  dsimp only
  split
  · exact h
  · simpa using keeps_loadRule h (keepsHeld_writeRule c false)

theorem keeps_loadTable (c : Cmd) (op : Nat) : a.keeps (s.loadTable c op).2.held := by
  unfold State.loadTable
  split
  · exact keeps_loadRule h (.of_held (held_tblInsertRule c))
  · split
    · simpa using keeps_loadRule (s := s.flipCopy) h (.of_held (held_ruleStageRule c _))
    · split
      · exact keeps_loadRule h (.of_held (held_onuRule c _ _ (by simp)))
      · split
        · exact keeps_loadRule h (.of_held (held_onuRule c _ _ (by simp)))
        · exact h

end

theorem keeps_loadCmds {a : Held} {f : State → Cmd → Nat → Nat × State}
    (hf : ∀ s c op, a.keeps s.held → a.keeps (f s c op).2.held) {k n : Nat} {ws : List Word} {s u : State}
    (h : a.keeps s.held) (hu : loadCmds f k n ws s = .applied u) : a.keeps u.held := by
  induction k generalizing n ws s with
  | zero => cases hu; exact h
  | succ k ih =>
    cases ws with
    | nil => cases hu; exact h
    | cons w ws =>
      unfold loadCmds at hu
      split at hu
      · cases hu
      · dsimp only at hu
        split at hu
        · exact ih (hf _ _ _ h) hu
        · cases hu

theorem held_loadBanks {k n : Nat} {seen : List (Nat × Bool)} {ws : List Word} {s u : State}
    (hu : loadBanks k n seen ws s = .applied u) : u.held = s.held := by
  induction k generalizing n seen ws s with
  | zero => cases hu; rfl
  | succ k ih =>
    cases ws with
    | nil => cases hu; rfl
    | cons w ws =>
      unfold loadBanks at hu
      dsimp only at hu
      split at hu
      · cases hu
      · split at hu
        · cases hu
        · rw [ih hu]
          simp

section
variable {a : Held} {s : State} (h : a.keeps s.held)
include h

theorem keeps_loadBody {t : Nat} {ws : List Word} {u : State} (hu : s.loadBody t ws = .applied u) : a.keeps u.held := by
  unfold State.loadBody at hu
  split at hu
  · exact keeps_loadCmds (fun _ c op ht => keeps_loadReg ht c op) h hu
  · split at hu
    · exact keeps_loadCmds (fun _ c op ht => keeps_loadTable ht c op) h hu
    · exact held_loadBanks hu ▸ h

theorem keeps_applySection (b t : Nat) : a.keeps (s.applySection b t).2.held := by
  unfold State.applySection
  dsimp only
  split
  · exact h
  · split
    · rename_i hx
      simpa using keeps_loadBody (s := { s with mode := .still }) h hx
    · simp [h]

theorem keeps_applySections (b fwCode : Nat) : a.keeps (s.applySections b fwCode).held := by
  unfold State.applySections
  dsimp only
  simp only [held_setReg, held_mk, held_fold, held_tellInvalid]
  refine keeps_applySection ?_ b 4
  rw [held_tellInvalid]
  refine keeps_applySection ?_ b 3
  simp [keeps_applySection, h]

theorem keeps_loadImage (fail : Bool) : a.keeps (s.loadImage fail).held := by
  unfold State.loadImage
  dsimp only
  split
  · refine keeps_applySections ?_ _ _
    simp [h]
  · simp [h]
end

/-! ### The event rows -/

/-- The state of the next step, if there is one, keeps what `Held.keeps` says of `s`. -/
def State.keepsNext (s : State) (o : Host.Outcome State Fault Refusal) : Prop := ∀ t, o = .next t → s.held.keeps t.held

@[simp] theorem State.keepsNext_next {s t : State} : s.keepsNext (.next t) ↔ s.held.keeps t.held :=
  ⟨fun h => h t rfl, fun h _ ht => Host.Outcome.next.inj ht ▸ h⟩

/-- A row that waits can be looked at with the wait left opaque. -/
theorem keeps_waits (s : State) : ∃ w, s.waitUntil = w ∧ ∀ n, s.held.keeps (w n).held :=
  ⟨_, rfl, keeps_waitUntil s.held.keeps_refl⟩

theorem held_sluStep (s : State) (t op : Nat) {f : Word → Word → Word → State → Run → State × Run}
    (hf : ∀ h o₁ o₂ s r, (f h o₁ o₂ s r).1.held = s.held) : (s.sluStep t op f).held = s.held := by
  unfold State.sluStep
  split
  · rfl
  · dsimp only
    split
    · rfl
    · simp [hf]


theorem keeps_execGenSwapRetire (s : State) : s.keepsNext (execGenSwapRetire s) := by
  simp only [execGenSwapRetire, State.keepsNext_next]
  (repeat' split) <;> simp

theorem keeps_execSluiceSwapTakesEffect (t : BitVec 7) (s : State) : s.keepsNext (execSluiceSwapTakesEffect t s) := by
  simp [execSluiceSwapTakesEffect]

theorem keeps_execMsgSendFramed (t : BitVec 7) (l : Bool) (s : State) : s.keepsNext (execMsgSendFramed t l s) := by
  simp [execMsgSendFramed]

theorem keeps_execSetTxSwitch (s : State) : s.keepsNext (execSetTxSwitch s) := by
  simp only [execSetTxSwitch, State.keepsNext_next]
  (repeat' split) <;> simp

theorem keeps_execPseudoChannelMoveDone (pc : BitVec 8) (picks : List Nat) (s : State) :
    s.keepsNext (execPseudoChannelMoveDone pc picks s) := by
  simp only [execPseudoChannelMoveDone, State.keepsNext_next]
  (repeat' split) <;> simp

theorem keeps_execPseudoChannelRebuildDone (pc : BitVec 8) (s : State) :
    s.keepsNext (execPseudoChannelRebuildDone pc s) := by
  simp only [execPseudoChannelRebuildDone, State.keepsNext_next]
  (repeat' split) <;> simp

theorem keeps_execTimeSetPpsTimeout (s : State) : s.keepsNext (execTimeSetPpsTimeout s) := by
  obtain ⟨w, hw, hk⟩ := keeps_waits s
  simp only [execTimeSetPpsTimeout, State.keepsNext_next, hw]
  split
  · rename_i a _ _
    split <;> simp [hk]
  · exact s.held.keeps_refl


theorem keeps_execCmdDoorbell (fn q : BitVec 6) (value : BitVec 64) (s : State) :
    s.keepsNext (execCmdDoorbell fn q value s) := by
  simp [execCmdDoorbell]

theorem keeps_execCommandFetch (q : BitVec 6) (slots : List (BitVec 64)) (s : State) :
    s.keepsNext (execCommandFetch q slots s) := by
  simp [execCommandFetch]

theorem keeps_execRingControlWrite (fn q : BitVec 6) (off : BitVec 2) (value : BitVec 64) (s : State) :
    s.keepsNext (execRingControlWrite fn q off value s) := by
  simp [execRingControlWrite]

theorem keeps_execHostBarWriteDiscard (fn : BitVec 6) (addr : BitVec 28) (value : BitVec 64) (short : Bool) (s : State)
    : s.keepsNext (execHostBarWriteDiscard fn addr value short s) := by
  simp [execHostBarWriteDiscard]

theorem keeps_execHostTransferRetry (q : BitVec 6) (kind : BitVec 2) (s : State) :
    s.keepsNext (execHostTransferRetry q kind s) := by
  simp [execHostTransferRetry]

theorem keeps_execRingWriteRetry (ring : Nat) (s : State) : s.keepsNext (execRingWriteRetry ring s) := by
  simp [execRingWriteRetry]

theorem keeps_execVfReset (v : BitVec 6) (s : State) : s.keepsNext (execVfReset v s) := by simp [execVfReset]

theorem keeps_execHealth (s : State) : s.keepsNext (execHealth s) := by
  simp only [execHealth, State.keepsNext_next]
  (repeat' split) <;> simp

theorem keeps_execSensor (s : State) : s.keepsNext (execSensor s) := by
  simp only [execSensor, State.keepsNext_next]
  (repeat' split) <;> simp

theorem keeps_execEye (height width : Word) (s : State) : s.keepsNext (execEye height width s) := by
  simp only [execEye, State.keepsNext_next]
  (repeat' split) <;> simp

theorem keeps_execDumpFetch (hostFail : Bool) (s : State) : s.keepsNext (execDumpFetch hostFail s) := by
  simp only [execDumpFetch, State.keepsNext_next]
  (repeat' split) <;> simp

theorem keeps_execDumpErase (s : State) : s.keepsNext (execDumpErase s) := by
  simp only [execDumpErase, State.keepsNext_next]
  (repeat' split) <;> simp

theorem keeps_execRetireLog (s : State) : s.keepsNext (execRetireLog s) := by
  simp only [execRetireLog, State.keepsNext_next]
  (repeat' split) <;> simp

theorem keeps_execPcieHotReset (s : State) : s.keepsNext (execPcieHotReset s) := by simp [execPcieHotReset]
theorem keeps_execPerstN (s : State) : s.keepsNext (execPerstN s) := by simp [execPerstN]
theorem keeps_execResetN (straps : BitVec 5) (s : State) : s.keepsNext (execResetN straps s) := by simp [execResetN]

theorem keeps_execRailBelow90Percent (rail : BitVec 4) (low : Bool) (s : State) :
    s.keepsNext (execRailBelow90Percent rail low s) := by
  simp [execRailBelow90Percent]

theorem keeps_execRailSample (mv : List (BitVec 16)) (s : State) : s.keepsNext (execRailSample mv s) := by
  simp only [execRailSample, State.keepsNext_next]
  split
  · exact s.held.keeps_refl
  · exact keeps_foldl _ (by simp) fun _ i ht => keeps_railReads ht i _


theorem keeps_execTemperatureSample (mc : List (BitVec 24)) (s : State) : s.keepsNext (execTemperatureSample mc s) := by
  simp only [execTemperatureSample, State.keepsNext_next]
  split
  · exact s.held.keeps_refl
  · exact keeps_foldl _ (by simp) fun _ i ht => keeps_tempReads ht i _


theorem keeps_execThermtrip (sensor : BitVec 5) (mc : BitVec 24) (s : State) : s.keepsNext (execThermtrip sensor mc s) :=
    by
  simp [execThermtrip]

theorem keeps_execSpringComplete (pcs lanes ports : List Nat) (writeFail : Bool) (s : State) :
    s.keepsNext (execSpringComplete pcs lanes ports writeFail s) := by
  simp only [execSpringComplete, State.keepsNext_next]
  split
  · have hk : s.held.keeps (s.drawAllXts.loadImage writeFail).held := keeps_loadImage (by simp) _
    split <;> simp [hk]
  · exact s.held.keeps_refl


theorem keeps_execCorePllLockLost (s : State) : s.keepsNext (execCorePllLockLost s) := by
  simp [execCorePllLockLost]

theorem keeps_execCoreIslandHang (s : State) : s.keepsNext (execCoreIslandHang s) := by simp [execCoreIslandHang]

theorem keeps_execFatalError (cause : BitVec 8) (src : BitVec 16) (detail : BitVec 24) (s : State) :
    s.keepsNext (execFatalError cause src detail s) := by
  simp [execFatalError]

theorem keeps_execFatalDumpComplete (hostFail flashFail : Bool) (s : State) :
    s.keepsNext (execFatalDumpComplete hostFail flashFail s) := by
  simp only [execFatalDumpComplete, State.keepsNext_next]
  (repeat' split) <;> simp

theorem keeps_execWatchdogExpiry (s : State) : s.keepsNext (execWatchdogExpiry s) := by
  obtain ⟨w, hw, hk⟩ := keeps_waits s
  simp only [execWatchdogExpiry, State.keepsNext_next, hw]
  split
  · exact s.held.keeps_refl
  · simp [hk]


theorem keeps_execSpHeld (s : State) : s.keepsNext (execSpHeld s) := by
  simp [execSpHeld]

theorem keeps_execHandshakeLoss (i : Island) (s : State) : s.keepsNext (execHandshakeLoss i s) := by
  simp only [execHandshakeLoss, State.keepsNext_next]
  (repeat' split) <;> simp

theorem keeps_execLaneLoss (t : BitVec 7) (l begins hs : Bool) (s : State) : s.keepsNext (execLaneLoss t l begins hs s)
    := by
  simp [execLaneLoss]

theorem keeps_execPortLoss (m : BitVec 8) (begins hs : Bool) (s : State) : s.keepsNext (execPortLoss m begins hs s) :=
    by
  simp [execPortLoss]

theorem keeps_execTreeLoss (t : BitVec 7) (begins : Bool) (s : State) : s.keepsNext (execTreeLoss t begins s) := by
  simp [execTreeLoss]

theorem keeps_execHbmLoss (stack : BitVec 3) (begins : Bool) (s : State) : s.keepsNext (execHbmLoss stack begins s) :=
    by
  simp [execHbmLoss]

theorem keeps_execLaneReturnToService (t : BitVec 7) (l : Bool) (s : State) :
    s.keepsNext (execLaneReturnToService t l s) := by
  simp only [execLaneReturnToService, State.keepsNext_next]
  (repeat' split) <;> simp

theorem keeps_execTransientFault (cls : BitVec 4) (index : BitVec 24) (s : State) :
    s.keepsNext (execTransientFault cls index s) := by
  simp [execTransientFault]

theorem keeps_execRetryEnd (cls : BitVec 4) (index : BitVec 24) (s : State) : s.keepsNext (execRetryEnd cls index s) :=
    by
  simp [execRetryEnd]

theorem keeps_execMemUncorr (e : MemErr) (s : State) : s.keepsNext (execMemUncorr e s) := by simp [execMemUncorr]

theorem keeps_execStoppingBoundary (t : BitVec 7) (s : State) : s.keepsNext (execStoppingBoundary t s) := by
  simp [execStoppingBoundary]

theorem keeps_execTreeFirstFrame (t : BitVec 7) (s : State) : s.keepsNext (execTreeFirstFrame t s) := by
  simp only [execTreeFirstFrame, State.keepsNext_next]
  (repeat' split) <;> simp

theorem keeps_execFrameBoundary (t : BitVec 7) (s : State) : s.keepsNext (execFrameBoundary t s) := by
  simp [execFrameBoundary]

theorem keeps_execSluFrame (t : BitVec 7) (s : State) : s.keepsNext (execSluFrame t s) := by
  simp [execSluFrame, held_sluStep]

theorem keeps_execGrant (t : BitVec 7) (s : State) : s.keepsNext (execGrant t s) := by simp [execGrant, held_sluStep]
theorem keeps_execGrantt (t : BitVec 7) (s : State) : s.keepsNext (execGrantt t s) := by simp [execGrantt, held_sluStep]
theorem keeps_execQuiet (t : BitVec 7) (s : State) : s.keepsNext (execQuiet t s) := by simp [execQuiet, held_sluStep]
theorem keeps_execRangew (t : BitVec 7) (s : State) : s.keepsNext (execRangew t s) := by simp [execRangew, held_sluStep]

theorem keeps_execSluAlign (t : BitVec 7) (s : State) : s.keepsNext (execSluAlign t s) := by
  simp [execSluAlign, held_sluStep]

theorem keeps_execSkiplt (t : BitVec 7) (s : State) : s.keepsNext (execSkiplt t s) := by simp [execSkiplt, held_sluStep]
theorem keeps_execSkipge (t : BitVec 7) (s : State) : s.keepsNext (execSkipge t s) := by simp [execSkipge, held_sluStep]

theorem keeps_execLoopN (t : BitVec 7) (s : State) : s.keepsNext (execLoopN t s) := by
  refine State.keepsNext_next.mpr ?_
  rw [held_sluStep]
  · exact keeps_waitUntil s.held.keeps_refl _
  · intro h o₁ o₂ s r
    dsimp only
    split <;> rfl


theorem keeps_execEndloop (t : BitVec 7) (s : State) : s.keepsNext (execEndloop t s) := by
  refine State.keepsNext_next.mpr ?_
  rw [held_sluStep]
  · exact keeps_waitUntil s.held.keeps_refl _
  · intro h o₁ o₂ s r
    split
    · rfl
    · split <;> rfl


theorem keeps_execSluJump (t : BitVec 7) (s : State) : s.keepsNext (execSluJump t s) := by
  simp [execSluJump, held_sluStep]

theorem keeps_execSluCredit (t : BitVec 7) (s : State) : s.keepsNext (execSluCredit t s) := by
  simp [execSluCredit, held_sluStep]

theorem keeps_execSkipcr (t : BitVec 7) (s : State) : s.keepsNext (execSkipcr t s) := by simp [execSkipcr, held_sluStep]
theorem keeps_execSluMark (t : BitVec 7) (s : State) : s.keepsNext (execSluMark t s) := by simp [execSluMark, held_sluStep]
theorem keeps_execLaneSel (t : BitVec 7) (s : State) : s.keepsNext (execLaneSel t s) := by simp [execLaneSel, held_sluStep]
theorem keeps_execSluPad (t : BitVec 7) (s : State) : s.keepsNext (execSluPad t s) := by simp [execSluPad, held_sluStep]

theorem keeps_execEndRun (t : BitVec 7) (s : State) : s.keepsNext (execEndRun t s) := by
  simp only [execEndRun, State.keepsNext_next]
  have hk : s.held.keeps ((s.waitUntil (s.sluAt t.toNat 0x30)).sluStep t.toNat 0x30
      fun _ _ _ s r => (s, { r with pc := 4096 })).held := by
    simp [held_sluStep]
  split <;> simp [hk]


theorem keeps_execOverrun (t : BitVec 7) (s : State) : s.keepsNext (execOverrun t s) := by
  simp only [execOverrun, State.keepsNext_next]
  (repeat' split) <;> simp

theorem keeps_execReverted (t : BitVec 7) (s : State) : s.keepsNext (execReverted t s) := by simp [execReverted]

theorem keeps_execReportReceived (t : BitVec 7) (l : Bool) (alloc occ : Nat) (s : State) :
    s.keepsNext (execReportReceived t l alloc occ s) := by
  simp only [execReportReceived, State.keepsNext_next]
  (repeat' split) <;> simp

theorem keeps_execBurstAccepted (t : BitVec 7) (l : Bool) (pos : Nat) (symbols : List (BitVec 2))
    (h : BitVec 64 × BitVec 64) (s : State) : s.keepsNext (execBurstAccepted t l pos symbols h s) := by
  obtain ⟨w, hw, hk⟩ := keeps_waits s
  simp only [execBurstAccepted, State.keepsNext_next, hw]
  split
  · exact s.held.keeps_refl
  · rename_i e _
    split <;> simp [hk]


theorem keeps_execBurstLost (t : BitVec 7) (l : Bool) (fifo : Bool) (first : Nat) (s : State) :
    s.keepsNext (execBurstLost t l fifo first s) := by
  simp only [execBurstLost, State.keepsNext_next]
  (repeat' split) <;> simp

theorem keeps_execBurstsLost (h : BitVec 16) (l : Bool) (s : State) : s.keepsNext (execBurstsLost h l s) := by
  simp [execBurstsLost]

theorem keeps_execCodewordDecoded (t : BitVec 7) (l : Bool) (kind : BitVec 2) (pos : Nat) (rx : List Byte) (bad : Bool)
    (fixed : List Nat) (s : State) : s.keepsNext (execCodewordDecoded t l kind pos rx bad fixed s) := by
  simp only [execCodewordDecoded, State.keepsNext_next]
  (repeat' split) <;> simp

theorem keeps_execXgemRelease (t : BitVec 7) (l : Bool) (port : Nat) (sduLen : BitVec 14) (s : State) :
    s.keepsNext (execXgemRelease t l port sduLen s) := by
  obtain ⟨w, hw, hk⟩ := keeps_waits s
  simp only [execXgemRelease, State.keepsNext_next, hw]
  split
  · exact s.held.keeps_refl
  · rename_i x _
    split <;> simp [hk]


theorem keeps_execPloamReceived (t : BitVec 7) (l : Bool) (onu : Nat) (msg : List Byte) (s : State) :
    s.keepsNext (execPloamReceived t l onu msg s) := by
  obtain ⟨w, hw, hk⟩ := keeps_waits s
  simp only [execPloamReceived, State.keepsNext_next, hw]
  split
  · exact s.held.keeps_refl
  · rename_i m _ _
    split
    · rename_i hx
      split at hx
      · simpa [held_takePloam _ _ _ _ hx] using hk _
      · cases hx
    · exact hk _


theorem keeps_execSerialNumberResponse (t : BitVec 7) (l : Bool) (pos : Nat) (msg : List Byte) (s : State) :
    s.keepsNext (execSerialNumberResponse t l pos msg s) := by
  obtain ⟨w, hw, hk⟩ := keeps_waits s
  simp only [execSerialNumberResponse, State.keepsNext_next, hw]
  split
  · exact s.held.keeps_refl
  · rename_i m _ _
    split
    · rename_i hx
      split at hx
      · rw [held_snMeasured, held_takePloam _ _ _ _ hx]
        exact hk _
      · cases hx
    · exact hk _


theorem keeps_execRangingResult (t : BitVec 7) (l : Bool) (msg : Option (List Byte)) (s : State) :
    s.keepsNext (execRangingResult t l msg s) := by
  obtain ⟨w, hw, hk⟩ := keeps_waits s
  simp only [execRangingResult, State.keepsNext_next, hw]
  split
  · exact s.held.keeps_refl
  · rename_i e _
    split
    · rename_i m _ _
      split
      · exact s.held.keeps_refl
      · split
        · split
          · rename_i hx
            rw [held_rangeFound, held_takeRanging _ _ _ _ hx]
            exact hk _
          · exact hk _
        · exact hk _
    · split
      · exact s.held.keeps_refl
      · split <;> simp [hk]


theorem keeps_execSduTimeout (t : BitVec 7) (s : State) : s.keepsNext (execSduTimeout t s) := by
  simp only [execSduTimeout, State.keepsNext_next]
  (repeat' split) <;> simp

theorem keeps_execDeskewEntry (t : BitVec 7) (l : Bool) (s : State) : s.keepsNext (execDeskewEntry t l s) := by
  simp [execDeskewEntry]

theorem keeps_execDeskewHoldExpiry (t : BitVec 7) (s : State) : s.keepsNext (execDeskewHoldExpiry t s) := by
  simp only [execDeskewHoldExpiry, State.keepsNext_next]
  (repeat' split) <;> simp

theorem keeps_execUplinkFrameReceived (m : BitVec 8) (f : UplFrame) (s : State) :
    s.keepsNext (execUplinkFrameReceived m f s) := by
  simp [execUplinkFrameReceived]

theorem keeps_execPipeDecision (pipe : BitVec 5) (x : LookupIn) (s : State) : s.keepsNext (execPipeDecision pipe x s) :=
    by
  simp only [execPipeDecision, State.keepsNext_next]
  (repeat' split) <;> simp

theorem keeps_execOxbowReentry (pipe : BitVec 5) (x : LookupIn) (s : State) : s.keepsNext (execOxbowReentry pipe x s) :=
    by
  simp only [execOxbowReentry, State.keepsNext_next]
  (repeat' split) <;> simp

theorem keeps_execCellAllocation (pkt pick : Nat) (s : State) : s.keepsNext (execCellAllocation pkt pick s) := by
  simp [execCellAllocation]

theorem keeps_execFreeListRebuild (bank : BitVec 6) (s : State) : s.keepsNext (execFreeListRebuild bank s) := by
  simp only [execFreeListRebuild, State.keepsNext_next]
  (repeat' split) <;> simp

theorem keeps_execConfluenceSlot (s : State) : s.keepsNext (execConfluenceSlot s) := by
  simp only [execConfluenceSlot, State.keepsNext_next]
  (repeat' split) <;> simp

theorem keeps_execResequencerTimeout (o : BitVec 6) (s : State) : s.keepsNext (execResequencerTimeout o s) := by
  simp only [execResequencerTimeout, State.keepsNext_next]
  (repeat' split) <;> simp

theorem keeps_execReplication (picks : List Nat) (s : State) : s.keepsNext (execReplication picks s) := by
  simp only [execReplication, State.keepsNext_next]
  (repeat' split) <;> simp

theorem keeps_execEnqueue (pkt : Nat) (picks : List Nat) (s : State) : s.keepsNext (execEnqueue pkt picks s) := by
  simp only [execEnqueue, State.keepsNext_next]
  (repeat' split) <;> simp

theorem keeps_execEgressEnqueue (pkt : Nat) (s : State) : s.keepsNext (execEgressEnqueue pkt s) := by
  simp only [execEgressEnqueue, State.keepsNext_next]
  (repeat' split) <;> simp

theorem keeps_execPacketBad (pkt : Nat) (cut : Bool) (s : State) : s.keepsNext (execPacketBad pkt cut s) := by
  simp only [execPacketBad, State.keepsNext_next]
  (repeat' split) <;> simp

theorem keeps_execPageWrite (p : BitVec 26) (s : State) : s.keepsNext (execPageWrite p s) := by
  simp only [execPageWrite, State.keepsNext_next]
  (repeat' split) <;> simp

theorem keeps_execPageFlush (h : BitVec 19) (s : State) : s.keepsNext (execPageFlush h s) := by
  simp only [execPageFlush, State.keepsNext_next]
  (repeat' split) <;> simp

theorem keeps_execPageReadBack (x : PagesIn) (s : State) : s.keepsNext (execPageReadBack x s) := by simp [execPageReadBack]

theorem keeps_execLaneRequest (t : BitVec 7) (l : Bool) (s : State) : s.keepsNext (execLaneRequest t l s) := by
  simp [execLaneRequest]

theorem keeps_execCalendarEligible (node : Nat) (excess : Bool) (s : State) :
    s.keepsNext (execCalendarEligible node excess s) := by
  simp only [execCalendarEligible, State.keepsNext_next]
  (repeat' split) <;> simp

theorem keeps_execMacFrameStart (m : BitVec 8) (s : State) : s.keepsNext (execMacFrameStart m s) := by
  simp [execMacFrameStart]

theorem keeps_execGateEntry (m : BitVec 8) (s : State) : s.keepsNext (execGateEntry m s) := by
  obtain ⟨w, hw, hk⟩ := keeps_waits s
  simp only [execGateEntry, State.keepsNext_next, hw]
  split
  · rename_i y _
    split <;> simp [hk]
  · exact s.held.keeps_refl


theorem keeps_execGateListChangeTime (m : BitVec 8) (s : State) : s.keepsNext (execGateListChangeTime m s) := by
  simp only [execGateListChangeTime, State.keepsNext_next]
  (repeat' split) <;> simp

theorem keeps_execLagMemberDown (m : BitVec 8) (s : State) : s.keepsNext (execLagMemberDown m s) := by
  simp [execLagMemberDown]

theorem keeps_execPuntRecordWrite (s : State) : s.keepsNext (execPuntRecordWrite s) := by
  simp only [execPuntRecordWrite, State.keepsNext_next]
  (repeat' split) <;> simp

theorem keeps_execLearnEngineStep (s : State) : s.keepsNext (execLearnEngineStep s) := by simp [execLearnEngineStep]

theorem keeps_execAgingVisit (s : State) : s.keepsNext (execAgingVisit s) := by
  simp only [execAgingVisit, State.keepsNext_next]
  split
  · exact s.held.keeps_refl
  · rename_i g _
    split
    · obtain ⟨u, hu⟩ : ∃ u, s.ageWait (ceilDiv (s.ageSkip g).tbl.ageAt (2 ^ 22) - s.now) = u := ⟨_, rfl⟩
      have hk : s.held.keeps u.held := hu ▸ keeps_ageWait s.held.keeps_refl _
      rw [hu]
      split <;> simp [hk]
    · exact s.held.keeps_refl


theorem keeps_execScrubStep (t : BitVec 2) (s : State) : s.keepsNext (execScrubStep t s) := by
  simp only [execScrubStep, State.keepsNext_next]
  (repeat' split) <;> simp

theorem keeps_execPatrolScrubVisit (t : BitVec 2) (x : SlotIn) (s : State) : s.keepsNext (execPatrolScrubVisit t x s) :=
    by
  simp [execPatrolScrubVisit]

theorem keeps_execWalkContextRelease (x : BitVec 3) (s : State) : s.keepsNext (execWalkContextRelease x s) := by
  simp only [execWalkContextRelease, State.keepsNext_next]
  (repeat' split) <;> simp

theorem keeps_execLeaseExp (s : State) : s.keepsNext (execLeaseExp s) := by
  simp only [execLeaseExp, State.keepsNext_next]
  (repeat' split) <;> simp

theorem keeps_execXtsKeyDraw (t : BitVec 6) (s : State) : s.keepsNext (execXtsKeyDraw t s) := by simp [execXtsKeyDraw]
theorem keeps_execPpsInEdge (s : State) : s.keepsNext (execPpsInEdge s) := by simp [execPpsInEdge]
theorem keeps_execPpsOutEdge (s : State) : s.keepsNext (execPpsOutEdge s) := by simp [execPpsOutEdge]

theorem keeps_execBandwidthWindowEnd (s : State) : s.keepsNext (execBandwidthWindowEnd s) := by
  obtain ⟨w, hw, hk⟩ := keeps_waits s
  obtain ⟨l, hl⟩ : ∃ l, List.range 1024 = l := ⟨_, rfl⟩
  simp only [execBandwidthWindowEnd, State.keepsNext_next, hw, hl]
  split
  · split
    · simp [hk]
    · exact hk _
  · exact s.held.keeps_refl


theorem keeps_execCounterDumpStart (s : State) : s.keepsNext (execCounterDumpStart s) := by
  simp only [execCounterDumpStart, State.keepsNext_next]
  (repeat' split) <;> simp

theorem keeps_execCounterDumpEnd (s : State) : s.keepsNext (execCounterDumpEnd s) := by
  simp only [execCounterDumpEnd, State.keepsNext_next]
  (repeat' split) <;> simp

theorem keeps_execTraceEnd (slot : BitVec 6) (s : State) : s.keepsNext (execTraceEnd slot s) := by
  simp only [execTraceEnd, State.keepsNext_next]
  (repeat' split) <;> simp

theorem keeps_execTraceTimeout (slot : BitVec 6) (s : State) : s.keepsNext (execTraceTimeout slot s) := by
  simp only [execTraceTimeout, State.keepsNext_next]
  (repeat' split) <;> simp

theorem keeps_execEventRecordWrite (s : State) : s.keepsNext (execEventRecordWrite s) := by simp [execEventRecordWrite]
theorem keeps_execEvtGap (s : State) : s.keepsNext (execEvtGap s) := by simp [execEvtGap]
theorem keeps_execEventWriteRetry (s : State) : s.keepsNext (execEventWriteRetry s) := by simp [execEventWriteRetry]
theorem keeps_execDrainComplete (s : State) : s.keepsNext (execDrainComplete s) := by simp [execDrainComplete]

theorem keeps_execDrainLimit (s : State) : s.keepsNext (execDrainLimit s) := by
  simp only [execDrainLimit, State.keepsNext_next]
  (repeat' split) <;> simp

theorem keeps_execEnterStill (s : State) : s.keepsNext (execEnterStill s) := by
  simp only [execEnterStill, State.keepsNext_next]
  (repeat' split) <;> simp

theorem keeps_execMasterTokenSend (s : State) : s.keepsNext (execMasterTokenSend s) := by simp [execMasterTokenSend]

theorem keeps_execTokenReceived (m : BitVec 8) (ws : List Word) (s : State) : s.keepsNext (execTokenReceived m ws s) :=
    by
  simp [execTokenReceived]

theorem keeps_execCommitTokenReceived (m : BitVec 8) (ws : List Word) (s : State) :
    s.keepsNext (execCommitTokenReceived m ws s) := by
  simp [execCommitTokenReceived]

theorem keeps_execTokenComplete (s : State) : s.keepsNext (execTokenComplete s) := by
  simp only [execTokenComplete, State.keepsNext_next]
  (repeat' split) <;> simp

theorem keeps_execTokenLate (s : State) : s.keepsNext (execTokenLate s) := by
  simp only [execTokenLate, State.keepsNext_next]
  (repeat' split) <;> simp

theorem keeps_execTokenLost (s : State) : s.keepsNext (execTokenLost s) := by simp [execTokenLost]

theorem keeps_execRingCommit (s : State) : s.keepsNext (execRingCommit s) := by
  simp only [execRingCommit, State.keepsNext_next]
  (repeat' split) <;> simp

theorem keeps_execDigestComplete (s : State) : s.keepsNext (execDigestComplete s) := by
  simp only [execDigestComplete, State.keepsNext_next]
  (repeat' split) <;> simp

theorem keeps_execSfcRecordSend (t : BitVec 7) (s : State) : s.keepsNext (execSfcRecordSend t s) := by
  simp [execSfcRecordSend]

theorem keeps_execMirrorChangeSend (t : BitVec 7) (s : State) : s.keepsNext (execMirrorChangeSend t s) := by
  simp [execMirrorChangeSend]

theorem keeps_execMirrorRefresh (t : BitVec 7) (s : State) : s.keepsNext (execMirrorRefresh t s) := by
  simp [execMirrorRefresh]

theorem keeps_execMirrorFrameReceived (m : BitVec 8) (ws : List Word) (s : State) :
    s.keepsNext (execMirrorFrameReceived m ws s) := by
  simp [execMirrorFrameReceived]

theorem keeps_execHandover (m : BitVec 8) (ws : List Word) (s : State) : s.keepsNext (execHandover m ws s) := by
  simp [execHandover]

theorem keeps_execTakeover (m : BitVec 8) (ws : List Word) (s : State) : s.keepsNext (execTakeover m ws s) := by
  simp [execTakeover]

theorem keeps_execSilenceTimeout (t : BitVec 7) (s : State) : s.keepsNext (execSilenceTimeout t s) := by
  simp [execSilenceTimeout]

theorem keeps_execHandoverTimeout (t : BitVec 7) (s : State) : s.keepsNext (execHandoverTimeout t s) := by
  simp [execHandoverTimeout]

theorem keeps_execImgOpDone (octets : List Byte) (hostFail flashFail : Bool) (done : Nat) (s : State) :
    s.keepsNext (execImgOpDone octets hostFail flashFail done s) := by
  have h := s.held.keeps_refl
  simp only [execImgOpDone, State.keepsNext_next]
  split
  · exact h
  · rename_i o hx
    have ho : s.img.op = some o := by
      split at hx
      · exact hx
      · cases hx
    split
    · simp
    · rename_i hb
      split
      case h_7 h0 h1 h2 h3 h4 h5 =>
        have h6 : 6 ≤ o.op := by
          simp only [imp_false] at h0 h1 h2 h3 h4 h5
          omega
        exact keeps_imgKey h ho (not_not.mp hb) h6 _ _ _
      all_goals simp


theorem keeps_execCmdCplHead (fn q : BitVec 6) (value : BitVec 64) (s : State) :
    s.keepsNext (execCmdCplHead fn q value s) := by
  simp [execCmdCplHead]

theorem keeps_execDeviceResetPin (s : State) : s.keepsNext (execDeviceResetPin s) := by simp [execDeviceResetPin]

theorem keeps_execPerstNRelease (msix : Bool) (s : State) : s.keepsNext (execPerstNRelease msix s) := by
  simp [execPerstNRelease]

theorem keeps_execSpareRowCopyDone (row : BitVec 24) (s : State) : s.keepsNext (execSpareRowCopyDone row s) := by
  simp only [execSpareRowCopyDone, State.keepsNext_next]
  (repeat' split) <;> simp

theorem keeps_execHoldoffUs (s : State) : s.keepsNext (execHoldoffUs s) := by
  simp only [execHoldoffUs, State.keepsNext_next]
  (repeat' split) <;> simp

theorem keeps_execBurstResetPulse (t : BitVec 7) (l : Bool) (s : State) : s.keepsNext (execBurstResetPulse t l s) := by
  simp only [execBurstResetPulse, State.keepsNext_next]
  (repeat' split) <;> simp

theorem keeps_execTestAccessPort (op : TapOp) (s : State) : s.keepsNext (execTestAccessPort op s) := by
  simp only [execTestAccessPort, State.keepsNext_next]
  (repeat' split) <;> simp

/-! ### The command rows, and the step -/

/-- Every rule that the row's function can answer keeps what `Held.keeps` says. -/
def keepsRow (f : State → Option CmdRule) : Prop := ∀ u r, f u = some r → r.keepsHeld

theorem keepsRow_some {r : CmdRule} (hr : r.keepsHeld) : keepsRow fun _ => some r :=
  fun _ _ hx => Option.some.inj hx ▸ hr

theorem keepsRow_opt {o : Option CmdRule} (ho : ∀ r, o = some r → r.keepsHeld) : keepsRow fun _ => o :=
  fun _ r hr => ho r hr

theorem keepsRow_ownRow (w : RegWrite) (p : State → Bool) : keepsRow (ownRow w p) := by
  intro u r hr
  unfold ownRow at hr
  split at hr
  · cases hr
    exact keepsHeld_writeRule _ _
  · cases hr

theorem keepsRow_hostRow {i : Instr} {x : Cmd × (State → Option CmdRule)} (h : hostRow i = some x) : keepsRow x.2 := by
  revert x
  cases i <;> rintro _ ⟨⟩
  case nop => exact keepsRow_some (.of_held (held_nopRule _))
  case modeFlow | modeWeir | modeDrain | modeDry | modeStill => exact keepsRow_opt fun _ => keepsHeld_modeRow
  case write | maskWrite => exact keepsRow_some (keepsHeld_writeRule _ _)
  case read => exact keepsRow_some (.of_held (held_readRule _ _))
  case fence => exact keepsRow_some (.of_held (held_fenceRule _))
  case tblInsert => exact keepsRow_some (.of_held (held_cmdRule_meets _ _ (held_tblInsertRule _)))
  case tblDelete => exact keepsRow_some (.of_held (held_cmdRule_reads _ (held_tblDeleteRule _)))
  case tblSearch => exact keepsRow_some (.of_held (held_cmdRule_reads _ (held_tblSearchRule _ _)))
  case tblNext => exact keepsRow_some (.of_held (held_cmdRule_meets _ _ (held_tblNextRule _)))
  case tblFlushPort => exact keepsRow_some (.of_held (held_cmdRule_meets _ _ (held_tblFlushPortRule _)))
  case ruleStage => exact keepsRow_some (.of_held (held_ruleStageRule _ _))
  case genSwap => exact keepsRow_some (.of_held (held_genSwapRule _))
  case sluiceLoad => exact keepsRow_some (.of_held (held_sluiceLoadRule _ _))
  case sluiceSwap => exact keepsRow_some (.of_held (held_sluiceSwapRule _))
  case onuAdmit => exact keepsRow_opt fun _ hr => .of_held (held_onuAdmitRow _ hr)
  case onuUpdate => exact keepsRow_opt fun _ hr => .of_held (held_onuUpdateRow _ hr)
  case onuRemove => exact keepsRow_opt fun _ hr => .of_held (held_onuRemoveRow _ hr)
  case setOwner => exact keepsRow_opt fun _ hr => .of_held (held_setOwnerRow _ hr)
  case bindAlloc => exact keepsRow_opt fun _ hr => .of_held (held_bindAllocRow _ hr)
  case unbindAlloc => exact keepsRow_opt fun _ hr => .of_held (held_unbindAllocRow _ hr)
  case setEqd => exact keepsRow_opt fun _ hr => .of_held (held_setEqdRow _ hr)
  case ploamUnicast | ploamBroadcast => exact keepsRow_opt fun _ hr => .of_held (held_ploamRow _ _ hr)
  case omci => exact keepsRow_opt fun _ hr => .of_held (held_omciRow _ _ hr)
  case keyLock => exact keepsRow_some (.of_held (held_keyLockRule _))
  case keyLoad | keyGen | keyErase | ecbEnc | ecbDec | ecbDecSlot | cmacGen | cmacVerify | wrap | unwrap =>
    exact keepsRow_opt fun _ hr => .of_held (held_keyRow _ _ _ (held_keyStart _ _) hr)
  case setTx => exact keepsRow_opt fun _ hr => .of_held (held_keyRow _ _ _ (held_setTxWork _) hr)
  case setAttr => exact keepsRow_opt fun _ hr => .of_held (held_keyRow _ _ _ (held_setAttrWork _) hr)
  case crcScan => exact keepsRow_some (.of_held (held_crcScanRule _ _))
  case ctrSnap => exact keepsRow_some (.of_held (held_ctrSnapRule _ _))
  case counterDumpCfg | fatalDumpCfg => exact keepsRow_opt fun _ hr => .of_held (held_dumpCfgRow _ _ hr)
  case epochBegin => exact keepsRow_some (.of_held (held_epochBeginRule _))
  case epochCommit => exact keepsRow_some (.of_held (held_epochCommitRule _))
  case retire => exact keepsRow_some (keepsHeld_retireRule _)
  case restore => exact keepsRow_some (.of_held (held_restoreRule _))
  case thaw => exact keepsRow_some (.of_held (held_thawRule _))
  case defaults => exact keepsRow_some (.of_held (held_defaultsRule _))
  case timeSet | timeSetAtPps => exact keepsRow_opt fun _ hr => .of_held (held_timeSetRow _ _ hr)
  case inject => exact keepsRow_opt fun _ hr => .of_held (held_injectRow _ _ _ hr)
  case bufReturn => exact keepsRow_opt fun _ hr => .of_held (held_bufReturnRow _ hr)
  case reqGo | softReset | enableSet | enableClear | lineMode | txdisForce | trePonid | fphase | gateChange | rekey |
      bandwidthReset | monRun | tagSeed | alarmLevelClear | ringReset | recompute | committed | ringSwitch |
      imgErase | imgProgram | imgCheck | setBoot | confirm | rollback | keyProgram =>
    exact keepsRow_ownRow _ _

/-- A command row keeps what `Held.keeps` says, for every rule that it can be. -/
theorem keepsNext_hostRow {i : Instr} {x : Cmd × (State → Option CmdRule)} (h : hostRow i = some x) (s : State) :
    s.keepsNext (exec i s) :=
  exec_hostRow h s ▸ State.keepsNext_next.mpr (keeps_row s.held.keeps_refl x.1 (keepsRow_hostRow h))

theorem exec_keeps (i : Instr) (s : State) : s.keepsNext (exec i s) := by
  cases i
  case genSwapRetire => exact keeps_execGenSwapRetire _
  case sluiceSwapTakesEffect => exact keeps_execSluiceSwapTakesEffect _ _
  case msgSendFramed => exact keeps_execMsgSendFramed _ _ _
  case setTxSwitch => exact keeps_execSetTxSwitch _
  case pseudoChannelMoveDone => exact keeps_execPseudoChannelMoveDone _ _ _
  case pseudoChannelRebuildDone => exact keeps_execPseudoChannelRebuildDone _ _
  case timeSetPpsTimeout => exact keeps_execTimeSetPpsTimeout _
  case cmdDoorbell => exact keeps_execCmdDoorbell _ _ _ _
  case commandFetch => exact keeps_execCommandFetch _ _ _
  case ringControlWrite => exact keeps_execRingControlWrite _ _ _ _ _
  case hostTransferRetry => exact keeps_execHostTransferRetry _ _ _
  case ringWriteRetry => exact keeps_execRingWriteRetry _ _
  case vfReset => exact keeps_execVfReset _ _
  case health => exact keeps_execHealth _
  case sensor => exact keeps_execSensor _
  case eye => exact keeps_execEye _ _ _
  case dumpFetch => exact keeps_execDumpFetch _ _
  case dumpErase => exact keeps_execDumpErase _
  case retireLog => exact keeps_execRetireLog _
  case pcieHotReset => exact keeps_execPcieHotReset _
  case perstN => exact keeps_execPerstN _
  case resetN => exact keeps_execResetN _ _
  case railBelow90Percent => exact keeps_execRailBelow90Percent _ _ _
  case railSample => exact keeps_execRailSample _ _
  case temperatureSample => exact keeps_execTemperatureSample _ _
  case thermtrip => exact keeps_execThermtrip _ _ _
  case springComplete => exact keeps_execSpringComplete _ _ _ _ _
  case corePllLockLost => exact keeps_execCorePllLockLost _
  case coreIslandHang => exact keeps_execCoreIslandHang _
  case fatalError => exact keeps_execFatalError _ _ _ _
  case fatalDumpComplete => exact keeps_execFatalDumpComplete _ _ _
  case watchdogExpiry => exact keeps_execWatchdogExpiry _
  case spHeld => exact keeps_execSpHeld _
  case handshakeLoss => exact keeps_execHandshakeLoss _ _
  case laneLoss => exact keeps_execLaneLoss _ _ _ _ _
  case portLoss => exact keeps_execPortLoss _ _ _ _
  case treeLoss => exact keeps_execTreeLoss _ _ _
  case hbmLoss => exact keeps_execHbmLoss _ _ _
  case laneReturnToService => exact keeps_execLaneReturnToService _ _ _
  case transientFault => exact keeps_execTransientFault _ _ _
  case retryEnd => exact keeps_execRetryEnd _ _ _
  case memUncorr => exact keeps_execMemUncorr _ _
  case stoppingBoundary => exact keeps_execStoppingBoundary _ _
  case treeFirstFrame => exact keeps_execTreeFirstFrame _ _
  case frameBoundary => exact keeps_execFrameBoundary _ _
  case sluFrame => exact keeps_execSluFrame _ _
  case grant => exact keeps_execGrant _ _
  case grantt => exact keeps_execGrantt _ _
  case quiet => exact keeps_execQuiet _ _
  case rangew => exact keeps_execRangew _ _
  case sluAlign => exact keeps_execSluAlign _ _
  case skiplt => exact keeps_execSkiplt _ _
  case skipge => exact keeps_execSkipge _ _
  case loopN => exact keeps_execLoopN _ _
  case endloop => exact keeps_execEndloop _ _
  case sluJump => exact keeps_execSluJump _ _
  case sluCredit => exact keeps_execSluCredit _ _
  case skipcr => exact keeps_execSkipcr _ _
  case sluMark => exact keeps_execSluMark _ _
  case laneSel => exact keeps_execLaneSel _ _
  case sluPad => exact keeps_execSluPad _ _
  case endRun => exact keeps_execEndRun _ _
  case overrun => exact keeps_execOverrun _ _
  case reverted => exact keeps_execReverted _ _
  case reportReceived => exact keeps_execReportReceived _ _ _ _ _
  case burstAccepted => exact keeps_execBurstAccepted _ _ _ _ _ _
  case burstLost => exact keeps_execBurstLost _ _ _ _ _
  case burstsLost => exact keeps_execBurstsLost _ _ _
  case codewordDecoded => exact keeps_execCodewordDecoded _ _ _ _ _ _ _ _
  case xgemRelease => exact keeps_execXgemRelease _ _ _ _ _
  case ploamReceived => exact keeps_execPloamReceived _ _ _ _ _
  case serialNumberResponse => exact keeps_execSerialNumberResponse _ _ _ _ _
  case rangingResult => exact keeps_execRangingResult _ _ _ _
  case sduTimeout => exact keeps_execSduTimeout _ _
  case deskewEntry => exact keeps_execDeskewEntry _ _ _
  case deskewHoldExpiry => exact keeps_execDeskewHoldExpiry _ _
  case uplinkFrameReceived => exact keeps_execUplinkFrameReceived _ _ _
  case pipeDecision => exact keeps_execPipeDecision _ _ _
  case oxbowReentry => exact keeps_execOxbowReentry _ _ _
  case cellAllocation => exact keeps_execCellAllocation _ _ _
  case freeListRebuild => exact keeps_execFreeListRebuild _ _
  case confluenceSlot => exact keeps_execConfluenceSlot _
  case resequencerTimeout => exact keeps_execResequencerTimeout _ _
  case replication => exact keeps_execReplication _ _
  case enqueue => exact keeps_execEnqueue _ _ _
  case egressEnqueue => exact keeps_execEgressEnqueue _ _
  case packetBad => exact keeps_execPacketBad _ _ _
  case pageWrite => exact keeps_execPageWrite _ _
  case pageFlush => exact keeps_execPageFlush _ _
  case pageReadBack => exact keeps_execPageReadBack _ _
  case laneRequest => exact keeps_execLaneRequest _ _ _
  case calendarEligible => exact keeps_execCalendarEligible _ _ _
  case macFrameStart => exact keeps_execMacFrameStart _ _
  case gateEntry => exact keeps_execGateEntry _ _
  case gateListChangeTime => exact keeps_execGateListChangeTime _ _
  case lagMemberDown => exact keeps_execLagMemberDown _ _
  case puntRecordWrite => exact keeps_execPuntRecordWrite _
  case learnEngineStep => exact keeps_execLearnEngineStep _
  case agingVisit => exact keeps_execAgingVisit _
  case scrubStep => exact keeps_execScrubStep _ _
  case patrolScrubVisit => exact keeps_execPatrolScrubVisit _ _ _
  case walkContextRelease => exact keeps_execWalkContextRelease _ _
  case leaseExp => exact keeps_execLeaseExp _
  case xtsKeyDraw => exact keeps_execXtsKeyDraw _ _
  case ppsInEdge => exact keeps_execPpsInEdge _
  case ppsOutEdge => exact keeps_execPpsOutEdge _
  case bandwidthWindowEnd => exact keeps_execBandwidthWindowEnd _
  case counterDumpStart => exact keeps_execCounterDumpStart _
  case counterDumpEnd => exact keeps_execCounterDumpEnd _
  case traceEnd => exact keeps_execTraceEnd _ _
  case traceTimeout => exact keeps_execTraceTimeout _ _
  case eventRecordWrite => exact keeps_execEventRecordWrite _
  case evtGap => exact keeps_execEvtGap _
  case eventWriteRetry => exact keeps_execEventWriteRetry _
  case drainComplete => exact keeps_execDrainComplete _
  case drainLimit => exact keeps_execDrainLimit _
  case enterStill => exact keeps_execEnterStill _
  case masterTokenSend => exact keeps_execMasterTokenSend _
  case tokenReceived => exact keeps_execTokenReceived _ _ _
  case commitTokenReceived => exact keeps_execCommitTokenReceived _ _ _
  case tokenComplete => exact keeps_execTokenComplete _
  case tokenLate => exact keeps_execTokenLate _
  case tokenLost => exact keeps_execTokenLost _
  case ringCommit => exact keeps_execRingCommit _
  case digestComplete => exact keeps_execDigestComplete _
  case sfcRecordSend => exact keeps_execSfcRecordSend _ _
  case mirrorChangeSend => exact keeps_execMirrorChangeSend _ _
  case mirrorRefresh => exact keeps_execMirrorRefresh _ _
  case mirrorFrameReceived => exact keeps_execMirrorFrameReceived _ _ _
  case handover => exact keeps_execHandover _ _ _
  case takeover => exact keeps_execTakeover _ _ _
  case silenceTimeout => exact keeps_execSilenceTimeout _ _
  case handoverTimeout => exact keeps_execHandoverTimeout _ _
  case imgOpDone => exact keeps_execImgOpDone _ _ _ _ _
  case cmdCplHead => exact keeps_execCmdCplHead _ _ _ _
  case deviceResetPin => exact keeps_execDeviceResetPin _
  case perstNRelease => exact keeps_execPerstNRelease _ _
  case spareRowCopyDone => exact keeps_execSpareRowCopyDone _ _
  case holdoffUs => exact keeps_execHoldoffUs _
  case burstResetPulse => exact keeps_execBurstResetPulse _ _ _
  case testAccessPort => exact keeps_execTestAccessPort _ _
  case hostBarWriteDiscard _ _ v _ => exact keeps_execHostBarWriteDiscard _ _ v _ _
  all_goals exact keepsNext_hostRow rfl s

/-- A step takes at most the front row off the queue; the rest it leaves as `Held.keeps` says. -/
theorem step_keeps {s t : State} (h : step s = .next t) :
    t.pending = s.pending.tail ∧ (s.keyWaits → t.keyWaits ∧ s.fusesHold t) := by
  unfold step at h
  split at h
  · rename_i hp
    obtain rfl := Host.Outcome.next.inj h
    obtain ⟨hq, hk⟩ := keeps_iff.mp (keeps_endTick s.held.keeps_refl)
    exact ⟨by rw [hq, hp]; rfl, hk⟩
  · rename_i i rest hp
    obtain ⟨hq, hk⟩ := keeps_iff.mp (exec_keeps i _ t h)
    exact ⟨by rw [hq, hp]; rfl, hk⟩

/-- Settles O58: no row leaves or joins the queue but the front one (`exec_keeps`). -/
theorem stepTakesOneRow : Obligations.StepTakesOneRow := fun _ _ h => (step_keeps h).1

/-- Settles O59: every row keeps the fuses, an IMG_KEY being programmed only where none is (`exec_keeps`). -/
theorem fusesNeverUnblow : Obligations.FusesNeverUnblow := fun _ _ hw h => (step_keeps h).2 hw

end Sys2Proof.Machine

/-! ## Modes and sensors (SPEC 17, 18, 19): what happens by itself -/

namespace Sys2Proof.Machine

/-! ### Automatic changes of mode (R146, R147, R564, R569) -/

theorem springPcs_nil (s : State) : s.springPcs [] = (none, s) := rfl

/-- With nothing found failing, SPRING ends in STILL. -/
theorem exec_springComplete {s : State} (w : Bool) (hr : s.running = true) (hm : s.mode = .spring) :
    exec (.springComplete [] [] [] w) s = .next ((s.drawAllXts.loadImage w).freeLists.changeMode .still 1) := by
  simp [exec, execSpringComplete, hr, hm, springPcs_nil]

theorem exec_drainLimit {s u : State} {n : Nat} (hr : s.running = true) (hn : s.limitTick = some n)
    (hu : s.waitUntil n = u) (hur : u.running = true) (hun : u.limitTick = some n) :
    exec .drainLimit s = .next u.drainLimit := by
  simp [exec, execDrainLimit, hr, hn, hu, hur, hun]

theorem exec_enterStill {s : State} {d : Drain} (hr : s.running = true) (hd : s.drain = some d) (hf : d.done.isSome = true)
    (ht : allTrees.any s.treeUp = false) :
    exec .enterStill s = .next (s.changeMode .still (if s.drainLimited then 3 else 2)) := by
  simp only [exec, execEnterStill, hr, hd, hf, ht, Bool.not_false, Bool.and_self, if_true]

/-- Settles O37: each row acts in its tick. -/
theorem automaticModeChanges : Obligations.AutomaticModeChanges := by
  refine ⟨fun s w => exec_springComplete w, fun s hr hd => ?complete, fun s n hr hn => exec_drainLimit hr hn rfl,
    fun s d => exec_enterStill⟩
  case complete => simp [exec, execDrainComplete, hr, hd]

/-! ### Readings of rails and sensors (R579, R592, R593) -/

section Rail

variable (s : State) (i v : Nat)

/-- The state with the reading stored and judged. -/
def State.railRead : State :=
  let t := s.setReg (0x4010 + i) (toWord v)
  { t with board := { t.board with
    railOut := smSet (fun _ => false) s.board.railOut i (!inRange (s.railRange i).1 (s.railRange i).2 v) } }

theorem railReads_eq : s.railReads i v =
    if !inRange (s.railRange i).1 (s.railRange i).2 v && smGet (fun _ => false) s.board.railOut i then
      (s.railRead i v).fatal 5 i v else s.railRead i v := rfl

theorem railRead_raw : (s.railRead i v).raw (0x4010 + i) = toWord v := raw_setReg_same s _ _

end Rail

section Temperature

variable (s : State) (i : Nat) (v : BitVec 24)

/-- The state with a sensor's reading stored; it is `hot` at the shutdown threshold, and `warned` is what THERM_WARN knows
of the sensor. -/
def State.tempRead (hot warned : Bool) : State :=
  { s.setReg (0x8010 + i) (toWord v.toNat) with board := { s.board with
    tempOut := smSet (fun _ => false) s.board.tempOut i hot, warned := smSet (fun _ => false) s.board.warned i warned } }

/-- A second reading in a row at the shutdown threshold is fatal, whether it raises THERM_WARN or not. -/
theorem tempReads_hot (h : 1000 * ((s.tempLimits i).1 : Int) ≤ v.toInt)
    (hw : smGet (fun _ => false) s.board.tempOut i = true) :
    ∃ t : State, s.tempReads i v = t.fatal 4 i (unsigned 24 (v.toInt.fdiv 1000)) ∧
      t.board.inReset = s.board.inReset ∧ t.mode = s.mode ∧ t.sp = s.sp ∧ t.start = s.start := by
  simp only [State.tempReads, h, hw, decide_true, Bool.and_self, if_true]
  refine ⟨_, rfl, ?_⟩
  split <;> exact ⟨rfl, rfl, rfl, rfl⟩

/-- A reading at the warning threshold and below the other raises THERM_WARN where it does not stand. -/
theorem tempReads_warm (h : v.toInt < 1000 * ((s.tempLimits i).1 : Int)) (hw : 1000 * ((s.tempLimits i).2 : Int) ≤ v.toInt) :
    s.tempReads i v = if smGet (fun _ => false) s.board.warned i then s.tempRead i v false true
      else (s.tempRead i v false true).alarm 16 0x029 i (unsigned 24 (v.toInt.fdiv 1000)) := by
  simp only [State.tempReads, State.tempRead, not_le.mpr h, hw, decide_true, decide_false, Bool.true_or, Bool.true_and,
    Bool.false_and, Bool.false_eq_true, if_false]
  cases smGet (fun _ => false) s.board.warned i <;> rfl

end Temperature

theorem exec_thermtrip {s : State} {k : BitVec 5} {mc : BitVec 24} (hk : k.toNat < 20) (hm : 125000 ≤ mc.toInt)
    (ht : s.board.thermtrip = false) : exec (.thermtrip k mc) s = .next
      ({ s with board := { s.board with thermtrip := true } }.emit (.pin 4 0 false s.now)) := by
  simp [exec, execThermtrip, hk, hm, ht]

/-- Settles O33: what a reading leaves, and the fatal stop by what it is of every state (`modeChangeEntersMode`). -/
theorem sensorReadingsAreJudged : Obligations.SensorReadingsAreJudged := by
  refine ⟨fun s mv hr => ?rails, fun s mc hr => ?temperatures, fun s i v hin => ?inside,
    fun s i v hout hwas hr hm hh => ?outside, fun s i v hhot hwas hr hm hh => ?hot, fun s i v => tempReads_warm s i v,
    fun s k mc => exec_thermtrip⟩
  case rails => simp [exec, execRailSample, hr]
  case temperatures => simp [exec, execTemperatureSample, hr]
  case inside =>
    have hread : s.railReads i v = s.railRead i v := by
      rw [railReads_eq, hin]
      rfl
    rw [hread]
    exact ⟨rfl, rfl, railRead_raw s i v⟩
  case outside =>
    have hread : s.railReads i v = (s.railRead i v).fatal 5 i v := by
      rw [railReads_eq, hout, hwas]
      rfl
    obtain ⟨hmode, hprev, -, -, hcause, -⟩ := modeChangeEntersMode.2 (s.railRead i v) 5 i v hr hm hh
    rw [hread]
    exact ⟨hmode, hprev, hcause⟩
  case hot =>
    obtain ⟨t, hread, htr, htm, hts, htst⟩ := tempReads_hot s i v hhot hwas
    obtain ⟨hmode, hprev, -⟩ := modeChangeEntersMode.2 t 4 i (unsigned 24 (v.toInt.fdiv 1000)) (htr.trans hr) (htm ▸ hm)
      (hts ▸ hh)
    rw [hread]
    exact ⟨hmode, hprev.trans (by rw [htst])⟩

end Sys2Proof.Machine

/-! ## Reset pins and the test port (SPEC 19) -/

namespace Sys2Proof.Machine

/-! ### The queues while PERST_N is low (R581) -/

theorem raw_alarmClear (s : State) (i code inst : Nat) {a : Nat} (h : a < 0x20100) :
    (s.alarmClear i code inst).raw a = s.raw a := by
  have hne : a ≠ alarmWord i inst := by unfold alarmWord; omega
  unfold State.alarmClear
  dsimp only
  split
  · exact raw_setReg_ne _ _ hne
  · rfl

section QueueWords

variable (s : State) (q : Nat) {a : Nat} (h5 : a ≠ adQueue q 5) (h9 : a ≠ adQueue q 9) (ha : a < 0x20100)
include h5 h9 ha

theorem raw_resetQueue : (s.resetQueue q).raw a = s.raw a := by
  unfold State.resetQueue State.setQstate
  dsimp only
  split
  · rw [raw_setReg_ne _ _ h5, raw_setQueue]
  · split
    · rw [raw_alarmClear _ _ _ _ ha, raw_setReg_ne _ _ h9, raw_setReg_ne _ _ h5, raw_setQueue]
    · rw [raw_setReg_ne _ _ h9, raw_setReg_ne _ _ h5, raw_setQueue]

theorem raw_vfQueue : (s.vfQueue q).raw a = s.raw a := by
  have hr : ((s.dropLock q).resetQueue q).raw a = s.raw a := (raw_resetQueue _ q h5 h9 ha).trans (dropLock_raw s q a)
  unfold State.vfQueue
  dsimp only
  split
  · exact hr
  · split
    · exact hr
    · exact hr
    · exact dropLock_raw s q a

theorem raw_queueGone : (s.queueGone q).raw a = s.raw a := by
  have hv := raw_vfQueue s q h5 h9 ha
  unfold State.queueGone State.setQstate
  rw [raw_setReg_ne _ _ h9]
  dsimp only
  split <;> simpa using hv

end QueueWords

theorem queueGone_qstate (s : State) (q : Nat) : (s.queueGone q).qstate q = 3 := by
  rw [State.queueGone, State.qstate, State.rf, State.setQstate, raw_setReg_same]
  decide

/-- A queue that is disabled stays so while others are disabled. -/
theorem queueGone_keeps {s : State} {q p : Nat} (hp : p < 64) (h : s.qstate p = 3) : (s.queueGone q).qstate p = 3 := by
  by_cases hq : p = q
  · rw [hq, queueGone_qstate]
  · have hwords : adQueue p 9 ≠ adQueue q 5 ∧ adQueue p 9 ≠ adQueue q 9 ∧ adQueue p 9 < 0x20100 := by
      unfold adQueue
      omega
    rw [State.qstate, State.rf, raw_queueGone s q hwords.1 hwords.2.1 hwords.2.2]
    exact h

theorem foldl_queueGone_qstate {l : List Nat} {p : Nat} (hl : p ∈ l) (hp : p < 64) (s : State) :
    (l.foldl State.queueGone s).qstate p = 3 := by
  induction l generalizing s with
  | nil => cases hl
  | cons q l ih =>
    rcases List.mem_cons.mp hl with rfl | hm
    · exact foldl_keeps (P := fun s : State => s.qstate p = 3) (fun _ _ h => queueGone_keeps hp h) l _ (queueGone_qstate s p)
    · exact ih hm _

theorem le_ringDrop (r : Nat) : 0x20100 ≤ ringDrop r := by
  unfold ringDrop adTree
  (repeat' split) <;> omega

theorem raw_ringFlush (s : State) (r : Nat) {a : Nat} (ha : a < 0x20100) : (s.ringFlush r).raw a = s.raw a := by
  have hne : a ≠ ringDrop r := by have := le_ringDrop r; omega
  rw [State.ringFlush, raw_setRing, raw_bump, if_neg hne]

theorem raw_abandonDump (s : State) {a : Nat} (ha : a < 0x20100) : s.abandonDump.raw a = s.raw a := by
  unfold State.abandonDump
  split
  · exact (raw_bump _ _ _ _).trans (if_neg (by omega))
  · rfl

theorem raw_evt (s : State) (e : EvtUnit) (a : Nat) : ({ s with evt := e } : State).raw a = s.raw a := (rfl)

/-- PERST_N leaves each of the 64 queues disabled. -/
theorem hostGone_qstate (s : State) {q : Nat} (hq : q < 64) : s.hostGone.qstate q = 3 := by
  have ha : adQueue q 9 < 0x20100 := by unfold adQueue; omega
  have hflush : ∀ (l : List Nat) (t : State), (l.foldl State.ringFlush t).raw (adQueue q 9) = t.raw (adQueue q 9) := by
    intro l t
    exact foldl_keeps (P := fun u => u.raw (adQueue q 9) = t.raw (adQueue q 9))
      (fun u r h => (raw_ringFlush u r ha).trans h) l t rfl
  have hgone : s.hostGone.raw (adQueue q 9) = ((List.range 64).foldl State.queueGone s).raw (adQueue q 9) := by
    rw [State.hostGone, raw_evt, raw_abandonDump _ ha, hflush]
  have hq := foldl_queueGone_qstate (List.mem_range.mpr hq) hq s
  rw [State.qstate, State.rf] at hq ⊢
  rwa [hgone]

/-! ### Resets by pin and supply, and the test access port (R577 to R582, R589) -/

theorem exec_resetN {s : State} {x : BitVec 5} (h : s.board.resetLow = true) (hl : s.board.railsLow = []) :
    exec (.resetN x) s = .next
      (let t := { s with
         board := { s.board with resetLow := false, straps := x.toNat, inReset := false }, tap := s.tap.letGo }
       { t with start := t.toDevice }) := by
  simp [exec, execResetN, h, hl]

theorem exec_railBelow90Percent {s : State} {r : BitVec 4} (hr : s.board.inReset = false) (ht : s.board.thermtrip = false) :
    exec (.railBelow90Percent r true) s = .next { s.hardReset with board := { s.hardReset.board with
      railsLow := smSet (fun _ => false) s.board.railsLow r.toNat true } } := by
  have hboard : s.hardReset.board.railsLow = s.board.railsLow ∧ s.hardReset.board.thermtrip = false := ⟨rfl, ht⟩
  obtain ⟨hrails, htrip⟩ := hboard
  simp only [exec, execRailBelow90Percent, hr, htrip, hrails, Bool.not_false, Bool.and_self, Bool.false_and, if_true,
    Bool.false_eq_true, if_false]

/-- With IDCODE a data scan shifts the code out, and no pin is taken. -/
theorem exec_scanDr_idcode {s : State} {bits : List Bool} (pins : List Bool) (hi : s.tap.ir = 1) (hb : bits.length = 32) :
    exec (.testAccessPort (.scanDr bits pins)) s = .next
      { s with tap := { s.tap with tdo := (bitList 32 0x17128B87).reverse ++ s.tap.tdo } } := by
  have hacts : s.tap.acts s.board.resetLow = 1 := by simp [Tap.acts, hi]
  have hcapture : tapCapture 1 pins = bitList 32 0x17128B87 := rfl
  have hout : (scan (bitList 32 0x17128B87) bits).2 = bitList 32 0x17128B87 := by
    simp only [scan, hb]
    exact List.take_left' (by simp [bitList])
  simp only [exec, execTestAccessPort, hacts, hcapture, hout]
  rfl

/-- Settles O32: each pin and each operation of the port by its row. -/
theorem resetPinsAndTestPort : Obligations.ResetPinsAndTestPort := by
  refine ⟨⟨fun s hr hp => ?hot, fun s hr hp => ⟨?perst, fun q => hostGone_qstate s⟩, fun _ _ => rfl, fun s hl hr => ?pin,
    fun s x => exec_resetN, fun s r => exec_railBelow90Percent⟩,
    fun _ => rfl, fun _ _ => rfl, fun s bits pins => exec_scanDr_idcode pins⟩
  case hot => simp [exec, execPcieHotReset, hr, hp]
  case perst => simp [exec, execPerstN, hr, hp]
  case pin => simp [exec, execDeviceResetPin, hl, hr]

end Sys2Proof.Machine

/-! ## The flash, retries and retirement (SPEC 17, 18) -/

namespace Sys2Proof.Machine

/-! ### The flash operation in progress ends (R571) -/

section FlashOp

variable {s : State} {o : ImgOp} (hr : s.running = true) (ho : s.img.op = some o)
include hr ho

theorem exec_imgOpDone_refused (x : List Byte) (d : Nat) (h f : Bool) (hb : o.bad ≠ 0) :
    exec (.imgOpDone x h f d) s = .next (s.endImg o o.bad) := by
  simp only [exec, execImgOpDone, hr, ho, hb, if_true, ne_eq, not_false_eq_true]

variable (x : List Byte) (d : Nat) (hb : o.bad = 0)
include hb

theorem exec_imgErase (hop : o.op = 0) : exec (.imgOpDone x false false d) s =
    .next (((s.eraseFlash o.flash (o.flash + o.len)).setRf 0xC016 25 0 o.len).endImg o 0) := by
  simp [exec, execImgOpDone, hr, ho, hb, hop, State.imgErase]

theorem exec_imgProgram (hop : o.op = 1) (he : s.erasedRun o.flash o.len = o.len) :
    exec (.imgOpDone x false false d) s =
      .next (((s.putFlash o.flash (takePad o.len 0 x)).setRf 0xC016 25 0 o.len).endImg o 0) := by
  simp [exec, execImgOpDone, hr, ho, hb, hop, State.imgProgram, he]

theorem exec_imgCheck (hop : o.op = 2) : exec (.imgOpDone x false false d) s =
    .next ((s.setReg 0xC015 (s.checkSlot (b2n o.slot))).endImg o 0) := by
  simp [exec, execImgOpDone, hr, ho, hb, hop]

theorem exec_setBoot (hop : o.op = 3) : exec (.imgOpDone x false false d) s =
    .next (s.imgBoot o o.trial (b2n o.slot) false d) := by
  simp [exec, execImgOpDone, hr, ho, hb, hop]

theorem exec_confirm (hop : o.op = 4) : exec (.imgOpDone x false false d) s =
    .next (s.imgBoot o false (s.rf 0xC000 0 0) false d) := by
  simp [exec, execImgOpDone, hr, ho, hb, hop]

theorem exec_rollback (hop : o.op = 5) : exec (.imgOpDone x false false d) s = .next (s.imgRollback o false) := by
  simp [exec, execImgOpDone, hr, ho, hb, hop]

theorem exec_keyProgram (hop : o.op = 6) : exec (.imgOpDone x false false d) s =
    .next ({ s with img := { s.img with key := some (keyOf (bytesNat (takePad 16 0 x))) } }.endImg o 0) := by
  simp [exec, execImgOpDone, hr, ho, hb, hop, State.imgKey]

end FlashOp

/-- A ROLLBACK raises each floor to the greatest of the booted image. -/
theorem imgRollback_floors (s : State) (o : ImgOp) :
    (s.imgRollback o false).img.fwMin = max s.img.fwMin s.img.fwRb ∧
      (s.imgRollback o false).img.imgMin = s.img.rbs.foldl max s.img.imgMin := by
  have hheld : (s.imgRollback o false).held =
      { s.held with fwMin := max s.img.fwMin s.img.fwRb, imgMin := s.img.rbs.foldl max s.img.imgMin, op := none } := by
    simp only [State.imgRollback, Bool.false_eq_true, if_false, endImg_held, held_ite, held_notice, ite_self]
    rfl
  exact ⟨congrArg Held.fwMin hheld, congrArg Held.imgMin hheld⟩

/-- Settles O56: one operation by its code. -/
theorem flashOperationsComplete : Obligations.FlashOperationsComplete := by
  intro s o x d hr ho
  refine ⟨fun hb h f => exec_imgOpDone_refused hr ho x d h f hb, fun hb => ⟨exec_imgErase hr ho x d hb,
    exec_imgProgram hr ho x d hb, exec_imgCheck hr ho x d hb, exec_setBoot hr ho x d hb, exec_confirm hr ho x d hb,
    exec_keyProgram hr ho x d hb, fun hop => ?rollback⟩⟩
  case rollback => exact ⟨_, exec_rollback hr ho x d hb hop, imgRollback_floors s o⟩

/-! ### Retries, memory errors and retirement (R420, R421, R536, R537, R541, R544) -/

theorem exec_retryEnd {s : State} {c : BitVec 4} (i : BitVec 24) (hr : s.running = true) (hc : c.toNat ≠ 5) :
    exec (.retryEnd c i) s = .next (s.endRetry c.toNat i.toNat) := by
  simp [exec, execRetryEnd, hr, hc]

/-- The retry of a pipe ends 1,000 ticks after it began. -/
theorem exec_retryEnd_pipe {s u : State} {i : BitVec 24} (hr : s.running = true) (hb : (s.hist 5 i.toNat).busy = true)
    (hu : s.waitUntil ((s.hist 5 i.toNat).starts.headD 0 + 1000) = u) (hur : u.running = true) :
    exec (.retryEnd 5 i) s = .next (u.endRetry 5 i.toNat) := by
  have h5 : (5 : BitVec 4).toNat = 5 := rfl
  simp only [exec, execRetryEnd, hr, h5, hb, hu, hur, and_self, if_true]

theorem exec_pseudoChannelMoveDone {s : State} {pc : BitVec 8} {q : Nat} {e : Exec} (picks : List Nat)
    (hr : s.running = true) (hm : s.movingExec pc.toNat = some (q, e)) :
    exec (.pseudoChannelMoveDone pc picks) s = .next
      (((s.movePages pc.toNat picks).2.setRf (adPc pc.toNat) 20 20 0).endExec q stDone (s.movePages pc.toNat picks).1 0) := by
  simp only [exec, execPseudoChannelMoveDone, hr, hm, if_true]

theorem exec_pseudoChannelRebuildDone {s u : State} {pc : BitVec 8} {q n : Nat} (hr : s.running = true)
    (hm : s.rebuildExec pc.toNat = some (q, n)) (hu : s.waitUntil (n + 65536) = u) (hur : u.running = true) :
    exec (.pseudoChannelRebuildDone pc) s = .next
      (((u.pcRebuilt pc.toNat).restored 3 pc.toNat).endExec q stDone 0 0) := by
  simp only [exec, execPseudoChannelRebuildDone, hr, hm, hu, hur, if_true]

/-- Settles O36: each row acts on its resource, the copy of an SRAM row for the command that waits for it. -/
theorem retriesAndRetirementsEnd : Obligations.RetriesAndRetirementsEnd := by
  refine ⟨⟨fun s c i hr hm hc ho => ?transient, fun s c i => exec_retryEnd i,
      fun s i hr hb => exec_retryEnd_pipe hr hb rfl, fun s e hs hu => ?memory⟩,
    fun s pc picks q e => exec_pseudoChannelMoveDone picks,
    fun s pc q n hr hm hur => exec_pseudoChannelRebuildDone hr hm rfl hur, fun s row back q e hr hc hy => ?copy⟩
  case transient => simp [exec, execTransientFault, hr, hm, hc, ho]
  case memory => simp [exec, execMemUncorr, hs, hu]
  case copy => simp only [exec, execSpareRowCopyDone, hr, hc, hy, if_true]

end Sys2Proof.Machine

/-! ## Cells and tokens (SPEC 12, 15) -/

namespace Sys2Proof.Machine

/-! ### Cells across the core (R195, R316, R332, R394, R399, R408, R411) -/

theorem exec_freeListRebuild {s u : State} {b : BitVec 6} {n : Nat} (hr : s.running = true)
    (hn : smGet (fun _ => none) s.cat.rebuild b.toNat = some n) (hu : s.waitUntil (n + 6144) = u) (hur : u.running = true)
    (hun : smGet (fun _ => none) u.cat.rebuild b.toNat = some n) : exec (.freeListRebuild b) s =
      .next { u with cat := { u.cat with rebuild := smSet (fun _ => none) u.cat.rebuild b.toNat none } } := by
  have hticks : bankCells / 4 = 6144 := rfl
  simp only [exec, execFreeListRebuild, hr, hn, hticks, hu, hur, hun, BEq.rfl, Bool.and_self, if_true]

theorem exec_confluenceSlot_first {s : State} (ht : s.traffic = true) (hl : s.cfl.lastSlot = none) :
    exec .confluenceSlot s = .next s.cflSlot.finishGoing := by
  simp only [exec, execConfluenceSlot, ht, hl, if_true]

theorem exec_confluenceSlot {s u : State} {n : Nat} (ht : s.traffic = true) (hl : s.cfl.lastSlot = some n)
    (hu : s.waitUntil (n + 1) = u) (hut : u.traffic = true) : exec .confluenceSlot s = .next u.cflSlot.finishGoing := by
  simp only [exec, execConfluenceSlot, ht, hl, hu, hut, if_true]

theorem exec_resequencerTimeout {s u : State} {o : BitVec 6} {x : FCell × Nat} (ht : s.traffic = true)
    (hx : s.heldLongest o.toNat = some x) (hu : s.waitUntil (x.2 + 128) = u) (hut : u.traffic = true)
    (hux : u.heldLongest o.toNat = some x) :
    exec (.resequencerTimeout o) s = .next (u.reseqSkip o.toNat x.1).finishGoing := by
  simp only [exec, execResequencerTimeout, ht, hx, hu, hut, hux, BEq.rfl, Bool.and_self, if_true]

theorem exec_enqueue {s : State} {k h x : Nat} {p : Packet} (picks : List Nat) (ht : s.traffic = true)
    (hp : s.pkt k = some p) (hq : p.nextQueue = some (h, x)) :
    exec (.enqueue k picks) s = .next (s.enqueue k p h x picks) := by
  simp only [exec, execEnqueue, ht, hp, hq, if_true]

theorem exec_egressEnqueue {s : State} {k m c : Nat} {p : Packet} (ht : s.traffic = true) (hp : s.pkt k = some p)
    (hm : p.nextMac = some (m, c)) : exec (.egressEnqueue k) s = .next (s.egressEnqueue k p m c) := by
  simp only [exec, execEgressEnqueue, ht, hp, hm, if_true]

section Egress

variable {s : State} (k : Nat) {p : Packet} {m c : Nat}

/-- The MAC takes frames of this kind: it is up, and an Ohmad MAC takes PTP frames alone. -/
def State.macTakes (s : State) (p : Packet) (m : Nat) : Prop :=
  s.macUp m = true ∧ (s.macOhmad m = false ∨ isPtp p.octets = true)

theorem macTakes_iff : s.macTakes p m ↔ (s.macUp m && (!s.macOhmad m || isPtp p.octets)) = true := by
  simp [State.macTakes]

theorem egressEnqueue_room (hm : s.atStart.macTakes p m)
    (hc : s.atStart.egCells (8 * m + c) < s.atStart.rf (adEgQueue m c 0) 19 0) : s.egressEnqueue k p m c =
      ((s.setEgq (8 * m + c) (s.egq (8 * m + c) ++ [{ pkt := k, len := p.len, at_ := s.now }])).modPkt k
        (fun p => { p with dests := p.dests.erase (.mac m c) })).traceStage p.trace 5 := by
  have hfree : Nat.blt (s.atStart.egCells (8 * m + c)) (s.atStart.rf (adEgQueue m c 0) 19 0) = true := Nat.blt_eq.mpr hc
  simp only [State.egressEnqueue, macTakes_iff.mp hm, hfree, Bool.and_self, if_true]

theorem egressEnqueue_full (hm : s.atStart.macTakes p m)
    (hc : s.atStart.rf (adEgQueue m c 0) 19 0 ≤ s.atStart.egCells (8 * m + c)) : s.egressEnqueue k p m c =
      ((s.bumpSet 6 (8 * m + c) 0 1).traceEnds p.trace true false false).dropDest k (.mac m c) := by
  have hfull : Nat.blt (s.atStart.egCells (8 * m + c)) (s.atStart.rf (adEgQueue m c 0) 19 0) = false := by
    rw [← Bool.not_eq_true, Nat.blt_eq]
    exact not_lt.mpr hc
  simp only [State.egressEnqueue, macTakes_iff.mp hm, hfull, Bool.and_false, Bool.false_eq_true, if_true, if_false]

theorem egressEnqueue_down (hm : ¬s.atStart.macTakes p m) : s.egressEnqueue k p m c =
    ((s.bump (adMacStat m 33) 1).traceEnds p.trace true false false).dropDest k (.mac m c) := by
  have hdown : (s.atStart.macUp m && (!s.atStart.macOhmad m || isPtp p.octets)) = false :=
    Bool.eq_false_iff.mpr (mt macTakes_iff.mpr hm)
  simp only [State.egressEnqueue, hdown, Bool.false_and, Bool.false_eq_true, if_false]

end Egress

/-- Settles O47: each row in its tick; at an egress queue by room and by the MAC. -/
theorem cellsCrossTheCore : Obligations.CellsCrossTheCore := by
  refine ⟨fun s k pick ht => ?later, fun s b n hr hn => exec_freeListRebuild hr hn rfl, fun s => exec_confluenceSlot_first,
    fun s n ht hl => exec_confluenceSlot ht hl rfl, fun s o x ht hx => exec_resequencerTimeout ht hx rfl,
    fun s k h x picks p => exec_enqueue picks, fun s k m c p ht hp hm => ?egress⟩
  case later => simp [exec, execCellAllocation, ht]
  case egress =>
    rw [exec_egressEnqueue ht hp hm]
    exact ⟨fun h => congrArg _ (egressEnqueue_room k h.1 h.2), fun hu hc => congrArg _ (egressEnqueue_full k hu hc),
      fun hu => congrArg _ (egressEnqueue_down k hu)⟩

/-! ### Tokens of the Ohmad ring (R481 to R483) -/

theorem exec_masterTokenSend {s u : State} (hr : s.ohmRuns = true) (hm : s.ohmMaster = true)
    (hu : s.waitUntil ((s.ohm.sentAt.map (· + s.ohmPeriod)).getD 0) = u) (hur : u.ohmRuns = true) (hum : u.ohmMaster = true) :
    exec .masterTokenSend s = .next (u.sendToken none) := by
  simp only [exec, execMasterTokenSend, hr, hm, hu, hur, hum, Bool.and_self, if_true]

theorem exec_tokenComplete {s : State} {t : TokenOut} (hr : s.ohmRuns = true)
    (ht : s.ohm.out.find? (fun t => t.left.isEmpty) = some t) :
    exec .tokenComplete s = .next
      (let x := (s.setRf (adOhm 8) 31 0 t.rtt).setRf (adOhm 8) 44 43 (if t.turned then 1 else 2)
      { x with ohm := { x.ohm with out := x.ohm.out.filter (fun y => y.seq != t.seq) } }) := by
  simp only [exec, execTokenComplete, hr, ht, if_true]

theorem exec_tokenLate {s u : State} {t : TokenOut} (hr : s.ohmRuns = true)
    (ht : s.ohm.out.find? (fun t => !t.left.isEmpty && !t.late) = some t) (hu : s.waitUntil (t.at_ + s.rttLimit) = u)
    (hur : u.ohmRuns = true) (hut : u.ohm.out.contains t = true) : exec .tokenLate s = .next (u.lateToken t) := by
  simp only [exec, execTokenLate, hr, ht, hu, hur, hut, Bool.and_self, if_true]

theorem exec_tokenLost {s u : State} (hl : s.listens = true) (hu : s.waitUntil s.lostTick = u) (hul : u.listens = true) :
    exec .tokenLost s = .next ((u.setRf (adOhm 8) 45 45 1).notice 0x1C3 0 0) := by
  simp only [exec, execTokenLost, hl, hu, hul, if_true]

/-- Settles O54: the master's rows and the member's, each in its tick. -/
theorem tokensCirculate : Obligations.TokensCirculate := by
  refine ⟨fun s hr hm => exec_masterTokenSend hr hm rfl, fun s m ws hh hk hc => ?received, fun s m ws hh hc => ?commit,
    fun s t => exec_tokenComplete, fun s t hr ht => exec_tokenLate hr ht rfl, fun s hl => exec_tokenLost hl rfl⟩
  case received => simp [exec, execTokenReceived, hh, hk, hc]
  case commit => simp [exec, execCommitTokenReceived, hh, hc]

end Sys2Proof.Machine

/-! ## Commits, mirrors and switchover (SPEC 15) -/

namespace Sys2Proof.Machine

/-! ### Commits, mirrors and switchover (R489, R490, R495, R496, R498, R499) -/

theorem exec_ringCommit {s u : State} {c : Nat} (hr : s.ohmRuns = true) (hc : s.ohm.commit = some c)
    (hu : s.waitUntil (s.tickOfNt c) = u) (hur : u.ohmRuns = true) (huc : u.ohm.commit = some c) :
    exec .ringCommit s = .next (u.commitAt c) := by
  simp only [exec, execRingCommit, hr, hc, hu, hur, huc, BEq.rfl, Bool.and_self, if_true]

theorem exec_digestComplete {s u : State} {e : Nat} (hr : s.running = true) (he : s.ohm.digRun = some e)
    (hu : s.waitUntil s.ohm.digAt = u) (hur : u.running = true) (hue : u.ohm.digRun = some e) :
    exec .digestComplete s = .next (u.endDigest e) := by
  simp only [exec, execDigestComplete, hr, he, hu, hur, hue, BEq.rfl, Bool.and_self, if_true]

section Mirror

variable {s u : State} {t : BitVec 7}

theorem exec_sfcRecordSend {n : Nat} (hs : s.mirrors t.toNat = true) (hn : smGet (fun _ => 0) s.ohm.sfcSent t.toNat = n)
    (hu : s.waitUntil (if n = 0 then 0 else n - 1 + s.ohmPeriod) = u) (hum : u.mirrors t.toNat = true) :
    exec (.sfcRecordSend t) s = .next
      ({ u with ohm := { u.ohm with sfcSent := smSet (fun _ => 0) u.ohm.sfcSent t.toNat (u.now + 1) } }.sendMirror t.toNat
        [u.sfcRecord t.toNat false]) := by
  simp only [exec, execSfcRecordSend, hs, hn, hu, hum, if_true]

theorem exec_mirrorRefresh {n : Nat} (hs : s.mirrors t.toNat = true) (hn : smGet (fun _ => 0) s.ohm.refreshed t.toNat = n)
    (hu : s.waitUntil (if n = 0 then 0 else n - 1 + s.rf (adOhm 4) 15 0 * 10 ^ 6) = u) (hum : u.mirrors t.toNat = true) :
    exec (.mirrorRefresh t) s = .next
      ({ u with ohm := { u.ohm with refreshed := smSet (fun _ => 0) u.ohm.refreshed t.toNat (u.now + 1) } }.sendItems
        t.toNat (u.mirUsed t.toNat)) := by
  simp only [exec, execMirrorRefresh, hs, hn, hu, hum, if_true]

/-- A mirror frame of the member's own tree is taken by the row of its kind. -/
theorem takeMirror_own {m : Nat} {ws : List Word} (hh : s.ohmHears m = true) (hk : ohmKind ws = 1)
    (hf : s.ohmForeign ws = false) : s.takeMirror m ws (mirKind ws) = s.mirFrame m ws := by
  simp [State.takeMirror, hh, hk, hf]

theorem exec_silenceTimeout {n : Nat} (hs : s.awaitsSfc t.toNat = true) (hn : smGet (fun _ => 0) s.ohm.silent t.toNat = n)
    (h0 : n ≠ 0) (hu : s.waitUntil (n - 1 + s.rf (adOhm 3) 31 16 * 10 ^ 6) = u) (hus : u.awaitsSfc t.toNat = true)
    (hun : smGet (fun _ => 0) u.ohm.silent t.toNat = n) :
    exec (.silenceTimeout t) s = .next (u.stampTakeover t.toNat 2) := by
  have hne : (n != 0) = true := bne_iff_ne.mpr h0
  simp only [exec, execSilenceTimeout, hs, hn, hne, hu, hus, hun, BEq.rfl, Bool.and_self, if_true]

theorem exec_handoverTimeout {n : Nat} (hs : s.ohmRuns = true) (hn : smGet (fun _ => 0) s.ohm.asked t.toNat = n)
    (h0 : n ≠ 0) (hu : s.waitUntil (n - 1 + 2 * s.rttLimit) = u) (hus : u.ohmRuns = true)
    (hun : smGet (fun _ => 0) u.ohm.asked t.toNat = n) : exec (.handoverTimeout t) s = .next
      ({ u with ohm := { u.ohm with asked := smSet (fun _ => 0) u.ohm.asked t.toNat 0 } }.notice 0x1C7 t.toNat 0) := by
  have hne : (n != 0) = true := bne_iff_ne.mpr h0
  simp only [exec, execHandoverTimeout, hs, hn, hne, hu, hus, hun, BEq.rfl, Bool.and_self, if_true]

end Mirror

/-- The first takeover of a tick claims the words of its tree's role, and waits for the end of the tick (R499). -/
theorem stampTakeover_first {s : State} (t cause : Nat) (h : s.ohm.taking = []) : s.stampTakeover t cause =
    ({ s with ohm := { s.ohm with taking := [(t, cause)] } } : State).claim 6
      [.reg (adTree t 0), .reg (adOhm (0x100 + 2 * t))] := by
  simp [State.stampTakeover, h]

theorem claimsWord_claim (s : State) (lvl a : Nat) {ps : List Place} (h : .reg a ∈ ps) : (s.claim lvl ps).claimsWord a = true :=
  List.any_eq_true.mpr ⟨(.reg a, lvl), List.mem_append_left _ (List.mem_map.mpr ⟨_, h, rfl⟩), by simp⟩

/-- Settles O55: the rows in their ticks, and a takeover stamped and then carried out at the end of its tick. -/
theorem commitsMirrorsAndSwitchover : Obligations.CommitsMirrorsAndSwitchover := by
  refine ⟨⟨fun s c hr hc => exec_ringCommit hr hc rfl, fun s e hr he => exec_digestComplete hr he rfl⟩,
    fun s t hs => exec_sfcRecordSend hs rfl rfl, fun s t hs => ?change, fun s t hs => exec_mirrorRefresh hs rfl rfl,
    fun s m ws hh hk hf => ⟨fun h => ?plain, fun h => ?handover, fun h => ?release⟩,
    fun s t n hs hn h0 => exec_silenceTimeout hs hn h0 rfl, fun s t cause h _ => ?takeover,
    fun s t n hs hn h0 => exec_handoverTimeout hs hn h0 rfl⟩
  case change => simp [exec, execMirrorChangeSend, hs]
  case plain => exact congrArg _ (h ▸ takeMirror_own hh hk hf)
  case handover => exact congrArg _ (h ▸ takeMirror_own hh hk hf)
  case release => exact congrArg _ (h ▸ takeMirror_own hh hk hf)
  case takeover =>
    rw [stampTakeover_first t cause h]
    refine ⟨?_, rfl, rfl, rfl⟩
    rintro a (rfl | rfl)
    · exact claimsWord_claim _ _ _ (by simp)
    · exact claimsWord_claim _ _ _ (by simp)

end Sys2Proof.Machine

/-! ## The monitor and the event rings (SPEC 16) -/

namespace Sys2Proof.Machine

/-! ### Bandwidth, dumps, traces and events (R513, R516, R517, R522, R526, R531, R532) -/

section Monitor

variable {s u : State} (hr : s.running = true) (hur : u.running = true)
include hr hur

theorem exec_bandwidthWindowEnd {e : Nat} (hb : s.rb 0x40020 47 = true) (he : s.mon.bwFrom + s.rf 0x40020 29 0 = e)
    (hu : s.waitUntil e = u) (hub : u.rb 0x40020 47 = true) : exec .bandwidthWindowEnd s =
      .next (let y := (List.range 1024).foldl State.bwPoint u
        { y with mon := { y.mon with bwFrom := e, bw := [] } }) := by
  simp only [exec, execBandwidthWindowEnd, hr, hb, he, hu, hur, hub, Bool.and_self, if_true]

/-- The dump that is due in the tick of the row has its number, whether it starts or not. -/
def State.dumpNumbered (u : State) : State :=
  { u with mon := { u.mon with dump := { u.mon.dump with next := u.mon.dump.next + 1 } } }

theorem exec_counterDumpStart {e : Nat} (he : s.dumpDue = some e) (hu : s.waitUntil e = u) (hue : u.dumpDue = some e) :
    exec .counterDumpStart s = .next (if u.mon.dump.run.isSome then
      (u.dumpNumbered.bump 0x40032 1).notice 0x0C0 0 ((u.dumpNumbered.raw 0x40031).toNat % 2 ^ 24)
      else u.dumpNumbered.startDump) := by
  simp only [exec, execCounterDumpStart, hr, he, hu, hur, hue, BEq.rfl, Bool.and_self, if_true]
  rfl

theorem exec_counterDumpEnd {q n f : Nat} (hd : s.mon.dump.run = some (q, n, f))
    (hu : s.waitUntil (max s.now s.mon.dump.holdTill + ceilDiv (dumpBody f - s.mon.dump.done) 8) = u)
    (hud : u.mon.dump.run = some (q, n, f)) (hf : u.mon.dump.done = dumpBody f) : exec .counterDumpEnd s =
      .next (let z := u.putFrame (u.mon.dump.area + 64 + 8 * dumpBody f) [toWord q, toWord u.tick48, u.raw 0x40032, 0, 0, 0, 0, 0]
        { z with mon := { z.mon with dump := { z.mon.dump with run := none } } }.msix 0 10) := by
  simp only [exec, execCounterDumpEnd, hr, hd, hu, hur, hud, hf, BEq.rfl, Bool.and_self, if_true]

theorem exec_traceTimeout {k : BitVec 6} {t : TraceSlot} (ht : s.traceSlot k.toNat = some t) (he : t.ended = none)
    (hu : s.waitUntil (t.base + 10 ^ 9) = u) (hut : u.traceSlot k.toNat = some t) :
    exec (.traceTimeout k) s = .next (u.putTrace k.toNat t (false, false, true)) := by
  simp only [exec, execTraceTimeout, hr, ht, he, hu, hur, hut, Option.isNone_none, BEq.rfl, Bool.and_self, if_true]

theorem exec_holdoffUs {n : Nat} (hn : s.evt.oldest = some n) (hu : s.waitUntil (n + s.rf 0x20005 31 0 * 1000) = u)
    (hun : u.evt.oldest = some n) : exec .holdoffUs s = .next u.signal9 := by
  simp only [exec, execHoldoffUs, hr, hn, hu, hur, hun, BEq.rfl, Bool.and_self, if_true]

end Monitor

theorem exec_traceEnd {s : State} {k : BitVec 6} {t : TraceSlot} {e : Bool × Bool × Bool} (hr : s.running = true)
    (ht : s.traceSlot k.toNat = some t) (he : t.ended = some e) :
    exec (.traceEnd k) s = .next (s.putTrace k.toNat t e) := by
  simp only [exec, execTraceEnd, hr, ht, he, if_true]

theorem exec_eventRecordWrite {s u : State} (hs : s.writerOpen = true) (hu : s.waitUntil s.writerTick = u)
    (huo : u.writerOpen = true) : exec .eventRecordWrite s = .next u.writeRecord := by
  simp only [exec, execEventRecordWrite, hs, hu, huo, if_true]

theorem exec_eventWriteRetry {s u : State} (hs : s.writerOpen = true) (hu : s.waitUntil s.writerTick = u)
    (huo : u.writerOpen = true) :
    exec .eventWriteRetry s = .next { u with evt := { u.evt with retryAt := some (u.now + 10000) } } := by
  simp only [exec, execEventWriteRetry, hs, hu, huo, Bool.not_true, Bool.false_eq_true, if_true, if_false]

theorem exec_evtGap {s : State} (hr : s.running = true) (hg : s.evt.gapped = true)
    (hl : s.evt.staged.length < 8 * s.rf 0x20008 6 0) :
    let g (k : Nat) : Nat := min 65535 (smGet (fun _ => 0) s.evt.gap k)
    let r : EvRec :=
      { cls := 2, code := 0x081, rep := 0, tick := s.now, arg := mkWord [(32, g 1), (16, g 2), (0, g 3)] }
    exec .evtGap s = .next { s with evt := { s.evt with staged := insertRec r s.evt.staged, gap := [], gapped := false } } := by
  have hroom : Nat.blt s.evt.staged.length (8 * s.rf 0x20008 6 0) = true := Nat.blt_eq.mpr hl
  simp only [exec, execEvtGap, hr, hg, hroom, Bool.and_self, if_true]

/-- Settles O53: each row in its tick; a dump that is due starts, or is skipped and told. -/
theorem monitorRecordsAreWritten : Obligations.MonitorRecordsAreWritten := by
  refine ⟨⟨fun s hr hb hur => exec_bandwidthWindowEnd hr hur hb rfl rfl,
      fun s e hr he hur hue => ⟨fun hn => ?start, fun hn => ?skip⟩,
      fun s q n f hr hd hur => exec_counterDumpEnd hr hur hd rfl⟩,
    fun s k t e => exec_traceEnd, fun s k t hr ht he hur => exec_traceTimeout hr hur ht he rfl,
    fun s hs => exec_eventRecordWrite hs rfl, fun s hs => exec_eventWriteRetry hs rfl, fun s => exec_evtGap,
    fun s n hr hn hur => exec_holdoffUs hr hur hn rfl⟩
  case start =>
    rw [exec_counterDumpStart hr hur he rfl hue, hn]
    rfl
  case skip =>
    rw [exec_counterDumpStart hr hur he rfl hue, if_pos (Option.isSome_iff_ne_none.mpr hn)]
    rfl

end Sys2Proof.Machine

/-! ## Buffer commands (SPEC 12) -/

namespace Sys2Proof.Machine

/-! ### INJECT and RETURN (R413, R425 to R427) -/

section Buffers

variable {c : Cmd} {a : State} {r : CmdRule} (pr : Priv) (n : Nat)

theorem injectRow_run {io : HostIo} {picks : List Nat} (hr : injectRow c io picks = some r) : r.run a pr n =
    if io.took = 0 ∨ dirFromPtr (c.op 2) then injectWork c io.octets picks a
    else .wait 0 (.work 0 (.inject c io.octets picks io.took)) a := by
  unfold injectRow at hr
  split at hr
  · cases hr
  · obtain rfl := Option.some.inj hr
    rfl

theorem bufReturnRow_absent (hr : bufReturnRow c = some r) (hp : pointerBad (c.op 0) = false)
    (hn : a.heldAt (c.op 0) = none) : r.run a pr n = .fin stNotFound 0 0 a := by
  unfold bufReturnRow at hr
  dsimp only at hr
  split at hr
  · cases hr
  · obtain rfl := Option.some.inj hr
    simp only [hp, hn, Bool.false_eq_true, if_false]

theorem bufReturnRow_held {i : Nat} (hr : bufReturnRow c = some r) (hp : pointerBad (c.op 0) = false)
    (hi : a.heldAt (c.op 0) = some i) : r.run a pr n = .fin stDone 0 (a.refsOf i - 1) (a.releaseHeld i) := by
  unfold bufReturnRow at hr
  dsimp only at hr
  split at hr
  · cases hr
  · obtain rfl := Option.some.inj hr
    simp only [hp, hi, Bool.false_eq_true, if_false, Ran.done]

section Classified

variable {q : Nat} {d : Word} (bs : List Byte) (k : Nat) (picks : List Nat) (hd : dirClassify d = true)
include hd

theorem injectFrame_host : a.injectFrame q d bs k none picks = .fin stDone k 0 (a.arrive (injectArrival q bs)) := by
  simp only [State.injectFrame, hd, if_true, Ran.done]

theorem injectFrame_held (i : Nat) : a.injectFrame q d bs k (some i) picks =
    .fin stDone k 0 ((a.arrive (injectArrival q bs)).releaseHeld i) := by
  simp only [State.injectFrame, hd, if_true, Ran.done]

end Classified

/-- The frame comes from the host. -/
theorem injectWork_host {octets : List Byte} {picks : List Nat} (hd : dirFromPtr (c.op 2) = false) :
    injectWork c octets picks a =
      a.injectFrame c.port.num (c.op 2) (withFcs (takePad (c.op 1).toNat 0 octets)) (c.op 1).toNat none picks := by
  simp only [injectWork, hd, Bool.false_eq_true, if_false]

/-- The frame is in a buffer held for the host. -/
theorem injectWork_held {octets : List Byte} {picks : List Nat} {i : Nat} {p : Packet} (hd : dirFromPtr (c.op 2) = true)
    (hp : pointerBad (c.op 0) = false) (hi : a.heldAt (c.op 0) = some i) (hk : a.pkt i = some p) :
    injectWork c octets picks a = a.injectFrame c.port.num (c.op 2) p.octets p.len (some i) picks := by
  simp only [injectWork, hd, hp, hi, hk, Bool.false_eq_true, if_true, if_false]

end Buffers

/-- Settles O23: by where the frame stands, and by what the pointer names. -/
theorem bufferCommandsComplete : Obligations.BufferCommandsComplete := by
  refine ⟨fun s c io picks r hr ha => ⟨fun hd ht => ?later, fun hd ht hk => ?classified,
    fun k w x hd ht hk hw => ?unclassified, fun i p hd hp hi hk hc => ?held⟩,
    fun s c r hr ha hp => ⟨fun hn => ?absent, fun i hi => ?returned⟩⟩
  case later =>
    have hw : ¬(io.took = 0 ∨ dirFromPtr (c.op 2) = true) := by simp [ht, hd]
    exact exec_goesOn (i := .inject c io picks) rfl hr ha ((injectRow_run _ _ hr).trans (if_neg hw))
  case classified =>
    refine exec_ends (i := .inject c io picks) rfl hr ha ?_
    rw [injectRow_run _ _ hr, if_pos (.inl ht), injectWork_host hd, injectFrame_host _ _ _ hk]
  case unclassified =>
    refine exec_goesOn (i := .inject c io picks) rfl hr ha ?_
    rw [injectRow_run _ _ hr, if_pos (.inl ht), injectWork_host hd, State.injectFrame, hk, if_neg Bool.false_ne_true, hw]
  case held =>
    refine exec_ends (i := .inject c io picks) rfl hr ha ?_
    rw [injectRow_run _ _ hr, if_pos (.inr hd), injectWork_held hd hp hi hk, injectFrame_held _ _ _ hc]
  case absent => exact exec_ends (i := .bufReturn c) rfl hr ha (bufReturnRow_absent _ _ hr hp hn)
  case returned => exact exec_ends (i := .bufReturn c) rfl hr ha (bufReturnRow_held _ _ hr hp hi)

end Sys2Proof.Machine

/-! ## System commands (SPEC 14, 15, 17, 18) -/

namespace Sys2Proof.Machine

/-! ### Epochs, resources, defaults and network time (R464, R484, R486, R538 to R541, R573, R574) -/

theorem epochCommitRule_run {a : State} {c : Cmd} (p : Priv) (n : Nat) (hh : a.stageHeld = false) (hp : a.commitPending = false) :
    (epochCommitRule c).run a p n = .wait 0 .epoch ((a.pendCommit a.commitTime).sendToken (some a.commitTime)) := by
  simp only [epochCommitRule, hh, hp, Bool.or_self, Bool.false_eq_true, if_false]

section Retire

variable {a : State} {cls i : Nat} (auto : Bool)

theorem retireRes_again (h : a.isRetired cls i = true) : a.retireRes auto cls i = .fin stDone 0 0 a := by
  simp only [State.retireRes, h, if_true, Ran.done]

/-- The state with the resource retired: its history is cleared, the retirement logged and told. -/
def State.retiredAs (a : State) (cls i : Nat) : State :=
  (((a.retireEffect cls i).1.clearHist cls i).logRetire cls i false).alarm 11 0x021 cls i

/-- Nothing refuses the retirement: the resource is in service, no pseudo-channel moves, and a spare is left. -/
def State.mayRetire (a : State) (cls i : Nat) : Prop :=
  a.isRetired cls i = false ∧ (cls = 3 → a.pcMoving = false) ∧ (a.retiredOf cls).length < resLimit cls ∧
    (cls = 4 → a.freeSpare i ≠ none)

theorem retireRes_mayRetire (h : a.mayRetire cls i) : a.retireRes auto cls i =
    (a.retireEffect cls i).2.elim (.fin stDone 0 0 (a.retiredAs cls i)) (.wait 0 · (a.retiredAs cls i)) := by
  obtain ⟨hr, hm, hl, hs⟩ := h
  have hmoving : ¬(cls = 3 ∧ a.pcMoving = true) := fun ⟨hc, hp⟩ => by simp [hm hc] at hp
  have hfull : ¬(resLimit cls ≤ (a.retiredOf cls).length ∨ cls = 4 ∧ (a.freeSpare i).isNone = true) := by
    rintro (hle | ⟨hc, hn⟩)
    · omega
    · exact hs hc (Option.isNone_iff_eq_none.mp hn)
  simp only [State.retireRes, hr, hmoving, hfull, Bool.false_eq_true, if_false, Ran.done]
  cases (a.retireEffect cls i).2 <;> rfl

end Retire

section Restore

variable {a : State} {i : Nat}

theorem restoreRule_run {c : Cmd} {cls : Nat} (h : resClass c = cls) (p : Priv) (n : Nat) :
    (restoreRule c).run a p n = a.restoreRes cls (resIndex c) := h ▸ rfl

theorem restoreRes_again {cls : Nat} (h : a.isRetired cls i = false) (hm : cls = 3 → a.rb (adPc i) 20 = false) :
    a.restoreRes cls i = .fin stDone 0 0 a := by
  have hmoving : ¬(cls = 3 ∧ a.rb (adPc i) 20 = true) := fun ⟨hc, hp⟩ => by simp [hm hc] at hp
  simp only [State.restoreRes, hmoving, h, Bool.not_false, if_true, if_false, Ran.done]

theorem restoreRes_lane (h : a.isRetired 0 i = true) : a.restoreRes 0 i =
    .fin stDone 0 0 ((a.changeLane (i / 2) (i % 2) (fun v => { v with retired := false })).restored 0 i) := by
  simp [State.restoreRes, h, Ran.done]

theorem restoreRes_tree (h : a.isRetired 1 i = true) : a.restoreRes 1 i =
    .fin stDone 0 0 ((a.changeTree i (fun u => { u with retired := false })).restored 1 i) := by
  simp [State.restoreRes, h, Ran.done]

theorem restoreRes_port (h : a.isRetired 2 i = true) : a.restoreRes 2 i =
    .fin stDone 0 0 ((a.setRf (adPort i 1) 16 16 0).restored 2 i) := by
  simp [State.restoreRes, h, Ran.done]

theorem restoreRes_channel (h : a.isRetired 3 i = true) (hm : a.rb (adPc i) 20 = false) (he : a.execs = []) :
    a.restoreRes 3 i = .wait 0 (.pcRebuild i a.now) a := by
  simp [State.restoreRes, h, hm, he]

theorem restoreRes_row (h : a.isRetired 4 i = true) (hc : a.flt.copying = []) : a.restoreRes 4 i =
    .wait 0 (.rowCopy i) { a with flt := { a.flt with copying := [(i, true)] } } := by
  simp [State.restoreRes, h, hc]

theorem restoreRes_pipe (h : a.isRetired 5 i = true) : a.restoreRes 5 i = .fin stDone 0 0
    (({ a with flt := { a.flt with pipes := smSet (fun _ => false) a.flt.pipes i false } }).restored 5 i) := by
  simp [State.restoreRes, h, Ran.done]

end Restore

section Defaults

variable {a : State} {c : Cmd} {b : Nat × Nat} {p : Priv} (n : Nat) (hb : blockOf (c.arg 24 0) = some b)
include hb

theorem defaultsRule_held
    (hh : (a.atStart.defaultsBusy (c.arg 24 0) || (p == .supervisor && a.spInReset && spWord (c.arg 24 0))) = true) :
    (defaultsRule c).run a p n = .fin stRejectBusy 0 0 a := by
  simp only [defaultsRule, hb, hh, if_true]

theorem defaultsRule_free
    (hh : (a.atStart.defaultsBusy (c.arg 24 0) || (p == .supervisor && a.spInReset && spWord (c.arg 24 0))) = false) :
    (defaultsRule c).run a p n = .wait 0 (.work 0 (.defaults (blockWords b))) a := by
  simp only [defaultsRule, hb, hh, Bool.false_eq_true, if_false]

end Defaults

/-- The words that one tick of DEFAULTS visits, with their defaults. -/
def State.defaultsOf (s : State) (l : List Nat) : List WordWrite :=
  ((l.take 64).filter (fun a => regSetMask a != 0)).map (fun a =>
    { addr := a, mask := regSetMask a, value := s.effDefault a })

theorem workTick_defaults (s : State) (p : Priv) (l : List Nat) (prog : Nat) : s.workTick p (.defaults l) prog =
    if l.length ≤ 64 then .fin stDone (prog + l.length) 0 (s.writeRegs (s.defaultsOf l))
    else .wait (prog + 64) (.work 0 (.defaults (l.drop 64))) (s.writeRegs (s.defaultsOf l)) := rfl

section TimeSet

variable {a : State} {c : Cmd} (p : Priv) (n : Nat) (hw : a.ppsWait = none)
include hw

theorem timeSetRule_now (hf : c.flag0 = false) :
    (timeSetRule c).run a p n = .fin stDone 0 a.tick48 (a.stepTime (tsTime c)) := by
  simp only [timeSetRule, hw, hf, Option.isSome_none, Bool.false_eq_true, if_false, Ran.done]

theorem timeSetRule_atPps (hf : c.flag0 = true) :
    (timeSetRule c).run a p n = .wait 0 (.pps a.now (c.op 0).toNat (fld (c.op 1) 29 0)) a := by
  simp only [timeSetRule, hw, hf, Option.isSome_none, Bool.false_eq_true, if_true, if_false]

end TimeSet

theorem timeSetRow_rule {c : Cmd} {b : Bool} (h : c.flag0 = b) : timeSetRow b c = some (timeSetRule c) := if_pos h

/-- Settles O22: each command by its rule's run. -/
theorem systemCommandsComplete : Obligations.SystemCommandsComplete := by
  refine ⟨fun s c ha => exec_ends (i := .epochBegin c) rfl rfl ha rfl,
    fun s c ha hh hp => exec_goesOn (i := .epochCommit c) rfl rfl ha (epochCommitRule_run _ _ hh hp),
    fun s c ha => ⟨fun h => exec_ends (i := .retire c) rfl rfl ha (retireRes_again _ h), fun h hm hl hs => ?retire⟩,
    fun s c ha => ⟨fun h hm => exec_ends (i := .restore c) rfl rfl ha (restoreRes_again h hm), fun h => ?restore⟩,
    fun s c b ha hb => ⟨fun hh => exec_ends (i := .defaults c) rfl rfl ha (defaultsRule_held _ hb hh),
      fun hh => exec_goesOn (i := .defaults c) rfl rfl ha (defaultsRule_free _ hb hh)⟩,
    fun s p l prog => ⟨fun h => ?last, fun h => ?more⟩,
    fun s c ha hf hw => exec_ends (i := .timeSet c) rfl (timeSetRow_rule hf) ha (timeSetRule_now _ _ hw hf),
    fun s c ha hf hw => exec_goesOn (i := .timeSetAtPps c) rfl (timeSetRow_rule hf) ha (timeSetRule_atPps _ _ hw hf)⟩
  case retire =>
    dsimp only
    split
    · next w hw =>
      refine exec_goesOn (i := .retire c) rfl rfl ha ((retireRes_mayRetire _ ⟨h, hm, hl, hs⟩).trans ?_)
      rw [hw]
      rfl
    · next hw =>
      refine exec_ends (i := .retire c) rfl rfl ha ((retireRes_mayRetire _ ⟨h, hm, hl, hs⟩).trans ?_)
      rw [hw]
      rfl
  case restore =>
    refine ⟨fun hk => ?_, fun hk => ?_, fun hk => ?_, fun hk hm he => ?_, fun hk hc => ?_, fun hk => ?_⟩ <;> rw [hk] at h
    · exact exec_ends (i := .restore c) rfl rfl ha ((restoreRule_run hk _ _).trans (restoreRes_lane h))
    · exact exec_ends (i := .restore c) rfl rfl ha ((restoreRule_run hk _ _).trans (restoreRes_tree h))
    · exact exec_ends (i := .restore c) rfl rfl ha ((restoreRule_run hk _ _).trans (restoreRes_port h))
    · exact exec_goesOn (i := .restore c) rfl rfl ha ((restoreRule_run hk _ _).trans (restoreRes_channel h hm he))
    · exact exec_goesOn (i := .restore c) rfl rfl ha ((restoreRule_run hk _ _).trans (restoreRes_row h hc))
    · exact exec_ends (i := .restore c) rfl rfl ha ((restoreRule_run hk _ _).trans (restoreRes_pipe h))
  case last => exact (workTick_defaults s p l prog).trans (if_pos h)
  case more => exact (workTick_defaults s p l prog).trans (if_neg (not_le.mpr h))

end Sys2Proof.Machine

/-! ## The key unit (SPEC 13) -/

namespace Sys2Proof.Machine

/-! ### KEY_OP (R438, R449 to R452) -/

section KeyReady

variable {c : Cmd} {a : State} (hk : a.keyReady c)
include hk

/-- Nothing stops the operation before its work. -/
theorem keyRow_run {op : Nat} {work : State → Priv → Nat → Ran} {r : CmdRule} (hr : keyRow c op work = some r)
    (hop : Cmd.keyOp c = op) (p : Priv) (n : Nat) : r.run a p n = work a p n := by
  obtain ⟨⟨e, hlock⟩, hstandby, hstop⟩ := hk
  obtain rfl : keyRule c (· == op) work = r := Option.some.inj ((if_pos hop).symm.trans hr)
  simp only [keyRule, hlock, hstandby, hstop, if_true, Bool.false_eq_true, if_false]

/-- No invalidation of the tick takes the slot that the operation writes. -/
theorem keyReady_target : (keyTarget c).any a.invalNow = false := by
  obtain ⟨-, -, hstop⟩ := hk
  cases ht : keyTarget c with
  | none => rfl
  | some k =>
    by_contra hinval
    have hinval : a.invalNow k = true := by simpa using hinval
    unfold State.keyStop at hstop
    simp only [ht, hinval, if_true] at hstop
    split at hstop
    · cases hstop
    · split at hstop <;> cases hstop

end KeyReady

section KeyStart

variable {c : Cmd} {io : HostIo} {a : State} (p : Priv) (n : Nat)

theorem keyStart_later (h : keyTook c io ≠ 0) :
    keyStart c io a p n = .wait 0 (.work 0 (.key c io (keyTook c io) (keyTook c io))) a := if_neg h

theorem keyStart_now (h : keyTook c io = 0) : keyStart c io a p n = keyEnd c io a := if_pos h

/-- An operation on blocks takes ticks beyond its admission tick. -/
theorem keyTook_pos (h0 : Cmd.keyOp c ≠ 0) (h1 : Cmd.keyOp c ≠ 1) (hb : 0 < keyBlocks c) : keyTook c io ≠ 0 := by
  have hle : 32 * keyBlocks c ≤ max (32 * keyBlocks c) (min (48 * keyBlocks c) io.took) := le_max_left _ _
  rw [keyTook, if_neg h1, if_neg h0]
  omega

/-- ERASE takes no ticks. -/
theorem keyTook_erase (h : Cmd.keyOp c = 2) : keyTook c io = 0 := by
  have hb : keyBlocks c = 0 := by simp only [keyBlocks, h]
  simp [keyTook, h, hb]

end KeyStart

section KeyEnd

variable {c : Cmd} {io : HostIo} {s : State} (ht : (keyTarget c).any s.invalNow = false)
include ht

theorem keyEnd_load (h : Cmd.keyOp c = 0) : keyEnd c io s =
    .fin stDone 16 16 (s.loadSlot (c.op 1).toNat (keyOf (takePad 16 0 (bytesNat io.octets)))) := by
  simp only [keyEnd, ht, h, Bool.false_eq_true, if_false, keyLoadWork, Ran.done]

theorem keyEnd_gen (h : Cmd.keyOp c = 1) : keyEnd c io s =
    .fin stDone 0 16 (s.loadSlot (c.op 1).toNat (Config.freeKey s.free)).drew := by
  simp only [keyEnd, ht, h, Bool.false_eq_true, if_false, keyGenWork, State.freeKey, Ran.done]

theorem keyEnd_erase (h : Cmd.keyOp c = 2) : keyEnd c io s = .fin stDone 0 0 (s.wipeSlot (c.op 1).toNat) := by
  simp only [keyEnd, ht, h, Bool.false_eq_true, if_false, keyEraseWork, Ran.done]

theorem keyEnd_decSlot (h : Cmd.keyOp c = 5) : keyEnd c io s = .fin stDone 16 16
    ((s.loadSlot (c.op 1).toNat (keyOf (aesDec (s.slotKey (Cmd.keySlot c)) (takePad 16 0 (bytesNat io.octets))))).monEv
      5 0 1 1) := by
  simp only [keyEnd, ht, h, Bool.false_eq_true, if_false, ecbDecSlotWork, Ran.done]

theorem keyEnd_unwrap (h : Cmd.keyOp c = 9) {k : List Nat}
    (hk : aesUnwrap ((s.monEv 5 0 1 12).slotKey (Cmd.keySlot c)) (takePad 24 0 (bytesNat io.octets)) = some k) :
    keyEnd c io s = .fin stDone 24 16 ((s.monEv 5 0 1 12).loadSlot (c.op 1).toNat (keyOf k)) := by
  have hb : keyBlocks c = 12 := by simp only [keyBlocks, h]
  simp only [keyEnd, ht, h, Bool.false_eq_true, if_false, unwrapWork, hb, hk, Ran.done]

theorem keyEnd_unwrap_fails (h : Cmd.keyOp c = 9)
    (hk : aesUnwrap ((s.monEv 5 0 1 12).slotKey (Cmd.keySlot c)) (takePad 24 0 (bytesNat io.octets)) = none) :
    keyEnd c io s = .fin stTagFail 0 0 ((s.monEv 5 0 1 12).bump 0x70011 1) := by
  have hb : keyBlocks c = 12 := by simp only [keyBlocks, h]
  simp only [keyEnd, ht, h, Bool.false_eq_true, if_false, unwrapWork, hb, hk]

end KeyEnd

section KeyData

variable {c : Cmd} {io : HostIo} (s : State)

theorem keyEnd_cmac (h : Cmd.keyOp c = 6) : keyEnd c io s = .fin stDone (c.op 2).toNat 16
    ((s.emit (.hostOctets (hostAddr (c.op 1)) (natBytes (aesCmac (s.slotKey (Cmd.keySlot c))
      (takePad (c.op 2).toNat 0 (bytesNat io.octets)))))).monEv 5 0 1 (keyBlocks c)) := by
  have ht : keyTarget c = none := by simp only [keyTarget, h]
  simp only [keyEnd, ht, h, Option.any_none, Bool.false_eq_true, if_false, cmacGenWork, Ran.done]

theorem keyEnd_verify (h : Cmd.keyOp c = 7) : keyEnd c io s =
    (let n := (c.op 2).toNat
    let l := takePad n 0 (bytesNat io.octets)
    let x := s.monEv 5 0 1 (keyBlocks c)
    if aesCmac (x.slotKey (Cmd.keySlot c)) (l.take (n - 16)) = l.drop (n - 16) then .fin stDone n 0 x
    else .fin stTagFail 0 0 (x.bump 0x70011 1)) := by
  have ht : keyTarget c = none := by simp only [keyTarget, h]
  simp only [keyEnd, ht, h, Option.any_none, Bool.false_eq_true, if_false, cmacVerifyWork, Ran.done]

theorem keyEnd_wrap (h : Cmd.keyOp c = 8) : keyEnd c io s = .fin stDone 24 24
    ((s.emit (.hostOctets (hostAddr (c.op 1)) (natBytes (aesWrap (s.slotKey (Cmd.keySlot c))
      (s.slotKey (c.op 0).toNat))))).monEv 5 0 1 12) := by
  have ht : keyTarget c = none := by simp only [keyTarget, h]
  have hb : keyBlocks c = 12 := by simp only [keyBlocks, h]
  simp only [keyEnd, ht, h, hb, Option.any_none, Bool.false_eq_true, if_false, wrapWork, Ran.done]

/-- The last tick of an operation that gives no blocks as they are done ends it. -/
theorem workTick_key_last (p : Priv) (took prog : Nat) (h3 : Cmd.keyOp c ≠ 3) (h4 : Cmd.keyOp c ≠ 4) :
    s.workTick p (.key c io took 1) prog = keyEnd c io s := by
  simp only [State.workTick, keyTick, h3, h4, or_self, if_false, le_refl, if_true]

/-- The last tick of ECB gives the blocks that are left. -/
theorem workTick_ecb_last (p : Priv) (took prog : Nat) (h : Cmd.keyOp c = 3 ∨ Cmd.keyOp c = 4)
    (hl : prog / 16 < (c.op 2).toNat / 16) : s.workTick p (.key c io took 1) prog =
      (let key := s.slotKey (Cmd.keySlot c)
      let n := (c.op 2).toNat
      let blocks := ((takePad n 0 (bytesNat io.octets)).drop (16 * (prog / 16))).take (16 * (n / 16 - prog / 16))
      let o := natBytes (if Cmd.keyOp c = 3 then aesEcbEnc key blocks else aesEcbDec key blocks)
      .fin stDone (16 * (n / 16)) (16 * (n / 16))
        ((s.emit (.hostOctets (hostAddr (c.op 1) + 16 * (prog / 16)) o)).monEv 5 0 1 (n / 16 - prog / 16))) := by
  have hb : keyBlocks c = (c.op 2).toNat / 16 := by rcases h with h | h <;> simp only [keyBlocks, h]
  have hshare : sharesOf (keyBlocks c) took 1 = (c.op 2).toNat / 16 := hb
  simp only [State.workTick, keyTick, h, hshare, le_refl, if_true, keyEcbWork, ne_of_lt hl, if_false, Ran.done]

end KeyData

/-- Settles O19: by the operation, in its admission tick and in the last tick of its work; a slot is written alone. -/
theorem keySlotOperationsComplete : Obligations.KeySlotOperationsComplete := by
  refine ⟨fun s c io i hi r hr ha hk => ?start, fun s c r hr ha hop hk => ?erase, fun s c r hr ha hop hk => ?attr,
    fun s p c io took prog ht => ⟨fun h => ?load, fun h => ?gen, fun h => ?dec, fun h k hu => ?unwrap, fun h hu => ?fails⟩,
    fun s n m k hm => ?slots⟩
  case start =>
    have hrow : hostRow i = some (c, fun _ => keyRow c (Cmd.keyOp c) (keyStart c io)) := by
      simp only [List.mem_cons, Prod.mk.injEq, List.not_mem_nil, or_false] at hi
      rcases hi with ⟨hop, rfl⟩ | ⟨hop, rfl⟩ | ⟨hop, rfl⟩ | ⟨hop, rfl⟩ <;> rw [hop] <;> rfl
    have hrun := keyRow_run hk hr rfl
    have ht := keyReady_target hk
    refine ⟨fun hn => exec_goesOn hrow hr ha ((hrun _ _).trans (keyStart_later _ _ hn)), fun hn h0 => ?_, fun hn h1 => ?_⟩
    · exact exec_ends hrow hr ha ((hrun _ _).trans ((keyStart_now _ _ hn).trans (keyEnd_load ht h0)))
    · exact exec_ends hrow hr ha ((hrun _ _).trans ((keyStart_now _ _ hn).trans (keyEnd_gen ht h1)))
  case erase =>
    exact exec_ends (i := .keyErase c) rfl hr ha ((keyRow_run hk hr hop _ _).trans
      ((keyStart_now _ _ (keyTook_erase hop)).trans (keyEnd_erase (keyReady_target hk) hop)))
  case attr => exact exec_ends (i := .setAttr c) rfl hr ha (keyRow_run hk hr hop _ _)
  case load => exact (workTick_key_last s p took prog (by omega) (by omega)).trans (keyEnd_load ht h)
  case gen => exact (workTick_key_last s p took prog (by omega) (by omega)).trans (keyEnd_gen ht h)
  case dec => exact (workTick_key_last s p took prog (by omega) (by omega)).trans (keyEnd_decSlot ht h)
  case unwrap => exact (workTick_key_last s p took prog (by omega) (by omega)).trans (keyEnd_unwrap ht h hu)
  case fails => exact (workTick_key_last s p took prog (by omega) (by omega)).trans (keyEnd_unwrap_fails ht h hu)
  case slots =>
    simp only [State.loadSlot, State.wipeSlot, slot_setSlot_same, slot_setSlot_ne _ _ hm, and_self]

/-- SET_TX of a slot whose frames come from a tree, with none pending for its pair (R438). -/
theorem setTxWork_waits {c : Cmd} {a : State} {t : Nat} (p : Priv) (n : Nat) (ht : a.atStart.setTxTree (Cmd.keySlot c) = some t)
    (hp : a.atStart.txPending (Cmd.keySlot c / 2 * 2) = none) :
    setTxWork c a p n = .wait 0 (.setTx (Cmd.keySlot c) t (c.op 0).toNat) a := by
  simp only [setTxWork, ht, hp, Option.isSome_none, Bool.false_eq_true, if_false]

/-- Settles O20: by the operation, in its admission tick and in the last tick of its work. -/
theorem keyDataOperationsComplete : Obligations.KeyDataOperationsComplete := by
  refine ⟨fun s c io i hi r hr ha hk hb => ?start, fun s c t r hr ha hop hk ht hp => ?setTx,
    fun s p c io took prog => ⟨fun h hl => workTick_ecb_last s p took prog h hl, fun h => ?cmac, fun h => ?verify,
      fun h => ?wrap⟩⟩
  case start =>
    simp only [List.mem_cons, Prod.mk.injEq, List.not_mem_nil, or_false] at hi
    have hop : Cmd.keyOp c ≠ 0 ∧ Cmd.keyOp c ≠ 1 := by omega
    have hrow : hostRow i = some (c, fun _ => keyRow c (Cmd.keyOp c) (keyStart c io)) := by
      rcases hi with ⟨hop, rfl⟩ | ⟨hop, rfl⟩ | ⟨hop, rfl⟩ | ⟨hop, rfl⟩ | ⟨hop, rfl⟩ <;> rw [hop] <;> rfl
    exact exec_goesOn hrow hr ha ((keyRow_run hk hr rfl _ _).trans (keyStart_later _ _ (keyTook_pos hop.1 hop.2 hb)))
  case setTx => exact exec_goesOn (i := .setTx c) rfl hr ha ((keyRow_run hk hr hop _ _).trans (setTxWork_waits _ _ ht hp))
  case cmac => exact (workTick_key_last s p took prog (by omega) (by omega)).trans (keyEnd_cmac s h)
  case verify => exact (workTick_key_last s p took prog (by omega) (by omega)).trans (keyEnd_verify s h)
  case wrap => exact (workTick_key_last s p took prog (by omega) (by omega)).trans (keyEnd_wrap s h)

end Sys2Proof.Machine
